-- ==== Sys2Proof/Word.lean ====
section
/-! DEFINITION. The words of the Uasar 9256: bytes, 16-, 32- and 64-bit words, and the sparse tables the state is made of. -/

namespace Sys2Proof

/-- One byte. -/
abbrev Byte := BitVec 8
/-- A 16-bit field. -/
abbrev W16 := BitVec 16
/-- A 32-bit register or field. -/
abbrev W32 := BitVec 32
/-- A 64-bit register or move value (R172). -/
abbrev W64 := BitVec 64
/-- One 64-byte sector, byte 0 in bits 7:0 (R7, R263). -/
abbrev Sector := BitVec 512

/-- A sparse table: keys strictly rising, and no entry that equals what an unlisted key reads as. -/
abbrev Sp (α : Type) := List (Nat × α)

end Sys2Proof
end

