-- ==== Sys2Proof/Syntax.lean ====
section
/-! DEFINITION. The commands of the Uasar 9256: one constructor for each row of spec/opcode_table.json, with the operands the row's rule needs. -/

namespace Sys2Proof

/-- Host port P0 or P1 (R19). -/
abbrev PortId := Fin 2
/-- A function in the FUNC encoding of Table 4.2: 0x000 PF0, n VFn, 0x101 PF1. -/
abbrev FnId := Fin 258
/-- A VF, counted from 0: `v` names VF(v+1) (R36). -/
abbrev VfId := Fin 256
/-- A queue of a function in register order (R40): q = 0-7 of a VF; 0 the admin pair and 1-8 pairs 0-7 of a PF. -/
abbrev QId := Fin 9
/-- Link L000-L255 (R14). -/
abbrev LinkId := Fin 256
/-- Physical engine PE000-PE143 (R14). -/
abbrev PeId := Fin 144
/-- Logical engine E000-E127 (R16). -/
abbrev LeId := Fin 128
/-- Cluster C00-C15, or home H00-H15 (R14). -/
abbrev ClId := Fin 16
/-- Cipher group or galley coder 0-63 (R318, R354). -/
abbrev UnitId := Fin 64
/-- Tally index (R99). -/
abbrev TlyIx := Fin 1048576
/-- The requesters of a home: 0-15 the L2s, 16 and 17 the host ports (R295). -/
abbrev ReqId := Fin 18
/-- A group slot of a Tally entry: 0 A, 1 B, 2 C (Table 4.2). -/
abbrev GSlot := Fin 3

/-- Through what a register access arrives: a PF's BAR0 or BAR2 (through its port), or a VF's BAR0 through a port (R39, R40). -/
inductive Via where
  | pf (p : PortId)
  | vf (p : PortId) (v : VfId)
  | bar2 (p : PortId)
deriving DecidableEq, Repr

/-- Who writes a register of PF BAR0: a PF, or the secure world through device register space (Table 6.8). -/
inductive Who where
  | pf (p : PortId)
  | secure
deriving DecidableEq, Repr

/-- What host memory answers to the reads a command ends: bytes by host physical address (unlisted: 0), 64-byte sectors read with poison, and the engine address of a read that timed out (log 4). -/
structure HostIn where
  cells : List (Nat × Byte)
  poison : List Nat
  timeout : Option Nat
deriving DecidableEq, Repr

/-- A Huzout frame that has passed steps 1 and 2 of Table 5.5 (Table 5.2): VERSION 0x1 and the zero fields zero. -/
structure Frame where
  /-- TYPE (Table 5.3). -/
  type : BitVec 4
  /-- FLAGS (Table 5.4; bit 6 is GAP in an ACK, R145). -/
  flags : Byte
  partner : W16
  group : BitVec 10
  tenant : BitVec 9
  lseq : BitVec 10
  tid : W32
  seq : W16
  payload : List Byte
deriving DecidableEq, Repr

/-- What the receiver of a link finds below or in the frame layer (Table 5.5, Table 5.12): a received frame by its bytes between Start and Terminate; or codewords that RS-FEC has corrected, and could not correct. -/
inductive RxEvent where
  | bytes (bs : List Byte)
  | fec (corrected uncorrectable : Byte)
deriving DecidableEq, Repr

/-- The stream of an IDE key (Table 2.1): the link stream or a selective stream of CXL.io, or CXL.cachemem. -/
inductive IdeKind where
  | ioLink | ioSelective | cacheMem
deriving DecidableEq, Repr

/-- The stream that an IDE key is for (R34): its kind and its stream identifier. -/
structure IdeStream where
  kind : IdeKind
  index : Byte
deriving DecidableEq, Repr

/-- What a configuration request reads (R32, R36): the list of the port's capabilities, the SR-IOV capability of its PF, or anything else. -/
inductive CfgItem where
  | capabilities | sriov | other
deriving DecidableEq, Repr

/-- A configuration request: the port it reaches, and what it reads (R447). -/
structure ConfigRead where
  port : PortId
  item : CfgItem
deriving DecidableEq, Repr

/-- Why a port is lost, for the row PORT_LOSS (R55, R452): data-link-down, a hot reset or link disable, surprise removal. -/
inductive LossCause where
  | dataLinkDown | hotReset | surprise
deriving DecidableEq, Repr

/-- What a Delouvel service opcode does (R77): the effects the manual names, and the unpublished rest. -/
inductive ServiceOp where
  /-- MANUFACTURE to PROVISION (Table 13.5). -/
  | toProvision
  /-- any to END in MANUFACTURE (Table 13.5). -/
  | toEnd
  /-- replacement of the microcode patch in the Deck (R240). -/
  | patch (file : List Byte)
  /-- any other service operation: its effect is not published. -/
  | other
deriving DecidableEq, Repr

/-- The referee's answer (R250). -/
inductive Referee where
  | none | agreesA | agreesB | neither
deriving DecidableEq, Repr

/-- The referee's answer, and whether the shadow store then checks (R250, R254). -/
structure RefView where
  ref : Referee
  shadow : Bool
deriving DecidableEq, Repr

/-- The snoops a host sends (R303). -/
inductive HostSnp where
  | inv | data | cur
deriving DecidableEq, Repr

/-- What a patrol-scrub read finds (R288, R289). -/
inductive ScrubRead where
  | clean | corrected | uncorrectable
deriving DecidableEq, Repr

/-- The rails the module monitors (R462). -/
inductive Rail where
  | core | io | mram | hbm (which : BitVec 4) | serdes
deriving DecidableEq, Repr

/-- Start-up phases B to K (Table 16.2). -/
inductive Phase where
  | B | C | D | E | F | G | H | I | J | K
deriving DecidableEq, Repr

/-- What went wrong in a start-up phase (Table 16.3), as the end of the phase reports it. -/
structure PhaseFault where
  /-- phase B: firmware copies that fail, 0-2. -/
  fwBad : Nat
  /-- phase D: the regulator is silent or its VOUT_MODE is not linear (R425). -/
  vrmBad : Bool
  /-- phase D: VDD_CORE current with only the TALLY and HOST grants in force, in A (R430). -/
  idleA : Nat
  /-- phase E: Landing stacks that fail training. -/
  stacksBad : List Nat
  /-- phase F: images whose Deck copy no longer verifies: handles; 256 the patch, 257 the secure image. -/
  imgBad : List Nat
  /-- phase G: physical engines, cipher slices and coders that fail their known-answer tests. -/
  pesBad : List Nat
  slicesBad : List Nat
  codersBad : List Nat
  /-- phases H, I: Tally bank (some false) or Deck (some true) fault. -/
  tlyBad : Option Bool
deriving DecidableEq, Repr

/-- A fault report (R394, R395): source, kind, class where the kind allows two, work touched, detail. -/
structure Report where
  source : W16
  kind : Byte
  tid : W32
  func : BitVec 9
  detail : W64
  inj : Bool
  secure : Bool
deriving DecidableEq, Repr

/-- JTAG instructions by what Table 13.4 distinguishes. -/
inductive JtagIns where
  | bypass | idcode | boundary | secureData | other (code : Byte)
deriving DecidableEq, Repr

/-- Where the microcode of a long operation stands (R233): the sequencer is about to fetch microword `mpc`, with the loop counter, the flags Z, N, C, V, the call stack (innermost first), the number of microwords executed, and U0, U1, ... What microcode of the ROM left there the manual does not print (log 9); from there on the words are executed as R235-R241 state. -/
structure MicroAt where
  mpc : BitVec 12
  cnt : W16
  flags : BitVec 4
  stack : List (BitVec 12)
  words : Nat
  u : List W64
deriving DecidableEq, Repr

/-- A place of the micro store or of the nano store (R233). -/
inductive MicroPlace where
  | micro (a : BitVec 12)
  | nano (a : BitVec 9)
deriving DecidableEq, Repr

/-- What happens to a stored microword or nanoword (R234): a single-bit error of a nanoword is corrected as it is read; any other check of a place fails, as the named lane reports (true: B); the rewrite of a place from the Deck copy ends. -/
inductive MicroEvent where
  | corrected (a : BitVec 9)
  | fails (place : MicroPlace) (laneB : Bool)
  | rewritten (place : MicroPlace)
deriving DecidableEq, Repr

/-- What happens to the program word at an engine's program counter (R177): bits of the stored word are inverted, as the named lane finds; or the rewrite from the Deck copy ends. -/
inductive WordEvent where
  | fails (flip : W16) (laneB : Bool)
  | rewritten
deriving DecidableEq, Repr

/-- An engine and what happens to the program word at its program counter. -/
structure WordAt where
  engine : LeId
  ev : WordEvent
deriving DecidableEq, Repr

/-- What a lane test found (R251): whether the lane passed, and whether the shadow store then checks (R254). -/
structure LaneTest where
  pass : Bool
  shadow : Bool
deriving DecidableEq, Repr

/-- The queue that receives an engine's transport (R244, R253): the memory path, RQ.CH, RQ.GAL, RQ.CPH, the event queue, the Tally, the QM (DONE). -/
inductive RecvQueue where
  | mem | ch | gal | cph | evq | tally | qm
deriving DecidableEq, Repr

/-- A copy of a transport at its queue (R253): its STEPSEQ, and whether the acknowledgement has reached the copies of both lanes. -/
structure TransportCopy where
  seq : W16
  acked : Bool
deriving DecidableEq, Repr

/-- The commands of the block, one per row of spec/opcode_table.json, in its order. In the engine rows `e` is the logical engine that executes the step and `ok` says whether the two lane signatures agree (R243). -/
inductive Instr where
  | registerWrite (via : Via) (off : BitVec 24) (wide : Bool) (val : W64)
  | emptyOffsetAccess (via : Via) (off : BitVec 24) (isWrite : Bool)
  | refclkLoss (p : PortId)
  | refclkReturn (p : PortId)
  | portTrainingEnd (p : PortId) (cxl : Bool) (speed width : BitVec 4)
  | configRequest (r : ConfigRead)
  | doeDiscovery (p : PortId) (index : Byte)
  | doeUnsupportedObject (p : PortId) (vendor : W16) (type : Byte)
  | cdatTableAccess (p : PortId) (entry : W16)
  | ideKeyManagement (p : PortId) (session : W32) (stream : IdeStream) (sub : BitVec 4) (key : BitVec 256)
  | getVersion (p : PortId)
  | getCapabilities (p : PortId)
  | negotiateAlgorithms (p : PortId) (hash asym dhe aead : Bool)
  | getDigests (p : PortId)
  | getCertificate (p : PortId) (slot : BitVec 4) (off len : W16)
  | challenge (p : PortId) (slot : BitVec 4) (nonce : BitVec 256)
  | getMeasurements (p : PortId) (index : Byte)
  | keyExchange (p : PortId) (slot : BitVec 4) (exchange : BitVec 768)
  | finish (p : PortId) (session : W32) (verify : Bool)
  | heartbeat (p : PortId) (session : W32)
  | keyUpdate (p : PortId) (session : W32)
  | endSession (p : PortId) (session : W32)
  | vfEnableWrite (p : PortId) (enable : Bool) (numVfs : W16)
  | functionLevelReset (p : PortId) (v : VfId)
  | flrComplete (v : VfId)
  | queueEnable (via : Via) (q : QId) (val : W32)
  | queueDisable (via : Via) (q : QId) (val : W32)
  | queueDrained (f : FnId) (q : QId)
  | sqTailDoorbell (via : Via) (q : QId) (val : W32)
  | cqHeadDoorbell (via : Via) (q : QId) (val : W32)
  | commandFetch (pkt : Sector) (poison : Bool)
  | completionPost (f : FnId) (q : QId)
  | coalesceDelayExpiry (f : FnId) (q : QId)
  | msixVectorUnmask (p : PortId) (f : FnId) (vec : Fin 10)
  | portLoss (p : PortId) (cause : LossCause)
  | portUp (p : PortId)
  | viralReceived (p : PortId)
  | cxlMemRead (p : PortId) (addr : BitVec 48)
  | cxlMemWrite (p : PortId) (addr : BitVec 48) (mask : W64) (data : Sector) (poison : Bool)
  | identify (h : Nat)
  | getLog (h : Nat)
  | setQuota (h : Nat)
  | setExpert (h : Nat)
  | write (h : Nat)
  | read (h : Nat)
  | mirrorWrite (h : Nat)
  | send (h : Nat)
  | exchange (h : Nat)
  | run (h : Nat)
  | abort (h : Nat)
  | resume (h : Nat)
  | query (h : Nat)
  | compress (h : Nat)
  | expand (h : Nat)
  | seal (h : Nat)
  | unseal (h : Nat)
  | keyLoad (h : Nat) (host : HostIn)
  | keyErase (h : Nat)
  | imageLoad (h : Nat) (host : HostIn)
  | imageBind (h : Nat)
  | imageInfo (h : Nat)
  | powerStatus (h : Nat)
  | setEnvelope (h : Nat)
  | bankState (h : Nat)
  | faultRead (h : Nat)
  | faultMode (h : Nat)
  | inject (h : Nat)
  | selftest (h : Nat)
  | gatewayCall (h : Nat)
  | handover (h : Nat)
  | measureGet (h : Nat)
  | groupCreate (h : Nat)
  | groupDelete (h : Nat)
  | groupAssign (h : Nat)
  | linkStatus (h : Nat)
  | serviceOpcode (h : Nat) (op : ServiceOp)
  | entryAllocate (h : Nat)
  | reuseHoldExpiry (i : TlyIx)
  | checkpointGuardExpiry
  | abortNoteDelayExpiry (i : TlyIx)
  | noteWritten (i : TlyIx)
  | checkpointStart
  | checkpointComplete
  | resolveWaitExpiry (tid : W32)
  | doubtTableClose
  | tlyRlogNext (p : PortId) (val : W32)
  | linkEnable (p : PortId) (l : LinkId) (val : W64)
  | linkDisable (p : PortId) (l : LinkId) (val : W64)
  | trainingComplete (l : LinkId)
  | trainingLimitExpiry (l : LinkId)
  | probingLimitExpiry (l : LinkId)
  | probeInterval (l : LinkId)
  | downHoldExpiry (l : LinkId)
  | lockLoss (l : LinkId)
  | linkSilenceExpiry (l : LinkId)
  | lrefLoss (c : ClId)
  | lrefReturn (c : ClId)
  | dataFrame (l : LinkId) (f : Frame)
  | ackFrame (l : LinkId) (f : Frame)
  | nakFrame (l : LinkId) (f : Frame)
  | creditFrame (l : LinkId) (f : Frame)
  | idleFrame (l : LinkId) (f : Frame)
  | probeFrame (l : LinkId) (f : Frame)
  | queryFrame (l : LinkId) (f : Frame)
  | idleInterval
  | creditReportTimer (l : LinkId)
  | replayTimeout (l : LinkId)
  | frameTransmit (l : LinkId) (ctrl : Bool)
  | ackTimeout (i : TlyIx) (g : GSlot)
  | busyRetryExpiry (i : TlyIx) (g : GSlot)
  | outcomeResend (tid : W32) (g : GSlot)
  | queryResend (tid : W32) (g : GSlot)
  | frameLifeExpiry (i : TlyIx) (g : GSlot)
  | chCntClear (p : PortId) (l : LinkId) (val : W32)
  | dispatch (i : TlyIx) (e : LeId)
  | move (e : LeId) (ok : Bool)
  | evqRead (e : LeId) (ok : Bool)
  | aluAdd (e : LeId) (ok : Bool)
  | aluSub (e : LeId) (ok : Bool)
  | aluAnd (e : LeId) (ok : Bool)
  | aluOr (e : LeId) (ok : Bool)
  | aluXor (e : LeId) (ok : Bool)
  | aluAndn (e : LeId) (ok : Bool)
  | aluShl (e : LeId) (ok : Bool)
  | aluShr (e : LeId) (ok : Bool)
  | aluSar (e : LeId) (ok : Bool)
  | aluRol (e : LeId) (ok : Bool)
  | aluEq (e : LeId) (ok : Bool)
  | aluLt (e : LeId) (ok : Bool)
  | aluLtu (e : LeId) (ok : Bool)
  | aluAddc (e : LeId) (ok : Bool)
  | aluSubb (e : LeId) (ok : Bool)
  | mulLo (e : LeId) (ok : Bool)
  | mulHiu (e : LeId) (ok : Bool)
  | mulHis (e : LeId) (ok : Bool)
  | faddD (e : LeId) (ok : Bool)
  | fsubD (e : LeId) (ok : Bool)
  | faddS (e : LeId) (ok : Bool)
  | fsubS (e : LeId) (ok : Bool)
  | fmulD (e : LeId) (ok : Bool)
  | fmulS (e : LeId) (ok : Bool)
  | fcmpD (e : LeId) (ok : Bool)
  | fcmpS (e : LeId) (ok : Bool)
  | fcvt (e : LeId) (ok : Bool)
  | ld8 (e : LeId) (ok : Bool)
  | ld16 (e : LeId) (ok : Bool)
  | ld32 (e : LeId) (ok : Bool)
  | ld64 (e : LeId) (ok : Bool)
  | st8 (e : LeId) (ok : Bool)
  | st16 (e : LeId) (ok : Bool)
  | st32 (e : LeId) (ok : Bool)
  | st64 (e : LeId) (ok : Bool)
  | divu (e : LeId) (ok : Bool)
  | divs (e : LeId) (ok : Bool)
  | fdivD (e : LeId) (ok : Bool)
  | fdivS (e : LeId) (ok : Bool)
  | fsqrtD (e : LeId) (ok : Bool)
  | fsqrtS (e : LeId) (ok : Bool)
  | crc32c (e : LeId) (ok : Bool)
  | bcmp (e : LeId) (ok : Bool)
  | bscan (e : LeId) (ok : Bool)
  | popcnt (e : LeId) (ok : Bool)
  | louBadarg (e : LeId) (ok : Bool)
  | tlActivate (e : LeId) (ok : Bool)
  | tlMark (e : LeId) (ok : Bool)
  | tlCommit (e : LeId) (ok : Bool)
  | tlFail (e : LeId) (ok : Bool)
  | longOpComplete (e : LeId) (host : HostIn) (micro : Option MicroAt)
  | microwordRewrite (e : LeId) (ev : MicroEvent)
  | brIf (e : LeId) (ok : Bool)
  | brJump (e : LeId) (ok : Bool)
  | brCall (e : LeId) (ok : Bool)
  | brEret (e : LeId) (ok : Bool)
  | rqCh (e : LeId) (ok : Bool) (host : HostIn)
  | galCompress (e : LeId) (ok : Bool)
  | galExpand (e : LeId) (ok : Bool)
  | cphSeal (e : LeId) (ok : Bool)
  | cphUnseal (e : LeId) (ok : Bool)
  | cphRawEncrypt (e : LeId) (ok : Bool)
  | cphRawDecrypt (e : LeId) (ok : Bool)
  | qwaitExpiry (e : LeId)
  | done (e : LeId) (ok : Bool)
  | programEnd (e : LeId)
  | immx (e : LeId) (ok : Bool)
  | repeatN (e : LeId) (ok : Bool)
  | repeatG (e : LeId) (ok : Bool)
  | gate (e : LeId) (ok : Bool)
  | returnGate (e : LeId) (ok : Bool)
  | entry (e : LeId) (ok : Bool)
  | nop (e : LeId) (ok : Bool)
  | barOrder (e : LeId) (ok : Bool)
  | barDone (e : LeId) (ok : Bool)
  | barrierComplete (e : LeId)
  | endpointTimeoutExpiry (e : LeId)
  | waitLong (e : LeId) (ok : Bool)
  | trapEntry (e : LeId)
  | programWordRewrite (w : WordAt)
  | engCntClear (p : PortId) (pe : PeId) (val : W32)
  | laneRetry (e : LeId) (ok : Bool)
  | refereeDecision (e : LeId) (checkA checkB : Bool) (ref : RefView)
  | laneTestComplete (pe : PeId) (result : LaneTest)
  | laneResyncComplete (pe : PeId)
  | migrationComplete (e : LeId)
  | transportAccept (e : LeId) (queue : RecvQueue) (copy : TransportCopy)
  | rdS (r : ReqId) (a : BitVec 42)
  | rdX (r : ReqId) (a : BitVec 42)
  | upg (r : ReqId) (a : BitVec 42)
  | rdNc (r : ReqId) (a : BitVec 42)
  | wrInv (r : ReqId) (a : BitVec 42)
  | ticketActivate (h : ClId) (r : ReqId)
  | snpS (c : ClId) (a : BitVec 42)
  | snpX (c : ClId) (a : BitVec 42)
  | snpInv (c : ClId) (a : BitVec 42)
  | snpCur (c : ClId) (a : BitVec 42)
  | rsp (c : ClId) (a : BitVec 42)
  | grant (r : ReqId) (a : BitVec 42)
  | retry (r : ReqId) (a : BitVec 42)
  | grantAck (r : ReqId) (a : BitVec 42)
  | data (r : ReqId) (a : BitVec 42)
  | evData (c : ClId) (a : BitVec 42)
  | evAck (c : ClId) (a : BitVec 42)
  | hostSnoop (p : PortId) (k : HostSnp) (addr : BitVec 52)
  | hostReadResponse (p : PortId) (a : BitVec 42) (data : Sector) (poison : Bool)
  | hostWriteCompletion (p : PortId) (a : BitVec 42)
  | homeTimeout (a : BitVec 42)
  | clean (w : Who) (c : ClId) (expert : Bool)
  | invalidate (w : Who) (c : ClId) (expert : Bool)
  | discard (w : Who) (c : ClId) (expert : Bool)
  | maintComplete (c : ClId)
  | l1Disable (w : Who) (c : ClId) (slot : QId)
  | l1Enable (w : Who) (c : ClId) (slot : QId)
  | l2Disable (w : Who) (c : ClId)
  | l2Enable (w : Who) (c : ClId)
  | flushComplete (c : ClId) (slot : Option QId)
  | memCntClear (w : Who) (c : ClId) (val : W32)
  | bankWake (c b : ClId)
  | bankStateComplete (c b : ClId)
  | patrolScrub (r : ScrubRead)
  | lndCntClear (w : Who) (val : W32)
  | cohCntClear (w : Who) (h : ClId) (val : W32)
  | keyCapture (g : UnitId)
  | cipherOperationEnd (g : UnitId) (host : HostIn)
  | cipherScrubComplete (g : UnitId)
  | cphCntClear (w : Who) (val : W32)
  | coderOperationStart (c : UnitId)
  | galleyConfirmation (c : UnitId) (block : Nat) (agrees : Bool)
  | coderOperationEnd (c : UnitId) (host : HostIn)
  | galleyScrubComplete (c : UnitId)
  | galCntClear (w : Who) (val : W32)
  | hoGive (d : W16)
  | hoRefuse (d : W16)
  | hoWant (d : W16)
  | hoWaitExpiry (d : W16)
  | handoverReset (d : W16)
  | wdogKick
  | secureWatchdogExpiry
  | secRestart (val : W32)
  | loneRestartComplete (ok : Bool)
  | lcCmd (p : PortId) (target : BitVec 3)
  | ownerKeyWrite (p : PortId) (key : BitVec 768)
  | measExt (last : W64)
  | debugWrite (p : PortId) (val : W32)
  | faultReport (rs : List Report)
  | quietPeriodExpiry (c : Fin 3)
  | blazeClear (p : PortId) (val : W32)
  | aliveToggle
  | mpWatchdogKick
  | mpWatchdogExpiry
  | mpLockstepMismatch
  | mpRestartComplete
  | injectTimeout (unit : W16)
  | injGo (val : W32)
  | bankTestStart (c : ClId)
  | spareEngineTestStart (c : ClId)
  | bankTestPhaseEnd (c : ClId) (pass : Bool)
  | spareEngineTestEnd (c : ClId) (pass : Bool)
  | selftestComplete (unit : W16) (pass : Bool)
  | powerGrantRequest (cls : Fin 9) (amps : Nat) (who : Nat)
  | powerGrantRelease (cls : Fin 9) (who : Nat)
  | poolUpdate (d i : BitVec 10)
  | paceRead (ps : List Nat)
  | paceAdjust
  | vrmPoll (vout : BitVec 12) (iout : BitVec 10) (status : W16)
  | vrmTransferFail
  | thermalSample (temps : List Nat)
  | sagStopNvCrossing (mv : BitVec 10)
  | nvStopEnd (mv : BitVec 10)
  | sagSkidCrossing (mv : BitVec 10) (vhold : W16)
  | skidImageWritten
  | supplyReturn (mv : BitVec 10)
  | railUndervoltage (r : Rail) (vhold : W16)
  | holdCheckStart (vhold : W16)
  | holdCheckGo (p : PortId) (val vhold : W32)
  | holdCheckComplete (vhold : W16)
  | holdStatusUpdate (vhold : W16)
  | holdCapWrite (p : PortId) (val : W32)
  | pwrCntClear (w : Who) (val : W32)
  | powerOnReset
  | startUpPhaseEnd (ph : Phase) (f : PhaseFault)
  | warmReset (p : PortId) (val : W32)
  | perstAssert (p : PortId)
  | perstDeassert (p : PortId)
  | quiesce (p : PortId) (val : W32)
  | quiesceDrained
  | configRecordWrite
  | smbPointer (val : W32) (pecOk : Bool)
  | smbRead (pecOk : Bool)
  | smbWrite (val : W64) (pecOk : Bool)
  | alertResponse
  | smbusTimeout
  | jtagInstruction (i : JtagIns)
  /-- `framed`: the framing of received bytes is intact (R141); it says nothing of codewords. -/
  | framingError (l : LinkId) (framed : Bool) (ev : RxEvent)
  | holdUpStoreExhausted
  | imageLoadComplete
deriving DecidableEq, Repr

end Sys2Proof
end

