-- ==== Sys2Proof/WellFormed.lean ====
section
/-! DEFINITION. Which commands are well formed: a payload no longer than a frame carries, widths the wire has. -/

namespace Sys2Proof

/-- A frame fits Table 5.2: at most 4,096 payload bytes (R143). -/
def Frame.ok (f : Frame) : Bool := f.payload.length ≤ 4096

/-- Every listed host byte and poisoned sector lies in the host's 52-bit address space (R60). -/
def HostIn.ok (h : HostIn) : Bool := h.cells.all (fun c => c.1 < 2 ^ 52) && h.poison.all (fun a => a % 64 == 0)

/-- The static checks on a command; every other operand is bounded by its type. -/
def Instr.wellFormed : Instr → Bool
  | .dataFrame _ f => f.ok
  | .ackFrame _ f => f.ok
  | .nakFrame _ f => f.ok
  | .creditFrame _ f => f.ok
  | .idleFrame _ f => f.ok
  | .probeFrame _ f => f.ok
  | .queryFrame _ f => f.ok
  | .keyLoad _ h => h.ok
  | .imageLoad _ h => h.ok
  | .longOpComplete _ h _ => h.ok
  | .rqCh _ _ h => h.ok
  | .cipherOperationEnd _ h => h.ok
  | .coderOperationEnd _ h => h.ok
  | _ => true

end Sys2Proof
end

