-- ==== Sys2Proof/Config.lean ====
section
/-! DEFINITION. What one part fixes and the manual does not print: identity values, library and firmware contents, keys. Every one is opaque, so nothing can be proved of its value. -/

namespace Sys2Proof.Config

/-- Free value (log 11): the silicon revision that IDENTIFY and IDCODE report (Table 3.8, R469). -/
opaque siliconRevision : W32
/-- Free value (log 11): the MP firmware version of IDENTIFY SELECT 3 (Table 3.8). -/
opaque mpFirmwareVersion : W32
/-- Free value (log 11): TRU_MODULE_SERIAL (Table 13.7). -/
opaque moduleSerial : W64
/-- Free value (log 11): the three SMB_ADDR straps latched at reset release (R465). -/
opaque smbStraps : BitVec 3
/-- Free value (log 8): word j of the channel library at 0x7000 + j (R207); the manual prints none of its words. -/
opaque libWord : Nat → BitVec 14
/-- Free value (log 8): the word offset from 0x7000 of entry i of the channel library (R197). -/
opaque libEntry : Nat → Nat
/-- Free value (log 8): the trap entry of the channel library, an address in 0x7000-0x7FFF (R196). -/
opaque libTrap : BitVec 15
/-- Free value (log 10): whether a P-384 signature by the named key verifies over the bytes (R208, R240, R389). Key 0 is Delouvel's, key 1 the owner's. -/
opaque signatureOk : Nat → List Byte → List Byte → List Byte → Bool
/-- Free value (log 10): the bytes of an SPDM or DOE answer that the manual takes from outside standards; arguments: request kind, port, draw number. -/
opaque spdmBytes : Nat → Nat → Nat → List Byte
/-- Free value (log 10): the bytes of the certificate chain in slot n (R392). -/
opaque certChain : Nat → List Byte
/-- Free value (log 13): the MP's estimate in µs of the time until the function's oldest admitted admin command completes (R73); argument: draw number. -/
opaque busyEstimate : Nat → W32
/-- Free value (log 9): contents of micro-register n of a LOU after any microcoded work (R233); the microcode ROM is not printed. -/
opaque microReg : Nat → Nat → W64
/-- Free value (log 9): microword a of the microcode ROM, 0x000-0xBFF (R233). -/
opaque microRom : Nat → BitVec 20
/-- Free value (log 9): nanoword k of the nano ROM, 0x000-0x17F (R233). -/
opaque nanoRom : Nat → BitVec 96
/-- Free value (log 9): bits 14:0 of entry c of the dispatch ROM, for a code that Table 7.8 assigns (R237). -/
opaque microEntry : Nat → BitVec 15
/-- Free value (log 9): entry 0xF0 + c of the dispatch ROM, the handler of MCAUSE c (R237). -/
opaque microHandler : Nat → W16
/-- Free value (log 9): the 8 check bits of a nanoword, of a code that the manual does not print (R233). -/
opaque nanoCheck : BitVec 96 → Byte
/-- Free value (log 9): the result of a datapath operation that Table 7.12 only names; arguments: OPSEL, WIDTH, SRCA, SRCB. -/
opaque microOp : Nat → Nat → W64 → W64 → W64
/-- Free value (log 9): the micro flags C and V (bits 1:0) of an operation that Table 7.12 does not tie to a destination port at 64 bits; arguments as for `microOp`. -/
opaque microFlags : Nat → Nat → W64 → W64 → BitVec 2
/-- Free value (log 9): COND 7 to 10 of an operand in the operation's format, which the manual does not name (Table 7.11); arguments: COND, LOU.GO code, the A latch. -/
opaque microCond : Nat → Nat → W64 → Bool
/-- Free value (log 9): the Tally's reply to a request of the LOU, of a format that the manual does not print (Table 7.12). -/
opaque microTally : W64 → W64
/-- Free value (log 43): how far an operation of a cipher group or coder that is aborted had written its output, in blocks; argument: draw number. -/
opaque progress : Nat → Nat
/-- Free value (log 29): how many entries checkpoint SEQ reads at the TICK that comes the given number of TICKs after its start (R126). -/
opaque ckptPace : Nat → Nat → Nat
/-- Free value (log 10): the firmware digest that phase B extends M0 with (Table 13.6). -/
opaque firmwareImage : List Byte
/-- Free value (log 11): what boundary scan and the unlisted JTAG instructions return (R469); argument: draw number. -/
opaque boundaryScan : Nat → W64

/-- Free value (log 40): the IV of a request with TXN_IV = 1 on a transaction that drew no transaction IV (Table 11.5); argument: the TID. -/
opaque noTxnIv : Nat → BitVec 96

end Sys2Proof.Config
end

