-- ==== Sys2Proof/Machine/State.lean ====
section
/-! DEFINITION. The state of the Uasar 9256 as plain data, block by block, and the state right after module reset. -/

namespace Sys2Proof.Machine

/-! ## Stops -/

/-- Ends of a run that are not a next state and not a refusal. -/
inductive Fault where
  /-- Raised by no command: the manual leaves no behaviour undefined (00_scope). Safe. -/
  | none
deriving DecidableEq, Repr

/-- Commands the model refuses. -/
inductive Refusal where
  /-- Raised by an arm of Dispatch.lean whose command has no meaning yet. Safe: no next state is claimed. -/
  | notModelled (mnemonic : String)
  /-- Raised by SERVICE_OPCODE for an operation whose effect the manual does not publish (R77). Safe: no next state is claimed. -/
  | unpublishedService
deriving DecidableEq, Repr

/-! ## What leaves the module (log 5) -/

/-- One thing the module sends, in the order sent. -/
inductive Out where
  /-- A CXL.io memory write through a port (R42). -/
  | hostWrite (p : PortId) (addr : Nat) (bytes : List Byte)
  /-- An MSI-X message through a port (R51). -/
  | msix (p : PortId) (addr : W64) (data : W32)
  /-- Configuration Request Retry Status, or a normal answer with the values read (R32, R36, R447). -/
  | config (p : PortId) (retry : Bool) (vals : List Nat)
  /-- A CXL.io memory read of n bytes through a port: a submission entry (R42). -/
  | hostRead (p : PortId) (addr : Nat) (n : Nat)
  /-- A DOE or SPDM answer: request kind and bytes (R33, R392). -/
  | doe (p : PortId) (kind : Nat) (bytes : List Byte)
  /-- The answer to a CXL.mem read: data and poison (R62, R64). -/
  | memData (p : PortId) (addr : BitVec 48) (data : Sector) (poison : Bool)
  /-- The completion of a CXL.mem write (R62). -/
  | memDone (p : PortId) (addr : BitVec 48)
  /-- A CXL.cache request: 0 RdShared, 1 RdCurr, 2 ItoMWr, 3 WrInv, with mask and data of a write (R303). -/
  | cacheReq (p : PortId) (kind : Nat) (hpa : Nat) (mask : W64) (data : Sector) (poison : Bool)
  /-- The answer to a host snoop: 0 RspIHitI, 1 RspIHitSE, 2 RspSHitSE (R303). -/
  | snoopRsp (p : PortId) (addr : BitVec 52) (kind : Nat)
  /-- A Huzout frame on a link, its bytes from header to trailer (R143). -/
  | frame (l : Nat) (bytes : List Byte)
  /-- An SMBus answer: command, bytes; no bytes: the target does not acknowledge (R465). -/
  | smbus (cmd : Nat) (bytes : List Byte)
  /-- A VRM bus write or read: PMBus command and data (R424). -/
  | vrm (cmd : Nat) (data : Nat)
  /-- A JTAG data register (R469). -/
  | jtag (value : W64)
  /-- The ALIVE output changes level (R408). -/
  | alive (level : Bool)
  /-- HP_ATTN_N of a port is asserted or released (R453). -/
  | attn (p : PortId) (asserted : Bool)
  /-- What a register read returns (R13). -/
  | regRead (value : W64)
deriving DecidableEq, Repr

/-! ## Host ports (02) -/

/-- One MSI-X table entry with its pending bit (R36, R52). -/
structure Msix where
  addr : W64
  data : W32
  masked : Bool
  pending : Bool
deriving DecidableEq, Repr

/-- An MSI-X entry at reset: masked (PRESUMED from PCIe, log 20). -/
def Msix.init : Msix := ⟨0, 0, true, false⟩

/-- An SPDM session of a port's mailbox (R34, R392). -/
structure Session where
  id : W32
  established : Bool
  alive : Nat
  keyGen : Nat
deriving DecidableEq, Repr

/-- An IDE key of a port (R34): stream kind (Table 2.1), stream, sub-stream, key. -/
structure IdeKey where
  kind : IdeKind
  stream : Byte
  sub : BitVec 4
  key : BitVec 256
deriving DecidableEq, Repr

/-- Port p (Table 2.14, R31-R36, R54-R65, R447). -/
structure Port where
  up : Bool
  perst : Bool
  refclk : Bool
  linkFault : Bool
  viral : Bool
  speed : BitVec 4
  width : BitVec 4
  /-- R65: the 9256 asserts viral on the port. -/
  viralOut : Bool
  /-- R447, R464: the tick by which link training must begin. -/
  trainDue : Option Nat
  /-- R31: link training runs or has ended. -/
  trained : Bool
  /-- R447: configuration requests are answered normally. -/
  answering : Bool
  /-- R447: PERST_N was asserted when phase K ended; goes ready at the first configuration request. -/
  waitCfg : Bool
  /-- VF Enable and NumVFs of the PF (R37). -/
  vfEnable : Bool
  numVfs : W16
  /-- R36: MSI-X entries by 16 × function + vector. -/
  msix : Sp Msix
  /-- R392: versions negotiated: 0 none, 1 version, 2 capabilities, 3 algorithms. -/
  spdm : Nat
  sessions : List Session
  /-- R34: IDE keys held in the HPU. -/
  ideKeys : List IdeKey
  /-- R453: HP_PRSNT_N is low. -/
  prsntLow : Bool
  /-- R453: HP_ATTN_N is asserted. -/
  attn : Bool
deriving DecidableEq, Repr

/-- A port at reset release: reference clock present, PERST_N deasserted, training due within 20 ms (R447, log 6); the module is seated and HP_ATTN_N released (R453). -/
def Port.init : Port :=
  ⟨false, false, true, false, false, 0, 0, false, some 2000000, false, false, false, false, 0, [], 0, [], [], true, false⟩

/-! ## Queue manager (02, 03) -/

/-- A completion that has fallen due and is not written (R44, R47, R58). -/
inductive DueKind where
  /-- The completion of a refused command, or of one that has no entry: status, interim no, TID and results. -/
  | direct (status : Byte) (tid r0 r1 : W32)
  /-- The final completion of the entry at the index (R116). -/
  | finalOf (idx : Nat)
  /-- An interim completion of the entry at the index: PATH_LOST or INDETERMINATE (R93, R133). -/
  | interim (status : Byte) (idx : Nat)
deriving DecidableEq, Repr

structure Due where
  kind : DueKind
  cmdId : W16
  clamped : Bool
  /-- The command it ends, 0 for a completion owed by the restore. -/
  handle : Nat
  /-- R72: posting it returns an admin credit. -/
  credit : Bool
  /-- The tick at which it fell due. -/
  since : Nat
deriving DecidableEq, Repr

/-- A completion posted and not consumed (R47, R56). -/
structure Posted where
  slot : Nat
  bytes : List Byte
  port : Nat
  /-- The entry that consuming it sets CONSUMED in: index and GEN, for a final completion (R47, R93). -/
  entry : Option W32
deriving DecidableEq, Repr

/-- A command fetched whose final completion is not posted (R44, R68). -/
structure Live where
  handle : Nat
  slot : BitVec 12
  cmdId : W16
  tid : W32
deriving DecidableEq, Repr

inductive QState where
  | disabled | running | draining | noPort
deriving DecidableEq, Repr

/-- A queue pair (Tables 2.2-2.4, 2.8). -/
structure Queue where
  enable : Bool
  ports : BitVec 2
  prefPort : Bool
  vector : BitVec 4
  sizeM1 : BitVec 12
  sqBase : W64
  cqBase : W64
  /-- R45: the values last written to the doorbells. -/
  sqTail : BitVec 12
  cqHead : BitVec 12
  countM1 : BitVec 8
  delay : BitVec 10
  sqHead : BitVec 12
  cqTail : BitVec 12
  phase : Bool
  activePort : Bool
  state : QState
  due : List Due
  posted : List Posted
  live : List Live
  /-- R51: completions posted since the last message, and the tick of the oldest. -/
  unsig : Nat
  oldest : Nat
deriving DecidableEq, Repr

/-- A queue pair at reset; VECTOR resets to the queue's own number (Table 2.3). -/
def Queue.init (q : Nat) : Queue :=
  ⟨false, 3, false, BitVec.ofNat 4 q, 0xFF, 0, 0, 0, 0, 0, 0, 0, 0, true, false, .disabled, [], [], [], 0, 0⟩

/-- The complex-wide registers of a function (Table 2.13) and its event bits (Table 2.9). -/
structure Fn where
  expert : Bool
  suspend : Bool
  maxQp : BitVec 4
  tallyLimit : BitVec 21
  clamp : W32
  flrLog : W32
  flrBusy : Bool
  event : BitVec 4
  credits : Nat
deriving DecidableEq, Repr

def Fn.init : Fn := ⟨false, false, 8, 0x1000, 0, 0, false, 0, 0⟩

/-- Where a fetched command stands. -/
inductive CmdStage where
  /-- Passed steps 1-5 of Table 3.2; waits for its own row. -/
  | checked
  /-- A transaction that passed steps 6-8; waits for a Tally entry (step 9). -/
  | alloc
  /-- Holds the entry at the index. -/
  | entry (idx : Nat)
  /-- Its effect runs in another unit; the end of that work completes it. -/
  | running
  /-- An ABORT that waits until the completion of the entry at the index has been written, and its own status (R84). -/
  | aborting (idx : Nat) (status : Nat)
deriving DecidableEq, Repr

structure Cmd where
  handle : Nat
  func : Nat
  q : Nat
  slot : BitVec 12
  pkt : Sector
  stage : CmdStage
  clamped : Bool
deriving DecidableEq, Repr

/-- A host window (Tables 2.11, 2.12). -/
structure HWin where
  valid : Bool
  write : Bool
  read : Bool
  sizeM1 : BitVec 18
  offset : BitVec 18
  hpa : BitVec 31
deriving DecidableEq, Repr

def HWin.init : HWin := ⟨false, false, false, 0, 0, 0⟩

/-- A work record (R196): dispatch word, command bytes 8-63, transaction IV and captured GEN (R334). -/
structure WorkRec where
  word : W64
  pkt : Sector
  iv : BitVec 96
  gen : BitVec 24
  /-- The image handle and entry of a RUN (R197), 256 for the channel library. -/
  image : Nat
  entry : Nat
  /-- R382: a gateway call, with the calling function. -/
  gate : Bool
deriving DecidableEq, Repr

structure Qm where
  fns : Sp Fn
  /-- Queue pairs by 9 × function + q. -/
  queues : Sp Queue
  /-- Host windows by 16 × m + w. -/
  wins : Sp HWin
  cmds : List Cmd
  nextHandle : Nat
  /-- R46: the next position of the round-robin. -/
  rr : Nat
  /-- Work records by Tally index; none: absent (R196, R198). -/
  work : Sp (Option WorkRec)
deriving DecidableEq, Repr

/-! ## The Tally (04) -/

/-- State codes of Table 4.3. -/
inductive TState where
  | free | opened | active | held | committed | complete | aborted
deriving DecidableEq, Repr

/-- A Tally entry (Table 4.2). -/
structure Entry where
  result1 : W32
  result0 : W32
  resent : W16
  nextSeq : W16
  ckptPc : BitVec 15
  ckptSeq : W16
  ckptValid : Bool
  engine : BitVec 7
  linkSel : BitVec 6
  outPend : BitVec 3
  lostMask : BitVec 3
  ackMask : BitVec 3
  reqMask : BitVec 3
  groupC : BitVec 10
  groupB : BitVec 10
  groupA : BitVec 10
  opc : BitVec 3
  prio : BitVec 2
  consumed : Bool
  noted : Bool
  interimSent : Bool
  stale : Bool
  posted : Bool
  cmdId : W16
  slot : BitVec 12
  qpair : BitVec 3
  func : BitVec 9
  state : TState
  gen : BitVec 12
deriving DecidableEq, Repr

/-- The FREE entry that holds generation g (R109). -/
def Entry.free (g : BitVec 12) : Entry :=
  { result1 := 0, result0 := 0, resent := 0, nextSeq := 0, ckptPc := 0, ckptSeq := 0, ckptValid := false,
    engine := 0, linkSel := 0, outPend := 0, lostMask := 0, ackMask := 0, reqMask := 0, groupC := 0, groupB := 0,
    groupA := 0, opc := 0, prio := 0, consumed := false, noted := false, interimSent := false, stale := false,
    posted := false, cmdId := 0, slot := 0, qpair := 0, func := 0, state := .free, gen := g }

/-- A note of the ring (R129): TID, function, commit note or abort note, and whether it is written to the Deck yet. -/
structure Note where
  tid : W32
  func : BitVec 9
  commit : Bool
  written : Bool
  /-- R117: a commit note whose entry became FREE at this tick waits for a checkpoint that began later. -/
  freedAt : Option Nat
  /-- R117, R436: a written abort note that has been freed and waits for the NV stop to end. -/
  gone : Bool
deriving DecidableEq, Repr

inductive ImgKind where
  | full | priority | checkpoint
deriving DecidableEq, Repr

/-- A Deck image (Tables 4.12, 4.13), held as the fields its header and body encode (log 23). -/
structure Image where
  kind : ImgKind
  stale : Bool
  seq : Nat
  stamp : Nat
  secLimit : BitVec 9
  reuseHold : BitVec 14
  ckptPeriod : BitVec 10
  /-- GEN of each index; `base` is that of an index not listed. -/
  base : BitVec 12
  gens : Sp (BitVec 12)
  /-- The entries of the body. -/
  entries : Sp Entry
deriving DecidableEq, Repr

/-- A doubt window (R137): W, N; and whether the index is withheld from allocation. -/
structure Window where
  w : BitVec 12
  n : BitVec 12
  withheld : Bool
deriving DecidableEq, Repr

/-- The doubt table (R137): windows by index, with the default of an index the table does not list given by the base generation. -/
structure Doubt where
  wins : Sp Window
  /-- The window of every unlisted index. -/
  base : Window
  /-- Tick of the latest restore, and of the last report about an in-doubt TID. -/
  since : Nat
  lastReport : Nat
  /-- Path groups that have had a link UP since the latest restore. -/
  groupsSeen : List Nat
deriving DecidableEq, Repr

/-- A restore record (Table 4.16). -/
structure RRec where
  tid : W32
  func : BitVec 9
  kind : Byte
  status : Byte
  r0 : W32
  r1 : W32
deriving DecidableEq, Repr

/-- An in-doubt TID (R133, R134): its required groups, the function it is for, and the latest report code of each group that reported (Table 5.10). -/
structure InDoubt where
  tid : W32
  groups : List Nat
  func : BitVec 9
  reports : List (Nat × Nat)
  /-- Tick from which RESOLVE_WAIT runs, and whether its F0 has been logged. -/
  since : Nat
  logged : Bool
deriving DecidableEq, Repr

/-- An outcome frame unacknowledged (R164) or a question unanswered (R165). -/
structure OutMsg where
  tid : W32
  slot : Nat
  group : BitVec 10
  tenant : BitVec 9
  /-- 8 RESULT, 9 CANCEL, 7 QUERY (Table 5.3). -/
  type : Nat
  link : Nat
  lastSend : Nat
  sent : Bool
  /-- It has been sent before (RESENT, Table 5.4). -/
  again : Bool
deriving DecidableEq, Repr

/-- The last Tally operation of a logical engine (R231). -/
structure LastOp where
  tid : W32
  code : Byte
  a : W64
  b : W64
  out : W64
  st : W64
deriving DecidableEq, Repr

/-- A checkpoint that runs (R126). -/
structure CkptRun where
  toB : Bool
  began : Nat
  /-- Indices below this one have been read. -/
  pos : Nat
  image : Image
deriving DecidableEq, Repr

structure Tally where
  /-- The entries; an unlisted index is FREE at generation `genBase`. -/
  entries : Sp Entry
  genBase : BitVec 12
  /-- Indices that have become FREE since the restore, in order: index, tick at which the reuse hold elapses, hold elapsed (R106, R107). -/
  freed : List (Nat × Nat × Bool)
  /-- Per bank and partition (bank + 64 × secure): the row below which every index has been taken since the restore (log 22). -/
  virgin : Sp Nat
  /-- R107: the bank the rotation takes next. -/
  rotor : Nat
  prioCap : BitVec 18
  resolveWait : BitVec 14
  ckptPeriod : BitVec 10
  reuseHold : BitVec 14
  restore : BitVec 2
  image : BitVec 2
  guard : Bool
  secLimit : BitVec 9
  lateInternal : W32
  entrySel : BitVec 20
  rlog : List RRec
  rlogWait : List RRec
  /-- Banks stopped (Skid, grave stop, warm reset). -/
  stopped : Bool
  ckpt : Option CkptRun
  ckptCount : Nat
  /-- R127: the tick at which the last completed checkpoint began; next due tick (R126). -/
  lastCkpt : Nat
  nextCkpt : Nat
  lastOps : Sp (Option LastOp)
  inDoubt : List InDoubt
  /-- Table 4.7: TIDs without an entry that have been decided: commit (true) or cancel. -/
  decided : List (W32 × Bool)
  /-- R117: abort note due at this tick, by index. -/
  noteDue : Sp Nat
  outMsgs : List OutMsg
  /-- R136: generation a STALE entry takes when it becomes FREE, by index; 0: none. -/
  jumpGen : Sp (BitVec 12)
  /-- Table 4.7: the Deck was blank at the last start-up. -/
  blank : Bool
deriving DecidableEq, Repr

/-! ## The Deck -/

/-- A program image (Table 6.12). -/
structure Img where
  forerunner : Bool
  secure : Bool
  base : BitVec 15
  entries : List Nat
  trapEntry : W16
  words : List (BitVec 14)
  raw : List Byte
deriving DecidableEq, Repr

/-- A fault record (Table 14.3). -/
structure Rec where
  tick : Nat
  index : W32
  source : W16
  kind : Byte
  cls : BitVec 3
  simul : Bool
  inj : Bool
  blaze : Bool
  prior : Bool
  secure : Bool
  tid : W32
  func : BitVec 9
  detail : W64
deriving DecidableEq, Repr

/-- Lifecycle states (R389). -/
inductive Lc where
  | manufacture | provision | field | service | endState
deriving DecidableEq, Repr

/-- A path group (Tables 5.16, 5.17). -/
structure Group where
  valid : Bool
  owner : BitVec 4
  func : BitVec 9
  partner : W16
  s0 : BitVec 9
  s1 : BitVec 9
  s2 : BitVec 9
  s3 : BitVec 9
deriving DecidableEq, Repr

def Group.init : Group := ⟨false, 0, 0x1FF, 0, 0, 0, 0, 0⟩

/-- CH_LINK_CFG (Table 5.14). -/
structure LinkCfg where
  ackTimeout : BitVec 17
  resendLimit : BitVec 4
  replayLimit : BitVec 4
  silence : BitVec 12
  replayTimeout : BitVec 8
  fec : Bool
  enable : Bool
deriving DecidableEq, Repr

def LinkCfg.init : LinkCfg := ⟨0x3E8, 8, 4, 0x12C, 0x1E, false, false⟩

/-- The configuration record (Table 16.4). -/
structure ConfigRec where
  groups : Sp Group
  links : Sp LinkCfg
  moduleId : W16
  frameLife : BitVec 10
  /-- Per function: MAX_QP, TALLY_LIMIT, EXPERT. -/
  fns : Sp (BitVec 4 × BitVec 21 × Bool)
  binds : Sp Nat
  prioCap : BitVec 18
  resolveWait : BitVec 14
  ckptPeriod : BitVec 10
  reuseHold : BitVec 14
  envelope : BitVec 10
  iccMax : BitVec 10
  vctl : W64
  sag : W32
  skidReq : W32
  tjLimit : Byte
  alertMin : BitVec 3
  blazeMin : BitVec 3
  exits : List W32
  wdog : BitVec 10
  cohCtrl : W64
  hoWait : BitVec 10
  debug : BitVec 4
deriving DecidableEq, Repr

/-- TRU_WM (Table 13.9). -/
structure Wm where
  scr : BitVec 5
  pgm : BitVec 5
  tly : BitVec 9
  lnd : W16
deriving DecidableEq, Repr

/-- TRU_BOOT (Table 13.10). -/
structure Boot where
  secGal : BitVec 7
  secCph : BitVec 7
  secEng : BitVec 6
deriving DecidableEq, Repr

/-- The Deck (1.1, 4.12, 16.4): what survives every reset. -/
structure Deck where
  skid : Option Image
  ckptA : Option Image
  ckptB : Option Image
  seq : Nat
  notes : List Note
  doubt : Option Doubt
  images : Sp (Option Img)
  /-- Load order of the user images (M6). -/
  order : List Nat
  secImage : Option Img
  patch : Option (List Byte)
  /-- R449: of the two configuration records the valid one with the higher sequence number, that number, and the other record. -/
  config : Option ConfigRec
  configSeq : Nat
  configOld : Option ConfigRec
  lc : Lc
  lcNext : Option Lc
  fuse : Bool
  ownerKey : Option (List Byte)
  epoch : W32
  wmNext : Wm
  bootNext : Boot
  holdCap : BitVec 20
  blaze : Option Rec
deriving DecidableEq, Repr

def Deck.blank : Deck :=
  { skid := none, ckptA := none, ckptB := none, seq := 0, notes := [], doubt := none, images := [], order := [],
    secImage := none, patch := none, config := none, configSeq := 0, configOld := none, lc := .manufacture, lcNext := none, fuse := false,
    ownerKey := none, epoch := 0, wmNext := ⟨0, 0, 0, 0⟩, bootNext := ⟨0, 0, 0⟩, holdCap := 0, blaze := none }

/-- The Deck records that a write during the NV stop reaches only when the stop ends (R436). -/
structure NvRec where
  lcNext : Option Lc
  wmNext : Wm
  bootNext : Boot
  ownerKey : Option (List Byte)
  patch : Option (List Byte)
  blaze : Option Rec
deriving DecidableEq, Repr

def Deck.nv (d : Deck) : NvRec := ⟨d.lcNext, d.wmNext, d.bootNext, d.ownerKey, d.patch, d.blaze⟩

/-! ## The channel subsystem (05) -/

inductive LState where
  | disabled | training | probing | up | down
deriving DecidableEq, Repr

/-- A sequenced frame sent and not passed by NEXT_RX_LSEQ (R152). -/
structure SentFrame where
  f : Frame
  since : Nat
  /-- R169: the tick at which the frame was first built. -/
  built : Nat
deriving DecidableEq, Repr

/-- A frame that waits on a link, and the tick at which it was first built (R169). -/
structure Queued where
  f : Frame
  built : Nat
deriving DecidableEq, Repr

/-- Link n (Tables 5.12-5.15, R148-R152). -/
structure Link where
  cfg : LinkCfg
  state : LState
  downCause : BitVec 4
  miswire : Bool
  blockLock : Bool
  fecLock : Bool
  seen : W16
  /-- Counters of Table 5.12 by their number. -/
  cnt : Sp W32
  gotReply : Bool
  sentReply : Bool
  entered : Nat
  lastRx : Nat
  lastProbe : Nat
  lastReport : Nat
  /-- R152: a sequenced frame was accepted at this tick and not reported. -/
  unreported : Option Nat
  nakSent : Option Nat
  txLseq : BitVec 10
  ackLseq : BitVec 10
  rxLseq : BitVec 10
  /-- Limits received from the partner, credits consumed, limits advertised at last report, units received. -/
  dataLimit : W16
  ctrlLimit : W16
  dataUsed : W16
  ctrlUsed : W16
  advData : W16
  advCtrl : W16
  rxData : W16
  rxCtrl : W16
  replays : Nat
  sent : List SentFrame
  dataQ : List Queued
  ctrlQ : List Queued
  epoch : W32
  rxOther : Bool
  f0At : Option Nat
deriving DecidableEq, Repr

def Link.init : Link :=
  { cfg := LinkCfg.init, state := .disabled, downCause := 0, miswire := false, blockLock := false, fecLock := false,
    seen := 0, cnt := [], gotReply := false, sentReply := false, entered := 0, lastRx := 0, lastProbe := 0,
    lastReport := 0, unreported := none, nakSent := none, txLseq := 0, ackLseq := 0, rxLseq := 0, dataLimit := 0,
    ctrlLimit := 0, dataUsed := 0, ctrlUsed := 0, advData := 0, advCtrl := 0, rxData := 0, rxCtrl := 0, replays := 0,
    sent := [], dataQ := [], ctrlQ := [], epoch := 0, rxOther := false, f0At := none }

/-- A DATA frame kept until its ACK (R152, R169). -/
structure Stored where
  f : Frame
  built : Nat
  /-- R162: it has been handed to a link. -/
  sent : Bool
  /-- R158: the tick of its latest sending. -/
  since : Nat
deriving DecidableEq, Repr

/-- What CH keeps of a TID and one of its groups (R152-R162, R201). -/
structure Flow where
  tid : W32
  stored : List Stored
  resends : Nat
  stopped : Bool
  /-- Why CH stopped: 2 the timeout of R158 or R169, 3 a refusal with the partner's reason (R159), 0 not stopped; the events of Table 6.6. -/
  stopKind : Nat
  pausedTo : Option Nat
  /-- R158: ACK_TIMEOUT in µs. -/
  timeout : Nat
  descSent : Bool
  expectReply : Bool
  /-- Reply side: next expected SEQ, LAST accepted, buffer address and size, bytes received. -/
  rxNext : W16
  rxLast : Bool
  buf : Option (Nat × Nat)
  rxBytes : Nat
  /-- Outbound SEQs below this one have been handed to CH since the entry became ACTIVE (R259). -/
  txNext : Nat
deriving DecidableEq, Repr

def Flow.init : Flow :=
  { tid := 0, stored := [], resends := 0, stopped := false, stopKind := 0, pausedTo := none, timeout := 0,
    descSent := false, expectReply := false, rxNext := 1, rxLast := false, buf := none, rxBytes := 0, txNext := 0 }

structure Ch where
  links : Sp Link
  groups : Sp Group
  lref : BitVec 16
  frameLife : BitVec 10
  moduleId : W16
  /-- By 4 × index + slot. -/
  flows : Sp Flow
  /-- Answers to questions whose link was lost while their group had no other link UP (R162, R165). -/
  replies : List Queued
  lastIdle : Nat
deriving DecidableEq, Repr

/-! ## Engines (06, 07, 08) -/

/-- The result ports (Table 6.2). -/
inductive RPort where
  | alu | mul | fadd | fmul | fcmp | fcvt | lsu
deriving DecidableEq, Repr

/-- A result in flight (R185, R186): steps left, port, value, flag bits to change (mask and values of window 0). -/
structure InFlight where
  due : Nat
  port : RPort
  val : W64
  mask : W32
  bits : W32
  /-- A load whose data has not arrived: its address and size. -/
  wait : Option (Nat × Nat)
deriving DecidableEq, Repr

/-- Operand latches (Table 6.1). -/
structure Latches where
  aluA : W64
  mulA : W64
  fpA : W64
  louA : W64
  louB : W64
  brCond : BitVec 13
  lsuAddr : BitVec 48
  lsuAuto : Bool
deriving DecidableEq, Repr

def Latches.init : Latches := ⟨0, 0, 0, 0, 0, 0, 0, false⟩

/-- Result ports (Table 6.1). -/
structure Ports where
  alu : W64
  mul : W64
  fadd : W64
  fmul : W64
  fcmp : W64
  fcvt : W64
  lsu : W64
  lou0 : W64
  lou1 : W64
deriving DecidableEq, Repr

def Ports.init : Ports := ⟨0, 0, 0, 0, 0, 0, 0, 0, 0⟩

/-- Trap state (Table 6.1). -/
structure TrapRegs where
  vec : BitVec 15
  etpc : BitVec 15
  erpc1 : BitVec 15
  erpc2 : BitVec 15
  ecause : Byte
  ercnt : W16
deriving DecidableEq, Repr

def TrapRegs.init : TrapRegs := ⟨0, 0, 0, 0, 0, 0⟩

/-- What a branch in flight does when it falls due (R189, R204). -/
inductive Target where
  | to (a : BitVec 15)
  | eret
deriving DecidableEq, Repr

/-- A long operation in flight (R226): code, operands, FPCTL; `admitted`: its Tally request has been answered and waits for the sequencer (R227, R231). -/
structure LongOp where
  code : Byte
  badArg : Bool
  a : W64
  b : W64
  fpctl : W32
  started : Nat
  admitted : Bool
  /-- Begun by a trap handler that has ended: its result is not shown to the program (R203, R204). -/
  hidden : Bool
deriving DecidableEq, Repr

/-- A store not yet performed or acknowledged (R308, R314). -/
structure Store where
  addr : Nat
  size : Nat
  val : W64
  issued : Nat
  performed : Bool
deriving DecidableEq, Repr

/-- What a trap saves (R203). -/
structure TrapSave where
  lat : Latches
  ports : Ports
  ldone : Bool
  lfail : Bool
deriving DecidableEq, Repr

/-- What a GATE saves (R211). -/
structure GateSave where
  g : Sp W64
  bits : BitVec 4096
  bwin : BitVec 7
  fpctl : W32
  trap : TrapRegs
  lat : Latches
  ports : Ports
  tsave : Option TrapSave
  intrap : Bool
  pc : BitVec 15
  p0 : Option Target
  p1 : Option Target
  fore : Bool
  rep : Option (Nat × Nat)
  micro : Option (W64 × W64)
deriving DecidableEq, Repr

/-- The sources of events, each with an entry of its own in every event queue (R26, R199). -/
inductive EvSrc where
  | ch | gal | cph | tly
deriving DecidableEq, Repr

/-- A channel request submitted and not yet taken by CH (R200, R201), with the world and the right to name staging storage that it was made with. -/
structure ChReq where
  tid : W32
  addr : W64
  ctl : W64
  func : Nat
  secure : Bool
  lib : Bool
deriving DecidableEq, Repr

/-- A request of an engine, a command or the library to a coder or a cipher group (Tables 12.7, 11.5, 3.7). -/
structure SvcReq where
  /-- 0 compress / seal, 1 expand / unseal, 2 raw encrypt, 3 raw decrypt. -/
  op : Nat
  src : Nat
  dst : Nat
  res : Nat
  aad : Nat
  aadLen : Nat
  len : Nat
  ratio : Nat
  stream : Bool
  slot : Nat
  expGen : BitVec 24
  iv : BitVec 96
  /-- 0 supplied IV, 1 generated, 2 transaction IV. -/
  ivKind : Nat
  tag : W16
  func : Nat
  secure : Bool
  /-- The engine that waits for the SVC event (its TID), or the command handle. -/
  engine : Option Nat
  tid : W32
  handle : Nat
deriving DecidableEq, Repr

/-- Logical engine state (Tables 6.1, 6.2; R171-R212, R226-R247). -/
structure Eng where
  g : Sp W64
  pc : BitVec 15
  limm : W64
  immx : Bool
  lat : Latches
  ports : Ports
  bits : BitVec 4096
  bwin : BitVec 7
  brLink : BitVec 15
  trap : TrapRegs
  fpctl : W32
  flight : List InFlight
  p0 : Option Target
  p1 : Option Target
  /-- Repetitions left of the word at PC and the count latched (R190). -/
  rep : Option (Nat × Nat)
  work : W64
  tid : W32
  steps : W64
  stepSeq : W16
  running : Bool
  freeze : Option (Nat × Nat)
  evq : List W64
  /-- The source of each event of the queue, in its order, and events whose source waits for room (R26, R199). -/
  evBy : List EvSrc
  evWait : List (EvSrc × W64)
  /-- LOST or ABORTED was posted for the TID (R202). -/
  ended : Bool
  rqCh : Option W64
  rqGal : List W64
  rqCph : List W64
  chQ : List ChReq
  galQ : List SvcReq
  cphQ : List SvcReq
  tsave : Option TrapSave
  gsave : Option GateSave
  lou : Option LongOp
  micro : Option (W64 × W64)
  uregs : Sp W64
  ucnt : W16
  uflags : BitVec 4
  ustack : List (BitVec 12)
  stores : List Store
  /-- A barrier: BAR.DONE (true) or BAR.ORDER, the tick of its step, a store abandoned under it. -/
  barrier : Option (Bool × Nat)
  barErr : Bool
  /-- DONE was written at this word (R202). -/
  doneAt : Option (BitVec 15 × Nat)
  fore : Bool
  image : Nat
  /-- The next word must be ENTRY: a dispatch or gate target (R197, R205). -/
  mustEntry : Bool
deriving DecidableEq, Repr

/-- The bit space at reset (Table 6.7): ONE, the three queue-free bits and LDONE. -/
def bitsReset : BitVec 4096 := 0x80003820#4096

def Eng.init : Eng :=
  { g := [], pc := 0, limm := 0, immx := false, lat := Latches.init, ports := Ports.init, bits := bitsReset, bwin := 0,
    brLink := 0, trap := TrapRegs.init, fpctl := 0, flight := [], p0 := none, p1 := none, rep := none,
    work := 0, tid := 0, steps := 0, stepSeq := 0, running := false, freeze := none, evq := [], evBy := [], evWait := [], ended := false,
    rqCh := none, rqGal := [], rqCph := [], chQ := [], galQ := [], cphQ := [], tsave := none, gsave := none, lou := none,
    micro := none, uregs := [], ucnt := 0, uflags := 0, ustack := [], stores := [], barrier := none, barErr := false,
    doneAt := none, fore := false, image := 256, mustEntry := false }

/-- Roles of a physical engine (Table 6.14). -/
inductive Role where
  | active | spare | retired
deriving DecidableEq, Repr

/-- A transport in an engine's output stage (R247): STEPSEQ, receiving queue, address and payload; the queue has accepted it, but its acknowledgement has not reached the proof lane's copy; a takeover has driven it again (R252). -/
structure Transport where
  seq : W16
  queue : RecvQueue
  addr : W64
  payload : W64
  accepted : Bool
  again : Bool
deriving DecidableEq, Repr

/-- Physical engine state (Tables 6.13-6.15, 8.4-8.7). -/
structure Pe where
  role : Role
  /-- The logical engine bound to it; 128: none, shown as 0x7F (Table 6.14). -/
  logical : Nat
  barErrAddr : W64
  trapLog : W64
  /-- Counters: 0-6 of Table 6.13, 16-20 of Table 8.5. -/
  cnt : Sp W64
  lead : Bool
  laneA : BitVec 2
  laneB : BitVec 2
  repairs : BitVec 4
  retryNow : BitVec 3
  stepSeq : W16
  dupLog : W64
  stage : List Transport
  /-- A lane test runs on this lane (true: B); a migration from this engine to the spare runs. -/
  testing : Option Bool
  migrating : Bool
  /-- The mismatch is persistent and waits for the referee (R248, R250). -/
  persistent : Bool
  /-- R254 second fault, R251 lane decided faulty. -/
  decided : BitVec 2
  /-- The lane decided faulty, of the latest decision of one lane (Table 8.7). -/
  badLane : Bool
  /-- The spare serves it as referee (R250). -/
  referee : Bool
  /-- The patch word of its LOU that failed its check and is being rewritten (R234). -/
  louBad : Option MicroPlace
  /-- A dirty sector of its logical engine failed its check: the engine retires before its next row (R268, R271). -/
  parityDue : Bool
deriving DecidableEq, Repr

/-- PE n at reset (R15, R16). -/
def Pe.init (n : Nat) : Pe :=
  { role := if n % 9 = 8 then .spare else .active, logical := if n % 9 = 8 then 128 else 8 * (n / 9) + n % 9,
    barErrAddr := 0, trapLog := 0, cnt := [], lead := false, laneA := 0, laneB := 0, repairs := 0, retryNow := 0,
    stepSeq := 0, dupLog := 0, stage := [], testing := none, migrating := false, persistent := false, decided := 0, badLane := false, referee := false, louBad := none,
    parityDue := false }

/-- Cluster registers of the ENG window (Tables 6.16, 8.8). -/
structure EngCl where
  qwait : BitVec 14
  repairLimit : BitVec 4
  retryLimit : BitVec 3
  dupDrop : W64
  /-- Inverted bits of program words stored in the cluster, by address (R177). -/
  badProg : Sp W16
deriving DecidableEq, Repr

def EngCl.init : EngCl := ⟨0x64, 2, 3, 0, []⟩

structure EngArr where
  les : Sp Eng
  pes : Sp Pe
  cls : Sp EngCl
  /-- Program memory (R207): words that differ from the default (3FFE, or the library). -/
  prog : Sp (BitVec 14)
  patchId : W16
  /-- The hooks of the installed patch: ROM microword and patch microword (R241, Table 7.16). -/
  hooks : List (BitVec 12 × BitVec 12)
  /-- Dispatch overrides of the installed patch, by entry (R237, R241). -/
  disp : Sp (Option W16)
  /-- Patch RAM of every LOU with its check bits: microwords by address (R233), nanowords by index. -/
  ustore : Sp (BitVec 22)
  nstore : Sp (BitVec 104)
  /-- R253: the STEPSEQ last accepted, by 8 × engine + queue; none: no transport accepted yet. -/
  lastSeq : Sp (Option W16)
  /-- Binding of each logical engine: slot 0-8 or 0xF, by engine; default its own slot. -/
  bind : Sp Nat
  /-- R381, R386: the secure image whose words stand in the program memories. -/
  secImg : Option Img
deriving DecidableEq, Repr

/-! ## Memory (09) -/

/-- L1 sector states (R264): invalid, clean, dirty; `par` marks a byte whose parity an injection inverted. -/
structure L1Sec where
  st : BitVec 2
  data : Sector
  poison : Bool
  par : Bool
deriving DecidableEq, Repr

def L1Sec.init : L1Sec := ⟨0, 0, false, false⟩

/-- A block of the L1 or the victim cache: its address bits 47:8 and four sectors (R263). -/
structure L1Blk where
  blk : Nat
  s0 : L1Sec
  s1 : L1Sec
  s2 : L1Sec
  s3 : L1Sec
deriving DecidableEq, Repr

/-- One L1 (R263-R265): blocks by 4 × set + way, pseudo-LRU bits by set, victim cache newest first, control, counters. -/
structure L1 where
  blks : Sp (Option L1Blk)
  plru : Sp (BitVec 3)
  vc : List L1Blk
  enable : Bool
  state : BitVec 2
  cnt : Sp W32
deriving DecidableEq, Repr

def L1.init : L1 := ⟨[], [], [], true, 1, []⟩

/-- L2 sector states (Table 10.1). -/
inductive CState where
  | I | S | E | O | M
deriving DecidableEq, Repr

structure L2Sec where
  st : CState
  data : Sector
  poison : Bool
  writers : BitVec 8
  /-- Check bits inverted by an injection and not yet found: 0, 1 or 2 (Table 14.6). -/
  bad : Nat
  /-- Host address of a host-memory copy, 0 for a Landing sector: a copy serves only accesses that translate to it (log 18). -/
  hpa : Nat
  /-- The port through which a host-memory copy was obtained (R57); 2 for a Landing sector. -/
  port : Nat
deriving DecidableEq, Repr

def L2Sec.init : L2Sec := ⟨.I, 0, false, 0, 0, 0, 2⟩

/-- An L2 block: address bits 47:7 and two sectors; `used` orders recency (R273). -/
structure L2Blk where
  blk : Nat
  s0 : L2Sec
  s1 : L2Sec
  used : Nat
deriving DecidableEq, Repr

/-- A range operation that runs (R275). -/
structure Maint where
  op : Nat
  base : Nat
  count : Nat
  /-- Started by the secure world: its events are not counted (R293). -/
  secure : Bool
deriving DecidableEq, Repr

/-- A background bank test that runs (R415, R416): bank, spare (none: in place), phase 1-3, failed, requested by a command. -/
structure BankTest where
  bank : Nat
  spare : Option Nat
  phase : BitVec 3
  failed : Bool
  handle : Option Nat
deriving DecidableEq, Repr

/-- Cluster memory (Tables 9.5, 9.7-9.13). -/
structure MemCl where
  /-- L1 by slot. -/
  l1 : Sp L1
  /-- L2 blocks by 16 × set + way. -/
  l2 : Sp (Option L2Blk)
  clock : Nat
  l2Enable : Bool
  l2State : BitVec 2
  lock : W16
  waymask : Sp W16
  cnt : Sp W32
  maintBase : BitVec 42
  maintLen : BitVec 30
  maintStatus : Byte
  maintSeq : BitVec 24
  maintVal : W32
  maint : Option Maint
  /-- Bank states: 0 ON, 1 RETAIN, 2 OFF (R285). -/
  bank : Sp (BitVec 2)
  /-- Banks failed until module reset (R417). -/
  bankBad : List Nat
  /-- A bank whose addresses are served by another (R286): bank, spare. -/
  remap : Sp Nat
  /-- BANK_STATE that waits: bank, new state, command. -/
  bankWait : List (Nat × BitVec 2 × Nat)
  test : Option BankTest
  engTest : Option (Option Nat)
  nextBank : Nat
  lastBank : Nat
  lastEng : Nat
  /-- The latest remap of a bank's addresses: bank and tick (R416). -/
  remapAt : Option (Nat × Nat)
deriving DecidableEq, Repr

def MemCl.init : MemCl :=
  { l1 := [], l2 := [], clock := 0, l2Enable := true, l2State := 1, lock := 0, waymask := [], cnt := [], maintBase := 0,
    maintLen := 0, maintStatus := 4, maintSeq := 0, maintVal := 0, maint := none, bank := [], bankBad := [], remap := [],
    bankWait := [], test := none, engTest := none, nextBank := 0, lastBank := 0, lastEng := 0, remapAt := none }

/-- The Landing controller (Tables 9.6, 9.14, 9.15). -/
structure Lnd where
  scrubEn : Bool
  scrubPeriod : Byte
  init : BitVec 2
  stackOk : BitVec 4
  watermark : W16
  corr : W32
  uncorr : W32
  scrubFix : W32
  errAddr : W64
  scrubPos : Nat
deriving DecidableEq, Repr

/-! ## Coherence (10) -/

inductive ReqKind where
  | rdS | rdX | upg | rdNc | wrInv
deriving DecidableEq, Repr

/-- A request a requester wants served (R295, R296, R302). -/
structure CReq where
  r : Nat
  kind : ReqKind
  a : Nat
  mask : W64
  data : Sector
  poison : Bool
  /-- The logical engine it serves, if any. -/
  engine : Option Nat
  /-- The bus address of a CXL.mem request. -/
  addr : Nat
  /-- 0 not sent, 1 RETRY without ticket on its way, 2 RETRY with ticket on its way, 3 holds a ticket, 4 sent again after a refusal not before `after`. -/
  retry : Nat
  after : Nat
  admitted : Bool
  secure : Bool
  /-- Host address of a host-memory sector's bytes (R60). -/
  hpa : Nat
deriving DecidableEq, Repr

/-- A snoop of a transaction (R302): L2, kind, answered, data sent, poison flag. -/
structure Snp where
  c : Nat
  kind : Nat
  /-- 0 sent, 1 answered by the L2, 2 response at the home. -/
  stage : Nat
  dataSent : Bool
  evict : Bool
deriving DecidableEq, Repr

/-- A transaction at a home (R296, R302). -/
structure Txn where
  req : CReq
  active : Bool
  snps : List Snp
  data : Option (Sector × Bool)
  /-- DATA delivered to the requester. -/
  dataGiven : Bool
  /-- The grant: 0 none yet, 1 S, 2 E, 3 M, 4 completion. -/
  grant : Nat
  granted : Bool
  /-- Waiting for the host's answer (R303). -/
  hostWait : Bool
  port : Nat
  since : Nat
  /-- Its number at the home. -/
  id : Nat
  /-- It stands in its requester's reserved entry (R295, R296). -/
  resv : Bool
deriving DecidableEq, Repr

/-- An eviction in a home's buffer or on its way (R301). -/
structure Evict where
  c : Nat
  a : Nat
  data : Sector
  poison : Bool
  /-- In the home's buffer (EV_DATA taken). -/
  taken : Bool
deriving DecidableEq, Repr

structure Home where
  txns : List Txn
  tickets : List Nat
  evs : List Evict
  cnt : Sp W32
  toLog : W64
  /-- Number of the next transaction. -/
  next : Nat
deriving DecidableEq, Repr

def Home.init : Home := ⟨[], [], [], [], 0, 0⟩

structure Coh where
  endpointTo : BitVec 10
  homeTo : BitVec 10
  devEaOk : Bool
  hostPort : Bool
  eaBase : Sp W64
  eaLimit : Sp W64
  homes : Sp Home
  /-- Requests not yet admitted, in the order sent. -/
  reqs : List CReq
deriving DecidableEq, Repr

/-! ## Cipher bank and galley coders (11, 12) -/

/-- A key slot (Table 11.2). H_PART is a function of KEY (R324), so it is not held twice. -/
structure KeySlot where
  type : BitVec 2
  key : BitVec 256
  gen : BitVec 24
  invoc : BitVec 40
  /-- Check bits inverted by an injection and not yet found (Table 14.6). -/
  bad : Nat
deriving DecidableEq, Repr

def KeySlot.init : KeySlot := ⟨0, 0, 0, 0, 0⟩

/-- A running operation of a group or coder. -/
structure RunOp where
  req : SvcReq
  key : KeySlot
  /-- Held grant. -/
  granted : Bool
  /-- Bytes written so far: (address, length) ranges, scrubbed on failure (R340, R363). -/
  written : List (Nat × Nat)
  /-- The status decided, with its result words and INDEX, waiting for the scrub. -/
  fail : Option (Byte × W32 × W32)
  /-- A disputed block and its confirmation (R357, R358): blocks confirmed, with the result. -/
  confirmed : List (Nat × Bool)
deriving DecidableEq, Repr

/-- A cipher group (Table 11.10) or a coder (Table 12.13). -/
structure Svc where
  queue : List SvcReq
  run : Option RunOp
  retired : Bool
  /-- Slices in service (cipher groups). -/
  slices : W16
  /-- Disagreements per slice, or of the coder at key 0. -/
  faults : Sp Nat
  cnt : Sp W64
deriving DecidableEq, Repr

def Svc.init : Svc := ⟨[], none, false, 0xFFFF, [], []⟩

structure Cph where
  limit : BitVec 4
  slots : Sp KeySlot
  grps : Sp Svc
deriving DecidableEq, Repr

structure Gal where
  limit : BitVec 4
  coders : Sp Svc
deriving DecidableEq, Repr

/-! ## Trust, faults, power, start-up (13-17) -/

/-- A hand-over (R378, R379). -/
structure HandOver where
  d : W16
  /-- 0 request waiting for the secure world, 1 agreed. -/
  agreed : Bool
  release : Bool
  handle : Nat
  since : Nat
deriving DecidableEq, Repr

structure Tru where
  secState : BitVec 2
  restarts : W16
  token : List Byte
  /-- TRU_OWNER_KEY, as far as it has been written (R389). -/
  keyBuf : List Byte
  wm : Wm
  boot : Boot
  hoWait : BitVec 10
  pending : List HandOver
  /-- Blocks owned by the secure world, by designator (Table 13.2). -/
  sec : Sp Bool
  gates : BitVec 13
  wdogEn : Bool
  wdogPeriod : BitVec 14
  wdogKick : Nat
  secTrap : W64
  debug : BitVec 4
  /-- M0-M31, 48 bytes each as 384-bit values, byte 0 lowest. -/
  meas : Sp (BitVec 384)
  measExt : List Byte
deriving DecidableEq, Repr

/-- An armed injection (R410-R412): unit, mask, command (none: FLT_INJ_GO), tick. -/
structure Inj where
  unit : W16
  mask : W32
  handle : Option Nat
  since : Nat
  /-- R412: the fault the inversion will produce has been produced. -/
  fired : Bool
  /-- INDEX of the record of that fault, while the completion waits for the MP (R412). -/
  index : W32
  /-- SEQ of the FLT_INJ_GO that armed it (R98, R413). -/
  seq : BitVec 24
deriving DecidableEq, Repr

structure Flt where
  blazeMin : BitVec 3
  alertMin : BitVec 3
  hold : BitVec 3
  quiet : Sp (BitVec 12)
  wdogPeriod : BitVec 10
  /-- Outstanding classes F1-F4 in bits 0-3. -/
  outst : BitVec 4
  lastRep : Sp Nat
  log : List Rec
  next : W32
  lost : W32
  classCount : Sp W64
  blaze : Option Rec
  /-- The collection window: its tick and the blaze before it (R399). -/
  winTick : Option Nat
  winBlaze : Option Rec
  /-- Records of the window, the last of the log. -/
  winLen : Nat
  recov : Sp W16
  grave : Bool
  aliveOn : Bool
  alive : Bool
  aliveAt : Nat
  inj : List Inj
  injTarget : W16
  injMask : W32
  injStatus : Byte
  injSeq : BitVec 24
  injVal : W32
  bgEn : Bool
  bgPattern : Bool
  engInterval : BitVec 10
  bankInterval : BitVec 10
  bgSeed : W64
  bgPass : W64
  bgFail : W64
  /-- Full self-tests that run: unit, command. -/
  selftests : List (W16 × Nat)
  smbPtr : W32
  jtag : Byte
deriving DecidableEq, Repr

/-- The management processor (R71-R74, R409). -/
structure Mp where
  /-- Table 14.12: 0 running, 1 starting or restarting, 2 halted. -/
  run : BitVec 2
  restartAt : Nat
  kick : Nat
  /-- An IMAGE_LOAD that writes: handle, image, command (R208). -/
  load : Option (Nat × Img × Nat)
  /-- What that load has emptied: handles, images and bindings; and the order of loads before it (R74, R208). -/
  undo : List (Nat × Img × Nat)
  undoOrder : List Nat
  /-- Configuration changed and not yet written to the Deck (R449). -/
  cfgDirty : Bool
  binds : Sp Nat
deriving DecidableEq, Repr

/-- A grant in force or waiting (R427, R428). -/
structure Grant where
  cls : Nat
  amps : Nat
  who : Nat
deriving DecidableEq, Repr

structure Pwr where
  envelope : BitVec 10
  iccMax : BitVec 10
  idleA : BitVec 10
  pool : BitVec 10
  grants : List Grant
  waiting : List Grant
  waited : Sp W64
  d : BitVec 10
  i : BitVec 10
  overrun : Bool
  paceTarget : BitVec 10
  vmax : BitVec 12
  vmin : BitVec 12
  vset : BitVec 12
  pace : Bool
  vrmAddr : BitVec 7
  vrmErr : Bool
  /-- R425: the regulator was silent or not linear at start-up; the PWR writes nothing further. -/
  vrmDead : Bool
  statusWord : W16
  vout : BitVec 12
  target : BitVec 12
  paceNow : BitVec 10
  tjLimit : Byte
  tj : Byte
  throttle : Bool
  thermN : Bool
  sagSkid : BitVec 10
  sagStop : BitVec 10
  mainSense : BitVec 10
  stop : Bool
  /-- What the Deck holds of these records while that stop is in force (R436). -/
  nv : Option NvRec
  prioReq : BitVec 12
  fullReq : BitVec 12
  holdCap : BitVec 20
  vHold : W16
  /-- C_EFF, E and LEVEL as PWR_HOLD_STATUS shows them (R437). -/
  cEff : BitVec 20
  energy : W16
  level : BitVec 2
  cMeas : BitVec 20
  cValid : Bool
  holdPeriod : BitVec 5
  /-- PWR_HOLD_CHECK.GO: a check requested by a write runs or is put off (Tables 0.2, 15.5). -/
  checkGo : Bool
  /-- A hold-up check: tick of its start and the first reading. -/
  check : Option (Nat × W16)
  checkDue : Nat
  /-- The keep domain runs on the store (R439). -/
  keep : Bool
deriving DecidableEq, Repr

/-- Why an image is being written to the Skid area (R128, R404, R444, R454). -/
inductive SkidWhy where
  | sag | grave | warm | quiesce
deriving DecidableEq, Repr

/-- Start-up, reset and hot plug (16). -/
structure Start where
  /-- Held in reset or unpowered (R445, R441). -/
  off : Bool
  phase : BitVec 3
  cause : BitVec 3
  readyTicks : BitVec 26
  done : List Phase
  quiesce : Bool
  ready : Bool
  quiesceWait : BitVec 10
  quiesceAt : Nat
  skidDone : Bool
  /-- The image that is being written, with its cause; none as image: header only. -/
  writing : Option (SkidWhy × Option Image)
  warm : Bool
  /-- Phase H has loaded an image (R446). -/
  loaded : Bool
  /-- The module reset that waits for a port reference clock, by its cause (R28, R445). -/
  held : Option (BitVec 3)
deriving DecidableEq, Repr

/-- The state of the module. -/
structure State where
  /-- TICKs since module reset (R5). -/
  tick : Nat
  ports : Sp Port
  qm : Qm
  tly : Tally
  deck : Deck
  ch : Ch
  eng : EngArr
  mem : Sp MemCl
  /-- Landing and scratch bytes by engine address (canonical form of Table 6.8). -/
  bytes : List Host.Cell
  /-- Poisoned Landing sectors, and poisoned scratch words, by address. -/
  poison : Sp Bool
  /-- Landing sectors and scratch words whose check bits an injection inverted and no access has found: symbols or bits, by address (Table 14.6). -/
  ecc : Sp Nat
  lnd : Lnd
  coh : Coh
  cph : Cph
  gal : Gal
  tru : Tru
  flt : Flt
  mp : Mp
  pwr : Pwr
  start : Start
  /-- Free values drawn (the model's own field, log 10). -/
  fresh : Nat
  /-- What has left the module, oldest first (the model's own field, log 5). -/
  out : List Out
  /-- The commands waiting, first in first out (the model's own field). -/
  pending : List Instr
deriving DecidableEq, Repr

/-- The machine right after a module reset with a blank Deck: reset released, cause power-on, start-up phase B running (log 6). -/
def State.reset : State :=
  { tick := 0
    ports := []
    qm := { fns := [], queues := [], wins := [], cmds := [], nextHandle := 1, rr := 0, work := [] }
    tly :=
      { entries := [], genBase := 1, freed := [], virgin := [], rotor := 0, prioCap := 0x20000, resolveWait := 0x64, ckptPeriod := 0xA,
        reuseHold := 0xFA, restore := 0, image := 0, guard := false, secLimit := 0, lateInternal := 0, entrySel := 0,
        rlog := [], rlogWait := [], stopped := false, ckpt := none, ckptCount := 0, lastCkpt := 0, nextCkpt := 0,
        lastOps := [], inDoubt := [], decided := [], noteDue := [], outMsgs := [], jumpGen := [], blank := true }
    deck := Deck.blank
    ch := { links := [], groups := [], lref := 0xFFFF, frameLife := 0x64, moduleId := 0, flows := [], replies := [], lastIdle := 0 }
    eng := { les := [], pes := [], cls := [], prog := [], patchId := 0, hooks := [], disp := [], ustore := [], nstore := [], lastSeq := [], bind := [], secImg := none }
    mem := []
    bytes := []
    poison := []
    ecc := []
    lnd := ⟨true, 0x18, 0, 0, 0, 0, 0, 0, 0, 0⟩
    coh := ⟨0x32, 0x14, false, false, [], [], [], []⟩
    cph := ⟨2, [], []⟩
    gal := ⟨2, []⟩
    tru :=
      { secState := 0, restarts := 0, token := [], keyBuf := [], wm := ⟨0, 0, 0, 0⟩, boot := ⟨0, 0, 0⟩, hoWait := 0xA, pending := [],
        sec := [], gates := 0, wdogEn := false, wdogPeriod := 0x3E8, wdogKick := 0, secTrap := 0, debug := 0, meas := [],
        measExt := [] }
    flt :=
      { blazeMin := 2, alertMin := 2, hold := 0, quiet := [], wdogPeriod := 0x64, outst := 0, lastRep := [], log := [],
        next := 1, lost := 0, classCount := [], blaze := none, winTick := none, winBlaze := none, winLen := 0, recov := [],
        grave := false, aliveOn := false, alive := false, aliveAt := 0, inj := [], injTarget := 0, injMask := 0,
        injStatus := 4, injSeq := 0, injVal := 0, bgEn := true, bgPattern := false, engInterval := 0x258,
        bankInterval := 0x3C, bgSeed := 1, bgPass := 0, bgFail := 0, selftests := [], smbPtr := 0, jtag := 0 }
    mp := ⟨1, 0, 0, none, [], [], false, []⟩
    pwr :=
      { envelope := 0x258, iccMax := 0x280, idleA := 0, pool := 0, grants := [], waiting := [], waited := [], d := 0,
        i := 0, overrun := false, paceTarget := 0x190, vmax := 0x398, vmin := 0x26C, vset := 0x320, pace := false,
        vrmAddr := 0x40, vrmErr := false, vrmDead := false, statusWord := 0, vout := 0, target := 0x320, paceNow := 0, tjLimit := 0x64,
        tj := 0, throttle := false, thermN := false, sagSkid := 0x370, sagStop := 0x3A2, mainSense := 0, stop := false, nv := none,
        prioReq := 0x78, fullReq := 0x258, holdCap := 0, vHold := 0, cEff := 0, energy := 0, level := 0, cMeas := 0, cValid := false, holdPeriod := 1, checkGo := false,
        check := none, checkDue := 0, keep := false }
    start :=
      { off := false, phase := 1, cause := 0, readyTicks := 0, done := [], quiesce := false, ready := false,
        quiesceWait := 0x64, quiesceAt := 0, skidDone := false, writing := none, warm := false, loaded := false, held := none }
    fresh := 0
    out := []
    pending := [] }

end Sys2Proof.Machine
end

