-- ==== Sys2Proof/Machine/Sparse.lean ====
section
/-! DEFINITION. Sparse tables: reading, writing and the canonical form; the Landing and scratch memory is one of them. -/

namespace Sys2Proof.Machine

variable {α : Type}

/-- What table `t` holds at `k`; an unlisted key reads as `d`. -/
def Sp.look (t : Sp α) (d : α) (k : Nat) : α :=
  match t with
  | [] => d
  | (j, v) :: r => if j = k then v else Sp.look r d k

/-- `t` without key `k`. -/
def Sp.drop (t : Sp α) (k : Nat) : Sp α := t.filter (fun e => e.1 != k)

/-- Insert before the first larger key. -/
def Sp.ins (t : Sp α) (k : Nat) (v : α) : Sp α :=
  match t with
  | [] => [(k, v)]
  | (j, w) :: r => if k < j then (k, v) :: (j, w) :: r else (j, w) :: Sp.ins r k v

/-- `t` with `v` at `k`, kept in canonical form: writing the value an unlisted key reads as removes the entry. -/
def Sp.put [DecidableEq α] (t : Sp α) (d : α) (k : Nat) (v : α) : Sp α :=
  if v = d then Sp.drop t k else Sp.ins (Sp.drop t k) k v

/-- Apply `f` to the value at `k`. -/
def Sp.upd [DecidableEq α] (t : Sp α) (d : α) (k : Nat) (f : α → α) : Sp α :=
  Sp.put t d k (f (Sp.look t d k))

/-- The canonical form: keys strictly rising, no entry equal to the default. -/
def Sp.wf [DecidableEq α] (t : Sp α) (d : α) : Bool :=
  match t with
  | [] => true
  | (j, v) :: r =>
    decide (v ≠ d) && (match r with | [] => true | (j', _) :: _ => decide (j < j')) && Sp.wf r d

/-! ## Memory -/

/-- What an unlisted byte of the Landing or of scratch reads as: 0 (R285, R292: both are filled with zero, log 7). -/
def byteDefault : Byte := 0

/-- The memory: bytes by engine address. -/
abbrev Memory := List Host.Cell

/-- One byte of memory. -/
def Memory.get (m : Memory) (a : Nat) : Byte := Sp.look m byteDefault a

/-- Memory with byte `v` at `a`. -/
def Memory.set (m : Memory) (a : Nat) (v : Byte) : Memory := Sp.put m byteDefault a v

/-- The canonical form of the memory. -/
abbrev Memory.wf (m : Memory) : Bool := Sp.wf (α := Byte) m byteDefault

/-- `n` bytes from `a`. -/
def Memory.getN (m : Memory) (a : Nat) : Nat → List Byte
  | 0 => []
  | n + 1 => Memory.get m a :: Memory.getN m (a + 1) n

/-- Write a list of bytes from `a` on. -/
def Memory.setN (m : Memory) (a : Nat) : List Byte → Memory
  | [] => m
  | b :: r => Memory.setN (Memory.set m a b) (a + 1) r

/-- Fill addresses `lo` to `hi - 1` with zero: every listed byte of the range goes. -/
def Memory.clear (m : Memory) (lo hi : Nat) : Memory := m.filter (fun e => decide (e.1 < lo) || decide (hi ≤ e.1))

/-- Drop the entries of a table whose keys lie in `lo` to `hi - 1`. -/
def Sp.clear (t : Sp α) (lo hi : Nat) : Sp α := t.filter (fun e => decide (e.1 < lo) || decide (hi ≤ e.1))

end Sys2Proof.Machine
end

