-- ==== Sys2Proof/Machine/Bits.lean ====
section
/-! DEFINITION. Bit fields, byte order, saturating counters and clamps (R7, R49, R76, Table 0.2). -/

namespace Sys2Proof.Machine

/-- Bits lo+n-1 to lo of a number. -/
def bitsOf (v lo n : Nat) : Nat := (v >>> lo) % 2 ^ n

/-- Bytes lo to lo+n-1 of a 64-byte packet as a little-endian number (R7). -/
def pkN (p : Sector) (lo n : Nat) : Nat := bitsOf p.toNat (8 * lo) (8 * n)

/-- Little-endian bytes of a number (R7). -/
def leBytes (v : Nat) : Nat → List Byte
  | 0 => []
  | n + 1 => BitVec.ofNat 8 v :: leBytes (v / 256) n

/-- The number that little-endian bytes spell (R7). -/
def leNat : List Byte → Nat
  | [] => 0
  | b :: r => b.toNat + 256 * leNat r

/-- The 64 bytes of a sector, byte 0 first. -/
def secBytes (s : Sector) : List Byte := leBytes s.toNat 64

/-- A sector from its bytes. -/
def secOf (bs : List Byte) : Sector := BitVec.ofNat 512 (leNat bs)

/-- A saturating 32-bit counter after n more events (R49). -/
def sat32 (c : W32) (n : Nat) : W32 := BitVec.ofNat 32 (min (c.toNat + n) 0xFFFFFFFF)

/-- A saturating 64-bit counter after n more events (R213). -/
def sat64 (c : W64) (n : Nat) : W64 := BitVec.ofNat 64 (min (c.toNat + n) (2 ^ 64 - 1))

/-- A saturating 16-bit counter after n more events. -/
def sat16 (c : W16) (n : Nat) : W16 := BitVec.ofNat 16 (min (c.toNat + n) 0xFFFF)

/-- Nearest value of lo to hi (R76). -/
def clampN (lo hi v : Nat) : Nat := max lo (min hi v)

/-- 1 if a clamp changed the value, else 0. -/
def clamped (a b : Nat) : Nat := if a = b then 0 else 1

/-- A Bool as a bit of a number. -/
def b2n (b : Bool) : Nat := if b then 1 else 0

/-- Sum of a list of fields at their bit positions. -/
def fields : List (Nat × Nat) → Nat
  | [] => 0
  | (lo, v) :: r => v <<< lo ||| fields r

/-- TICKs in n µs (R5). -/
def us (n : Nat) : Nat := 100 * n
/-- TICKs in n ms (R5). -/
def ms (n : Nat) : Nat := 100000 * n
/-- TICKs in n s (R5). -/
def secs (n : Nat) : Nat := 100000000 * n

/-- The number of bits set. -/
def popc : Nat → Nat → Nat
  | 0, _ => 0
  | k + 1, v => v % 2 + popc k (v / 2)

/-- The bits lo to lo+n-1 of v replaced by those of x. -/
def putBits (v lo n x : Nat) : Nat := v - (bitsOf v lo n <<< lo) + ((x % 2 ^ n) <<< lo)

/-- Numbers 0 to n-1. -/
abbrev upTo (n : Nat) : List Nat := List.range n

/-- Keep the first element of a list that satisfies p, by index order. -/
def firstWith {α : Type} (p : α → Bool) : List α → Option α
  | [] => none
  | x :: r => if p x then some x else firstWith p r

/-- One step of the reflected CRC-32C (R144). -/
def crcBit (c : Nat) : Nat := if c % 2 = 1 then (c / 2) ^^^ 0x82F63B78 else c / 2

/-- CRC-32C register after one byte (R144). -/
def crcByte (c : Nat) (b : Byte) : Nat :=
  let x := c ^^^ b.toNat
  crcBit (crcBit (crcBit (crcBit (crcBit (crcBit (crcBit (crcBit x)))))))

/-- CRC-32C of bytes, continuing from the CRC of the bytes before (0 for none) (R144, R228). -/
def crc32cFrom (prev : W32) (bs : List Byte) : W32 :=
  BitVec.ofNat 32 ((bs.foldl crcByte (prev.toNat ^^^ 0xFFFFFFFF)) ^^^ 0xFFFFFFFF)

/-- CRC-32C of bytes (R144). -/
def crc32c (bs : List Byte) : W32 := crc32cFrom 0 bs

/-- The bits of v at even places below 2n, counted from place lo. -/
def everyOther (v lo : Nat) : Nat → Nat
  | 0 => 0
  | n + 1 => bitsOf v lo 1 + everyOther v (lo + 2) n

/-- A word of 2n bits with its two check bits above it: the parity of its even bits, then that of its odd bits (R177, R233). -/
def checked (n w : Nat) : Nat := w + everyOther w 0 n % 2 * 2 ^ (2 * n) + everyOther w 1 n % 2 * 2 ^ (2 * n + 1)

/-- A stored word's check bits match (R177, R233). -/
def checksOk (n v : Nat) : Bool := v = checked n (v % 2 ^ (2 * n))

/-- Sixteen 16-bit words by index, summed with xor: used for parity fields. -/
def xorAll (l : List Nat) : Nat := l.foldl (fun a b => a ^^^ b) 0

end Sys2Proof.Machine
end

