-- ==== Sys2Proof/Machine/Crypto.lean ====
section
/-! DEFINITION. AES-128 and AES-256 (FIPS 197), GCM (SP 800-38D, R331), SHA-384 (FIPS 180-4), and the reference galley encoder and decoder (R348-R353). -/

namespace Sys2Proof.Machine

/-! ## AES -/

/-- Multiplication by x in GF(2⁸). -/
def xtime (a : Nat) : Nat := (if a < 128 then 2 * a else (2 * a) ^^^ 0x11B) % 256

/-- Product in GF(2⁸), over n bits of b. -/
def gmulN : Nat → Nat → Nat → Nat
  | 0, _, _ => 0
  | n + 1, a, b => (if b % 2 = 1 then a else 0) ^^^ gmulN n (xtime a) (b / 2)

def gmul (a b : Nat) : Nat := gmulN 8 a b

/-- a to the power 254: the inverse of a, 0 for 0. -/
def ginv (a : Nat) : Nat :=
  let a2 := gmul a a
  let a4 := gmul a2 a2
  let a8 := gmul a4 a4
  let a16 := gmul a8 a8
  let a32 := gmul a16 a16
  let a64 := gmul a32 a32
  let a128 := gmul a64 a64
  gmul a128 (gmul a64 (gmul a32 (gmul a16 (gmul a8 (gmul a4 a2)))))

/-- Rotate a byte left. -/
def rotl8 (a k : Nat) : Nat := (a <<< k ||| a >>> (8 - k)) % 256

/-- The S-box. -/
def sbox (a : Nat) : Nat :=
  let b := ginv a
  b ^^^ rotl8 b 1 ^^^ rotl8 b 2 ^^^ rotl8 b 3 ^^^ rotl8 b 4 ^^^ 0x63

/-- The inverse S-box. -/
def sboxInv (a : Nat) : Nat := ((upTo 256).find? (fun x => sbox x = a)).getD 0

def xorBytes (a b : List Nat) : List Nat := List.zipWith (fun x y => x ^^^ y) a b

/-- The key schedule: words, newest first, from Nk key words on (FIPS 197, 5.2). -/
def keyWords (nk : Nat) : Nat → List (List Nat) → List (List Nat)
  | 0, ws => ws
  | n + 1, ws =>
    let i := ws.length
    let t := ws.headD []
    let rc := (List.replicate (i / nk - 1) ()).foldl (fun a _ => xtime a) 1
    let t1 :=
      if i % nk = 0 then xorBytes ((t.drop 1 ++ t.take 1).map sbox) [rc, 0, 0, 0]
      else if 6 < nk && i % nk = 4 then t.map sbox
      else t
    keyWords nk n (xorBytes (ws.getD (nk - 1) []) t1 :: ws)

/-- Split into pieces of k. -/
def pieces {α : Type} (k : Nat) : Nat → List α → List (List α)
  | 0, _ => []
  | n + 1, l => if l.isEmpty then [] else l.take k :: pieces k n (l.drop k)

/-- Round keys, 16 bytes each, in order. -/
def roundKeys (key : List Nat) : List (List Nat) :=
  let nk := key.length / 4
  let first := (pieces 4 nk key).reverse
  let all := (keyWords nk (4 * (nk + 7) - nk) first).reverse
  (pieces 4 (nk + 7) all).map List.flatten

/-- ShiftRows on a state in column order. -/
def shiftRows (st : List Nat) : List Nat := (upTo 16).map (fun i => st.getD ((i + 4 * (i % 4)) % 16) 0)
def shiftRowsInv (st : List Nat) : List Nat := (upTo 16).map (fun i => st.getD ((i + 16 - 4 * (i % 4)) % 16) 0)

/-- MixColumns with the coefficients of one row. -/
def mixCols (c : List Nat) (st : List Nat) : List Nat :=
  (upTo 16).map (fun i => xorAll ((upTo 4).map (fun j => gmul (c.getD ((j + 4 - i % 4) % 4) 0) (st.getD (4 * (i / 4) + j) 0))))

/-- Encrypt one block. -/
def aesEnc (key : List Nat) (blk : List Nat) : List Nat :=
  let rks := roundKeys key
  let n := rks.length - 1
  let st := (upTo (n - 1)).foldl (fun s r => xorBytes (mixCols [2, 3, 1, 1] (shiftRows (s.map sbox))) (rks.getD (r + 1) [])) (xorBytes blk (rks.headD []))
  xorBytes (shiftRows (st.map sbox)) (rks.getD n [])

/-- Decrypt one block. -/
def aesDec (key : List Nat) (blk : List Nat) : List Nat :=
  let rks := (roundKeys key).reverse
  let n := rks.length - 1
  let st := (upTo (n - 1)).foldl (fun s r => mixCols [14, 11, 13, 9] (xorBytes ((shiftRowsInv s).map sboxInv) (rks.getD (r + 1) []))) (xorBytes blk (rks.headD []))
  xorBytes ((shiftRowsInv st).map sboxInv) (rks.getD n [])

/-! ## GCM -/

/-- A byte string as a big-endian number. -/
def beNat (l : List Nat) : Nat := l.foldl (fun a b => 256 * a + b) 0
/-- n big-endian bytes. -/
def beBytes (n v : Nat) : List Nat := (upTo n).map (fun i => bitsOf v (8 * (n - 1 - i)) 8)

/-- The product in GF(2¹²⁸) of SP 800-38D, 6.3, over n bits of x from bit i on. -/
def gfmul : Nat → Nat → Nat → Nat → Nat
  | 0, _, _, z => z
  | n + 1, x, v, z =>
    gfmul n x (if v % 2 = 1 then (v / 2) ^^^ (0xE1 <<< 120) else v / 2) (if bitsOf x n 1 = 1 then z ^^^ v else z)

/-- Pad to a whole number of blocks. -/
def pad16 (l : List Nat) : List Nat := l ++ List.replicate ((16 - l.length % 16) % 16) 0

def ghash (h : Nat) (l : List Nat) : Nat :=
  (pieces 16 (l.length / 16) l).foldl (fun y b => gfmul 128 (y ^^^ beNat b) h 0) 0

/-- The keystream from the counter block j on, over n blocks. -/
def ctrStream (key : List Nat) (iv : List Nat) : Nat → Nat → List Nat
  | 0, _ => []
  | n + 1, j => aesEnc key (iv ++ beBytes 4 j) ++ ctrStream key iv n (j + 1)

/-- CTR encryption of GCM (counter from 2). -/
def gcmCrypt (key iv data : List Nat) : List Nat := xorBytes data (ctrStream key iv ((data.length + 15) / 16) 2)

/-- The tag over header and ciphertext. -/
def gcmTag (key iv aad ct : List Nat) : List Nat :=
  let h := beNat (aesEnc key (List.replicate 16 0))
  let s := ghash h (pad16 aad ++ pad16 ct ++ beBytes 8 (8 * aad.length) ++ beBytes 8 (8 * ct.length))
  xorBytes (aesEnc key (iv ++ [0, 0, 0, 1])) (beBytes 16 s)

/-! ## SHA-384 -/

/-- Largest r below 2ⁿ with r^k ≤ v. -/
def rootN (k v : Nat) : Nat → Nat → Nat
  | 0, r => r
  | n + 1, r => rootN k v n (if (r + 2 ^ n) ^ k ≤ v then r + 2 ^ n else r)

/-- The first primes below 410. -/
def smallPrimes : List Nat := (List.range 410).filter (fun p => 2 ≤ p && (List.range 21).all (fun d => d < 2 || p ≤ d || p % d ≠ 0))

/-- The 64 fractional bits of a cube root, of a square root (FIPS 180-4, 4.2.3, 5.3.4). -/
def cbrtFrac (p : Nat) : Nat := rootN 3 (p <<< 192) 70 0 % 2 ^ 64
def sqrtFrac (p : Nat) : Nat := rootN 2 (p <<< 128) 70 0 % 2 ^ 64

def sha512K : List Nat := (smallPrimes.take 80).map cbrtFrac
def sha384Init : List Nat := ((smallPrimes.drop 8).take 8).map sqrtFrac

def rotr64 (x n : Nat) : Nat := (x >>> n ||| x <<< (64 - n)) % 2 ^ 64

/-- Extend the message schedule, newest first. -/
def shaSched : Nat → List Nat → List Nat
  | 0, w => w
  | n + 1, w =>
    let a := w.getD 1 0
    let b := w.getD 14 0
    let s1 := rotr64 a 19 ^^^ rotr64 a 61 ^^^ a >>> 6
    let s0 := rotr64 b 1 ^^^ rotr64 b 8 ^^^ b >>> 7
    shaSched n ((s1 + w.getD 6 0 + s0 + w.getD 15 0) % 2 ^ 64 :: w)

/-- One round. -/
def shaRound (v : List Nat) (kw : Nat × Nat) : List Nat :=
  match v with
  | [a, b, c, d, e, f, g, h] =>
    let t1 := h + (rotr64 e 14 ^^^ rotr64 e 18 ^^^ rotr64 e 41) + ((e &&& f) ^^^ ((2 ^ 64 - 1 - e) &&& g)) + kw.1 + kw.2
    let t2 := (rotr64 a 28 ^^^ rotr64 a 34 ^^^ rotr64 a 39) + ((a &&& b) ^^^ (a &&& c) ^^^ (b &&& c))
    [(t1 + t2) % 2 ^ 64, a, b, c, (d + t1) % 2 ^ 64, e, f, g]
  | x => x

def shaBlock (h : List Nat) (blk : List Nat) : List Nat :=
  let w := (shaSched 64 ((pieces 8 16 blk).map beNat).reverse).reverse
  let v := (sha512K.zip w).foldl shaRound h
  List.zipWith (fun x y => (x + y) % 2 ^ 64) h v

/-- SHA-384 of a byte string, as 48 bytes. -/
def sha384 (m : List Nat) : List Nat :=
  let padded := m ++ [0x80] ++ List.replicate ((128 + 111 - m.length % 128) % 128) 0 ++ beBytes 16 (8 * m.length)
  (((pieces 128 (padded.length / 128) padded).foldl shaBlock sha384Init).take 6).flatMap (beBytes 8)

/-! ## Galleys -/

/-- Galley size S of a ratio code (Table 12.1). -/
def galSize (c : Nat) : Nat := if c = 1 then 2048 else if c = 2 then 3072 else 3584

/-- The literal run of R352's flush. -/
def flushRun (run : List Nat) : List Nat := if run.isEmpty then [] else (run.length - 1) :: run

/-- Length of the match of positions q and p, at most 265, from n on. -/
def matchLen (inp : List Nat) (q p : Nat) : Nat → Nat → Nat
  | 0, n => n
  | f + 1, n => if n < 265 && p + n < inp.length && inp.getD (q + n) 0 = inp.getD (p + n) 0 then matchLen inp q p f (n + 1) else n

/-- The nearest candidate q for position p (R352). -/
def candidate (inp : List Nat) (p : Nat) : Option Nat :=
  if p + 3 ≤ inp.length then
    ((upTo (min p 4096)).find? (fun k => (inp.drop (p - 1 - k)).take 3 = (inp.drop p).take 3)).map (fun k => p - 1 - k)
  else none

/-- The reference token stream (R352). -/
def galTokens (inp : List Nat) : Nat → Nat → List Nat → List Nat
  | 0, _, run => flushRun run
  | f + 1, p, run =>
    if inp.length ≤ p then flushRun run
    else match candidate inp p with
    | some q =>
      let n := matchLen inp q p 265 3
      let d := p - q - 1
      let tok := if n ≤ 9 then [0x80 + (n - 3) * 16 + d / 256, d % 256] else [0xF0 + d / 256, d % 256, n - 10]
      flushRun run ++ tok ++ galTokens inp f (p + n) []
    | none =>
      let run1 := run ++ [inp.getD p 0]
      if run1.length = 128 then flushRun run1 ++ galTokens inp f (p + 1) [] else galTokens inp f (p + 1) run1

/-- The galley of a block and ratio code, none where it does not fit (R348, R353). -/
def galEncode (c : Nat) (blk : List Byte) : Option (List Byte) :=
  let inp := blk.map (fun b => b.toNat)
  let toks := galTokens inp (inp.length + 1) 0 []
  let s := galSize c
  if toks.length ≤ s - 12 then
    let short := if inp.length < 4096 then 1 else 0
    some (([0x59, 0x47, 0x01, c, short, 0, inp.length % 256, inp.length / 256] ++ toks ++
      List.replicate (s - 12 - toks.length) 0).map (BitVec.ofNat 8) ++ leBytes (crc32c blk).toNat 4)
  else none

/-- A match copies one byte at a time (R349). -/
def copyMatch (d : Nat) : Nat → List Nat → List Nat
  | 0, out => out
  | n + 1, out => copyMatch d n (out ++ [out.getD (out.length - d) 0])

/-- The decoder's loop: the output and the end of the tokens, none on failure (R350). -/
def galLoop (g : List Nat) (len lim : Nat) : Nat → Nat → List Nat → Option (List Nat × Nat)
  | 0, _, _ => none
  | f + 1, i, out =>
    if len ≤ out.length then some (out, i)
    else if lim ≤ i then none
    else
      let b := g.getD i 0
      if b < 0x80 then
        if lim < i + 2 + b || len < out.length + b + 1 then none
        else galLoop g len lim f (i + 2 + b) (out ++ (g.drop (i + 1)).take (b + 1))
      else
        let size := if 0xF0 ≤ b then 3 else 2
        let n := if 0xF0 ≤ b then 10 + g.getD (i + 2) 0 else bitsOf b 4 3 + 3
        let d := b % 16 * 256 + g.getD (i + 1) 0 + 1
        if lim < i + size || out.length < d || len < out.length + n then none
        else galLoop g len lim f (i + size) (copyMatch d n out)

/-- Decode a galley of ratio c; the expected LEN, or none where the header gives it (Table 12.4). -/
def galDecode (c : Nat) (len? : Option Nat) (gal : List Byte) : Option (List Byte) :=
  let g := gal.map (fun b => b.toNat)
  let s := galSize c
  let hl := g.getD 6 0 + 256 * g.getD 7 0
  let len := len?.getD hl
  let head := g.length = s && g.take 3 = [0x59, 0x47, 0x01] && g.getD 5 0 = 0 && g.getD 3 0 = c && hl = len &&
    1 ≤ len && len ≤ 4096 && g.getD 4 0 = (if len < 4096 then 1 else 0)
  if head then
    match galLoop g len (s - 4) 4096 8 [] with
    | some (out, i) =>
      let o := out.map (BitVec.ofNat 8)
      if ((g.take (s - 4)).drop i).all (fun b => b = 0) && leNat (gal.drop (s - 4)) = (crc32c o).toNat then some o else none
    | none => none
  else none

end Sys2Proof.Machine
end

