-- ==== Sys2Proof/Machine/Access.lean ====
section
/-! DEFINITION. Reading and updating one item of each table of the state: ports, functions, queues, entries, links, groups, engines, clusters, homes, units. -/

namespace Sys2Proof.Machine

def State.port (s : State) (p : Nat) : Port := Sp.look s.ports Port.init p
def State.updPort (s : State) (p : Nat) (f : Port → Port) : State :=
  { s with ports := Sp.upd s.ports Port.init p f }

def State.fn (s : State) (f : Nat) : Fn := Sp.look s.qm.fns Fn.init f
def State.updFn (s : State) (f : Nat) (g : Fn → Fn) : State :=
  { s with qm := { s.qm with fns := Sp.upd s.qm.fns Fn.init f g } }

/-- Function f is a PF (Table 4.2). -/
def isPf (f : Nat) : Bool := f = 0 || f = 0x101

/-- The reset value of queue (f, q): VECTOR is the queue's own number (Table 2.3). -/
def queueInit (q : Nat) : Queue := Queue.init q

def State.queue (s : State) (f q : Nat) : Queue := Sp.look s.qm.queues (queueInit q) (9 * f + q)
def State.updQueue (s : State) (f q : Nat) (g : Queue → Queue) : State :=
  { s with qm := { s.qm with queues := Sp.upd s.qm.queues (queueInit q) (9 * f + q) g } }

def State.win (s : State) (m w : Nat) : HWin := Sp.look s.qm.wins HWin.init (16 * m + w)
def State.updWin (s : State) (m w : Nat) (g : HWin → HWin) : State :=
  { s with qm := { s.qm with wins := Sp.upd s.qm.wins HWin.init (16 * m + w) g } }

def State.entry (s : State) (i : Nat) : Entry := Sp.look s.tly.entries (Entry.free s.tly.genBase) i
def State.setEntry (s : State) (i : Nat) (e : Entry) : State :=
  { s with tly := { s.tly with entries := Sp.put s.tly.entries (Entry.free s.tly.genBase) i e } }
def State.updEntry (s : State) (i : Nat) (f : Entry → Entry) : State := s.setEntry i (f (s.entry i))

def State.link (s : State) (l : Nat) : Link := Sp.look s.ch.links Link.init l
def State.updLink (s : State) (l : Nat) (f : Link → Link) : State :=
  { s with ch := { s.ch with links := Sp.upd s.ch.links Link.init l f } }

def State.group (s : State) (g : Nat) : Group := Sp.look s.ch.groups Group.init g
def State.setGroup (s : State) (g : Nat) (v : Group) : State :=
  { s with ch := { s.ch with groups := Sp.put s.ch.groups Group.init g v } }

def State.flow (s : State) (i g : Nat) : Flow := Sp.look s.ch.flows Flow.init (4 * i + g)
def State.updFlow (s : State) (i g : Nat) (f : Flow → Flow) : State :=
  { s with ch := { s.ch with flows := Sp.upd s.ch.flows Flow.init (4 * i + g) f } }

def State.le (s : State) (e : Nat) : Eng := Sp.look s.eng.les Eng.init e
def State.updLe (s : State) (e : Nat) (f : Eng → Eng) : State :=
  { s with eng := { s.eng with les := Sp.upd s.eng.les Eng.init e f } }

def State.pe (s : State) (n : Nat) : Pe := Sp.look s.eng.pes (Pe.init n) n
def State.updPe (s : State) (n : Nat) (f : Pe → Pe) : State :=
  { s with eng := { s.eng with pes := Sp.upd s.eng.pes (Pe.init n) n f } }

def State.engCl (s : State) (c : Nat) : EngCl := Sp.look s.eng.cls EngCl.init c
def State.updEngCl (s : State) (c : Nat) (f : EngCl → EngCl) : State :=
  { s with eng := { s.eng with cls := Sp.upd s.eng.cls EngCl.init c f } }

def State.memCl (s : State) (c : Nat) : MemCl := Sp.look s.mem MemCl.init c
def State.updMem (s : State) (c : Nat) (f : MemCl → MemCl) : State :=
  { s with mem := Sp.upd s.mem MemCl.init c f }

def State.home (s : State) (h : Nat) : Home := Sp.look s.coh.homes Home.init h
def State.updHome (s : State) (h : Nat) (f : Home → Home) : State :=
  { s with coh := { s.coh with homes := Sp.upd s.coh.homes Home.init h f } }

def State.slot (s : State) (i : Nat) : KeySlot := Sp.look s.cph.slots KeySlot.init i
def State.setSlot (s : State) (i : Nat) (k : KeySlot) : State :=
  { s with cph := { s.cph with slots := Sp.put s.cph.slots KeySlot.init i k } }

def State.grp (s : State) (g : Nat) : Svc := Sp.look s.cph.grps Svc.init g
def State.updGrp (s : State) (g : Nat) (f : Svc → Svc) : State :=
  { s with cph := { s.cph with grps := Sp.upd s.cph.grps Svc.init g f } }

def State.coder (s : State) (c : Nat) : Svc := Sp.look s.gal.coders Svc.init c
def State.updCoder (s : State) (c : Nat) (f : Svc → Svc) : State :=
  { s with gal := { s.gal with coders := Sp.upd s.gal.coders Svc.init c f } }

def State.emit (s : State) (o : Out) : State := { s with out := s.out ++ [o] }
def State.setFlt (s : State) (f : Flt → Flt) : State := { s with flt := f s.flt }
def State.setTly (s : State) (f : Tally → Tally) : State := { s with tly := f s.tly }
def State.setPwr (s : State) (f : Pwr → Pwr) : State := { s with pwr := f s.pwr }
def State.setTru (s : State) (f : Tru → Tru) : State := { s with tru := f s.tru }
def State.setMp (s : State) (f : Mp → Mp) : State := { s with mp := f s.mp }
def State.setStart (s : State) (f : Start → Start) : State := { s with start := f s.start }
def State.setDeck (s : State) (f : Deck → Deck) : State := { s with deck := f s.deck }
def State.setCoh (s : State) (f : Coh → Coh) : State := { s with coh := f s.coh }
def State.setCh (s : State) (f : Ch → Ch) : State := { s with ch := f s.ch }
def State.setQm (s : State) (f : Qm → Qm) : State := { s with qm := f s.qm }
def State.setLnd (s : State) (f : Lnd → Lnd) : State := { s with lnd := f s.lnd }
def State.setEng (s : State) (f : EngArr → EngArr) : State := { s with eng := f s.eng }

/-- Fold a state change over a list. -/
def State.each {α : Type} (s : State) (l : List α) (f : State → α → State) : State := l.foldl f s

/-- The module is on and no stop of Skid, grave stop, warm reset or quiesce keeps its units still (R404, R439, R444, R454). -/
def State.live (s : State) : Bool := !s.start.off && !s.flt.grave && !s.pwr.keep && !s.start.warm && !s.start.ready && s.start.writing.isNone

/-- The module is on. -/
def State.on (s : State) : Bool := !s.start.off && !s.pwr.keep

/-- Phase B has ended, and the registers that show whether a clock is present follow it; until then they read their reset value 0 (R12, log 6). -/
def State.monitored (s : State) : Bool := s.start.done.contains .B

/-- Phase K has ended (R447). -/
def State.isReady (s : State) : Bool := s.start.done.contains .K

end Sys2Proof.Machine
end

