-- ==== Sys2Proof/Machine/Grants.lean ====
section
/-! DEFINITION. The power arbiter: grants, the queue of waiting requests, releases (R427-R429). -/

namespace Sys2Proof.Machine

/-- Reserved minimum of a class (Table 15.2). -/
def reserveOf (c : Nat) : Nat := [4, 8, 18, 16, 8, 32, 32, 4, 0].getD c 0

/-- Amperes outstanding in a class. -/
def classOut (g : List Grant) (c : Nat) : Nat := ((g.filter (fun x => x.cls = c)).map (fun x => x.amps)).sum

/-- All amperes outstanding. -/
def allOut (g : List Grant) : Nat := (g.map (fun x => x.amps)).sum

/-- FREE: POOL minus outstanding grants minus the unused part of every reserve (R428). -/
def freeAmps (pool : Nat) (g : List Grant) : Nat :=
  pool - allOut g - ((upTo 9).map (fun c => reserveOf c - classOut g c)).sum

/-- Grant from the head of the queue while its size is at most FREE (R428). -/
def serveQueue (pool : Nat) (g : List Grant) : List Grant → List Grant × List Grant
  | [] => (g, [])
  | x :: r => if x.amps ≤ freeAmps pool g then serveQueue pool (g ++ [x]) r else (g, x :: r)

/-- Requesters: engine base and wide grants, groups, coders, cluster memory, cluster links, tests. -/
def whoBase (e : Nat) : Nat := e
def whoWide (e : Nat) : Nat := 0x80 + e
def whoGrp (g : Nat) : Nat := 0x100 + g
def whoCoder (c : Nat) : Nat := 0x200 + c
def whoMem (c : Nat) : Nat := 0x300 + c
def whoLink (c : Nat) : Nat := 0x400 + c
def whoReferee (c : Nat) : Nat := 0x500 + c
/-- Requesters outside the arrays: the Tally banks, the report paths, the host side, the image writer. -/
def whoTally : Nat := 0x700
def whoPaths : Nat := 0x701
def whoHost : Nat := 0x702
def whoSkid : Nat := 0x703
def whoTest (u : Nat) : Nat := 0x1000 + u

/-- Requester `who` holds a grant of the class. -/
def State.hasGrant (s : State) (cls who : Nat) : Bool := s.pwr.grants.any (fun g => g.cls = cls && g.who = who)

/-- Run the queue (R428). -/
def State.serveGrants (s : State) : State :=
  s.setPwr (fun p => let r := serveQueue p.pool.toNat p.grants p.waiting; { p with grants := r.1, waiting := r.2 })

/-- A request is decided: from the reserve, or it joins the queue, which PWR_WAITED counts (R428, Table 15.5). A requester never holds two grants of one class for one purpose (R427). -/
def State.askGrant (s : State) (cls amps who : Nat) : State :=
  if s.hasGrant cls who || s.pwr.waiting.any (fun g => g.cls = cls && g.who = who) then s
  else if classOut s.pwr.grants cls + amps ≤ reserveOf cls then s.setPwr (fun p => { p with grants := p.grants ++ [⟨cls, amps, who⟩] })
  else
    (s.setPwr (fun p => { p with
      waiting := p.waiting ++ [⟨cls, amps, who⟩], waited := Sp.put p.waited 0 cls (sat64 (Sp.look p.waited 0 cls) 1) })).serveGrants

/-- A release returns its amperes before the next decision (R428). -/
def State.releaseGrant (s : State) (cls who : Nat) : State :=
  (s.setPwr (fun p => { p with
    grants := p.grants.filter (fun g => !(g.cls = cls && g.who = who)),
    waiting := p.waiting.filter (fun g => !(g.cls = cls && g.who = who)) })).serveGrants

end Sys2Proof.Machine
end

