-- ==== Sys2Proof/Machine/Ops.lean ====
section
/-! DEFINITION. Operations shared by every family: interrupts and event bits, clamps, fault reports with the blaze and the grave stop. -/

namespace Sys2Proof.Machine

/-! ## Reach of a function, interrupts, event bits (R37, R50-R53) -/

/-- Function f is reachable through port p (R19, R37). -/
def State.reach (s : State) (p f : Nat) : Bool :=
  let q := s.port p
  q.up && (if f = 0 then p = 0 else if f = 0x101 then p = 1 else q.vfEnable && f ≤ q.numVfs.toNat)

/-- Tenant VFn is enabled in at least one PF (R37); a PF is enabled while its port is up (R480). -/
def State.fnEnabled (s : State) (f : Nat) : Bool :=
  if f = 0 then (s.port 0).up else if f = 0x101 then (s.port 1).up
  else ((s.port 0).vfEnable && f ≤ (s.port 0).numVfs.toNat) || ((s.port 1).vfEnable && f ≤ (s.port 1).numVfs.toNat)

/-- Send MSI-X vector `vec` of function f through port p, or set its pending bit while it is masked (R51, R52). -/
def State.sendMsix (s : State) (p : Nat) (f vec : Nat) : State :=
  let m := Sp.look (s.port p).msix Msix.init (16 * f + vec)
  if m.masked then s.updPort p (fun q => { q with msix := Sp.put q.msix Msix.init (16 * f + vec) { m with pending := true } })
  else s.emit (.msix (if p = 0 then 0 else 1) m.addr m.data)

/-- The event vector: 8 in a VF, 9 in a PF (R50). -/
def eventVec (f : Nat) : Nat := if isPf f then 9 else 8

/-- Set bit b of QM_VF_EVENT of f; a transition from 0 to 1 sends the event vector once through each reachable port (R53). -/
def State.setEvent (s : State) (f b : Nat) : State :=
  if (s.fn f).event.getLsbD b then s
  else
    let s1 := s.updFn f (fun x => { x with event := x.event ||| BitVec.ofNat 4 (1 <<< b) })
    (upTo 2).foldl (fun t p => if t.reach p f then t.sendMsix p f (eventVec f) else t) s1

/-- Count n clamps of function f (R49); a write by the secure world (0x1FF) has no counter. -/
def State.clampFn (s : State) (f n : Nat) : State :=
  if n = 0 || 0x101 < f then s else s.updFn f (fun x => { x with clamp := sat32 x.clamp n })

/-- The function whose counter takes the clamps of a PF write through port p (R49, R122). -/
def pfOf (p : Nat) : Nat := if p = 0 then 0 else 0x101

/-! ## Completions that fall due (R44, R47, R91) -/

/-- OPCODE, FLAGS and CMD_ID of a packet (Table 3.1). -/
def Cmd.opcode (c : Cmd) : Nat := pkN c.pkt 0 1
def Cmd.cmdId (c : Cmd) : W16 := BitVec.ofNat 16 (pkN c.pkt 2 2)
def Cmd.expert (c : Cmd) : Bool := (pkN c.pkt 1 1) % 2 = 1
def Cmd.fence (c : Cmd) : Bool := bitsOf (pkN c.pkt 1 1) 1 1 = 1
def Cmd.hold (c : Cmd) : Bool := bitsOf (pkN c.pkt 1 1) 2 1 = 1
/-- Classes 0x1_, 0x2_ and 0x3_ are data-path commands; every other class is admin (R71). -/
def isAdmin (op : Nat) : Bool := op < 0x10 || 0x40 ≤ op

/-- The command of handle h. -/
def State.cmd (s : State) (h : Nat) : Option Cmd := s.qm.cmds.find? (fun c => c.handle = h)

/-- Replace the command of c's handle. -/
def State.putCmd (s : State) (c : Cmd) : State :=
  s.setQm (fun q => { q with cmds := q.cmds.map (fun d => if d.handle = c.handle then c else d) })

/-- Remove the command of handle h. -/
def State.dropCmd (s : State) (h : Nat) : State :=
  s.setQm (fun q => { q with cmds := q.cmds.filter (fun d => d.handle != h) })

/-- A completion falls due on queue (f, q) (R44, R47). -/
def State.addDue (s : State) (f q : Nat) (d : Due) : State :=
  s.updQueue f q (fun x => { x with due := x.due ++ [d] })

/-- The final completion of command c falls due with a status and results; the command leaves the QM. -/
def State.finish (s : State) (c : Cmd) (status : Nat) (tid r0 r1 : Nat) : State :=
  (s.addDue c.func c.q
    ⟨.direct (BitVec.ofNat 8 status) (BitVec.ofNat 32 tid) (BitVec.ofNat 32 r0) (BitVec.ofNat 32 r1), c.cmdId, c.clamped,
      c.handle, isAdmin c.opcode, s.tick⟩).dropCmd c.handle

/-- As finish, for the command of handle h, if it is still there. -/
def State.finishH (s : State) (h status r0 r1 : Nat) : State :=
  match s.cmd h with
  | some c => s.finish c status 0 r0 r1
  | none => s

/-- INDEX of the latest retained record that satisfies p, 0 for none (Table 3.10, DEVICE_FAULT). -/
def State.recIndex (s : State) (p : Rec → Bool) : Nat :=
  match s.flt.log.reverse.find? p with
  | some r => r.index.toNat
  | none => 0

/-- Status codes (Table 3.10). -/
def stOk : Nat := 0
def stBusy : Nat := 1
def stInvalid : Nat := 2
def stNotPermitted : Nat := 3
def stNotReady : Nat := 4
def stCommitted : Nat := 5
def stAborted : Nat := 6
def stAuthFail : Nat := 7
def stCheckFail : Nat := 8
def stNoFit : Nat := 9
def stKeyErased : Nat := 0xA
def stPathLost : Nat := 0xB
def stPoisoned : Nat := 0xC
def stTimeout : Nat := 0xD
def stDenied : Nat := 0xE
def stMode : Nat := 0xF
def stIndeterminate : Nat := 0x10
def stQuota : Nat := 0x11
def stDeviceFault : Nat := 0x12

/-! ## Fault reports (R394-R404) -/

/-- The class of a report kind: the high digit of its code (Table 14.1). -/
def kindClass (k : Byte) : Nat := k.toNat / 16

/-- The record a report makes (R397). -/
def mkRec (s : State) (r : Report) : Rec :=
  { tick := s.tick, index := s.flt.next, source := r.source, kind := r.kind, cls := BitVec.ofNat 3 (kindClass r.kind),
    simul := false, inj := r.inj, blaze := false, prior := false, secure := r.secure, tid := r.tid, func := r.func,
    detail := r.detail }

/-- The better of two reports of one window for the blaze: higher class, then lower SOURCE (R400). -/
def blazeBetter (a b : Rec) : Rec :=
  if a.cls.toNat < b.cls.toNat then b
  else if a.cls.toNat = b.cls.toNat && b.source.toNat < a.source.toNat then b else a

/-- The report the blaze takes from a window, given what the blaze held before the window (R400). -/
def blazePick (min : Nat) (before : Option Rec) (win : List Rec) : Option Rec :=
  let floor := match before with
    | none => min
    | some b => if b.cls.toNat < 4 then 4 else 5
  (win.filter (fun r => floor ≤ r.cls.toNat)).foldl (fun acc r => match acc with | none => some r | some a => some (blazeBetter a r)) none

/-- The flags of a window's records: BLAZE on the one taken and SIMUL on every other; none taken: SIMUL on all of two or more (R399). -/
def flagWindow (pick : Option Rec) (win : List Rec) : List Rec :=
  win.map (fun r =>
    let own := match pick with | some b => b.index = r.index | none => false
    { r with blaze := own, simul := !own && (pick.isSome || 2 ≤ win.length) })

/-- SMB_ALERT_N is asserted: a class at or above ALERT_MIN is outstanding (R403). -/
def Flt.alert (f : Flt) : Bool :=
  ((upTo 4).any (fun k => f.outst.getLsbD k && f.alertMin.toNat ≤ k + 1)) || f.grave

/-- The FLT's part of one report: record, log, window, blaze, outstanding classes, counters (R397-R400, R403). -/
def Flt.take (f : Flt) (now : Nat) (r : Rec) : Flt :=
  let same := f.winTick == some now
  let before := if same then f.winBlaze else f.blaze
  let len := if same then f.winLen + 1 else 1
  let log1 := f.log ++ [r]
  let win := log1.drop (log1.length - len)
  let pick := blazePick f.blazeMin.toNat before win
  let win' := flagWindow pick win
  let log2 := log1.take (log1.length - len) ++ win'
  let excess := log2.length - 1024
  let c := r.cls.toNat
  { f with
    log := log2.drop excess, lost := sat32 f.lost excess, next := f.next + 1,
    winTick := some now, winBlaze := before, winLen := min len 1024,
    blaze := match pick with
      | none => before
      | some b => (win'.find? (fun x => x.index = b.index))
    outst := if c = 0 then f.outst else f.outst ||| BitVec.ofNat 4 (1 <<< (c - 1)),
    lastRep := Sp.put f.lastRep 0 c now,
    classCount := Sp.put f.classCount 0 c (sat64 (Sp.look f.classCount 0 c) 1) }

/-! ## Generations and images (R104, R124, R136, R137) -/

/-- The successor of a generation (R104). -/
def genSucc (g : BitVec 12) : BitVec 12 := if g = 0xFFF then 1 else g + 1

/-- n successor steps (R136): the generations 1-4095 as a cycle. -/
def genPlus (g : BitVec 12) (n : Nat) : BitVec 12 := BitVec.ofNat 12 ((g.toNat - 1 + n) % 4095 + 1)

/-- Generations from a forward to b (R104). -/
def genDist (a b : BitVec 12) : Nat := (b.toNat + 4095 - a.toNat) % 4095

/-- g lies in the window from W up to, but not including, N (R137). -/
def Window.mem (w : Window) (g : BitVec 12) : Bool := genDist w.w g < genDist w.w w.n

/-- The window of index i while the doubt table is open (R137). -/
def Doubt.win (d : Doubt) (i : Nat) : Window := Sp.look d.wins d.base i

/-- The generation an allocation of i takes: outside an open doubt window (R136). -/
def State.allocGen (s : State) (i : Nat) : BitVec 12 :=
  let g := (s.entry i).gen
  match s.deck.doubt with
  | some d => if (d.win i).mem g then (d.win i).n else g
  | none => g

/-- The generation an index carries after its transaction has ended (R105, R136). -/
def State.nextGen (s : State) (i : Nat) : BitVec 12 :=
  let jump := Sp.look s.tly.jumpGen 0 i
  if jump = 0 then genSucc (s.entry i).gen else jump

/-- The entry at i as the generation table of a compact image records it: a FREE index with the generation its next allocation carries, a COMPLETE one, which the image does not list, with the one it takes when FREE (R118, R124). -/
def State.tableGen (s : State) (i : Nat) : BitVec 12 :=
  match (s.entry i).state with
  | .free => s.allocGen i
  | .complete => s.nextGen i
  | _ => (s.entry i).gen

/-- States that count towards the priority count (Table 4.3). -/
def TState.prio : TState → Bool
  | .free => false | .complete => false | _ => true

/-- An image of the Tally as it stands, numbered by the next SEQ (R124, R126, R128). -/
def State.image (s : State) (k : ImgKind) (stale : Bool) : Image :=
  let full : Bool := k == .full
  { kind := k, stale := stale, seq := s.deck.seq + 1, stamp := s.tick, secLimit := s.tly.secLimit
    reuseHold := s.tly.reuseHold, ckptPeriod := s.tly.ckptPeriod, base := s.tly.genBase
    gens := (s.tly.entries.map (fun e => (e.1, if full then e.2.gen else s.tableGen e.1))).filter (fun e => e.2 != s.tly.genBase)
    entries := s.tly.entries.filter (fun e => if full then e.2.state != .free else e.2.state.prio) }

/-- One free value has been drawn. -/
def State.drawn (s : State) : State := { s with fresh := s.fresh + 1 }

/-- HP_ATTN_N of both ports is driven (R453). -/
def State.attnDrive (s : State) (on : Bool) : State :=
  (upTo 2).foldl (fun t p =>
    if (t.port p).attn = on then t else (t.updPort p (fun q => { q with attn := on })).emit (.attn (if p = 0 then 0 else 1) on)) s

/-- The serialisers of every link go into electrical idle (R30, R444, R454); STATE then reads DISABLED (DEDUCED, log 100). -/
def State.quietLinks (s0 : State) : State :=
  let s := s0.setPwr (fun p => { p with grants := p.grants.filter (fun g => g.cls ≠ 6) })
  (s.ch.links.map (fun x => x.1)).foldl (fun t l => t.updLink l (fun x => { x with state := .disabled, blockLock := false, fecLock := false })) s

/-- The grave stop (R404, Table 14.5), for an F4 whose source is `src`. Its image is written by SKID_IMAGE_WRITTEN. -/
def State.graveStop (s : State) (src : W16) : State :=
  if s.flt.grave then s
  else
    let noImg := src = 0x1600 || src = 0x1601 || !s.start.loaded || s.start.skidDone
    let s1 : State :=
      { s with
        flt := { s.flt with grave := true, aliveOn := false, alive := false }
        tly := { s.tly with stopped := true }
        start := { s.start with
          phase := 7, skidDone := s.start.skidDone || !noImg,
          writing := if noImg then s.start.writing else some (.grave, some (s.image .full false)) }
        deck := if s.pwr.stop then s.deck else { s.deck with blaze := s.flt.blaze } }
    let s2 := (s1.updPort 0 (fun q => { q with viralOut := true })).updPort 1 (fun q => { q with viralOut := true })
    let s3 := if noImg then s2 else s2.askGrant 1 8 whoSkid
    ((s3.quietLinks.emit (.alive false)).attnDrive true)

/-- An injection of `unit` ends with a status and value: the INJECT completes, or FLT_INJ_RESULT reports it if no later FLT_INJ_GO has been written (R98, R412, R413). -/
def State.injEnd (s : State) (unit : W16) (status val : Nat) : State :=
  match s.flt.inj.find? (fun j => j.unit = unit) with
  | none => s
  | some j =>
    let s1 := s.setFlt (fun f => { f with inj := f.inj.filter (fun x => x.unit != unit) })
    match j.handle with
    | some h => s1.finishH h status val 0
    | none => s1.setFlt (fun f => if j.seq = f.injSeq then { f with injStatus := BitVec.ofNat 8 status, injVal := BitVec.ofNat 32 val } else f)

/-- The fault an injection produced has been recorded as `index`: the injection completes with OK; that of the MP once the MP runs again (R412). -/
def State.injRecorded (s : State) (unit : W16) (index : W32) : State :=
  if unit = 0x1603 then
    s.setFlt (fun f => { f with inj := f.inj.map (fun j => if j.unit = unit then { j with fired := true, index := index } else j) })
  else s.injEnd unit stOk index.toNat

/-- A report reaches the FLT (R394-R404): recorded; FAULT_NOTICE for a function at F2 and above; F4 declares the grave stop. -/
def State.report (s : State) (r : Report) : State :=
  if !s.on then s
  else
    let s1 := s.setFlt (fun f => f.take s.tick (mkRec s r))
    let c := kindClass r.kind
    let s1i := if r.inj then s1.injRecorded r.source s.flt.next else s1
    let s2 := if 2 ≤ c && r.func.toNat ≤ 0x101 then s1i.setEvent r.func.toNat 3 else s1i
    if c = 4 then s2.graveStop r.source else s2

/-- A report with no transaction, no function and no injection. -/
def State.rep0 (s : State) (source kind detail : Nat) : State :=
  s.report ⟨BitVec.ofNat 16 source, BitVec.ofNat 8 kind, 0, 0x1FE, BitVec.ofNat 64 detail, false, false⟩

/-- A report that names a function (R103, R452). -/
def State.repF (s : State) (source kind func detail : Nat) : State :=
  s.report ⟨BitVec.ofNat 16 source, BitVec.ofNat 8 kind, 0, BitVec.ofNat 9 func, BitVec.ofNat 64 detail, false, false⟩

/-- A report that names a transaction (R397). -/
def State.repT (s : State) (source kind : Nat) (tid : W32) (func detail : Nat) (inj sec : Bool) : State :=
  s.report ⟨BitVec.ofNat 16 source, BitVec.ofNat 8 kind, tid, BitVec.ofNat 9 func, BitVec.ofNat 64 detail, inj, sec⟩

/-- INDEX of the record a report made last. -/
def State.lastIndex (s : State) : W32 := s.flt.next - 1

/-- The unit designators (Table 14.2). -/
def uTally : Nat := 0x1600
def uDeck : Nat := 0x1601
def uKeys : Nat := 0x1602
def uMp : Nat := 0x1603
def uHost : Nat := 0x1604
def uTru : Nat := 0x1605
def uPe (n : Nat) : Nat := 0x1000 + n
def uLink (l : Nat) : Nat := 0x1400 + l
def uHome (h : Nat) : Nat := 0x1300 + h
def uL2 (c : Nat) : Nat := 0x1200 + c
def uBank (c b : Nat) : Nat := 0x1100 + 16 * c + b
def uGrp (g : Nat) : Nat := 0x100 + g
def uCoder (c : Nat) : Nat := 0x200 + c

/-- The record's flag byte and bytes in memory order (Table 14.3); `hide` for a SECURE record read by a PF (R401). -/
def Rec.bytes (r : Rec) (hide : Bool) : List Byte :=
  let h := hide && r.secure
  leBytes r.tick 8 ++ leBytes r.index.toNat 4 ++ leBytes r.source.toNat 2 ++ leBytes r.kind.toNat 1 ++
    leBytes (fields [(0, r.cls.toNat), (3, b2n r.simul), (4, b2n r.inj), (5, b2n r.blaze), (6, b2n r.prior), (7, b2n r.secure)]) 1 ++
    leBytes (if h then 0 else r.tid.toNat) 4 ++ leBytes (if h then 0x1FF else r.func.toNat) 2 ++ leBytes 0 2 ++
    leBytes (if h then 0 else r.detail.toNat) 8

/-- Unit `u` has an armed injection whose mask meets `m` (R410). -/
def State.armed (s : State) (u m : Nat) : Bool :=
  s.flt.inj.any (fun j => j.unit.toNat = u && (j.mask.toNat &&& m) ≠ 0 && !j.fired)

/-- The mask of the injection armed in unit `u`. -/
def State.injMaskOf (s : State) (u : Nat) : Nat :=
  match s.flt.inj.find? (fun j => j.unit.toNat = u && !j.fired) with
  | some j => j.mask.toNat
  | none => 0

/-- The injection armed in unit u has produced its fault, which waits to be found and recorded (R410, R412). -/
def State.fire (s : State) (u : Nat) : State :=
  s.setFlt (fun f => { f with inj := f.inj.map (fun j => if j.unit.toNat = u then { j with fired := true } else j) })

/-- Unit u retires or changes owner while an injection is armed in it: the injection is withdrawn (R412). -/
def State.injWithdraw (s : State) (u : Nat) : State :=
  if s.flt.inj.any (fun j => j.unit.toNat = u && !j.fired) then s.injEnd (BitVec.ofNat 16 u) stNotPermitted 8 else s

end Sys2Proof.Machine
end

