-- ==== Sys2Proof/Machine/TallyOps.lean ====
section
/-! DEFINITION. Entry operations of the Tally and what they set off: states, generations, freeing, notes, outcome frames, final completions (R99-R138), and the path groups and links they go through (R160-R165). -/

namespace Sys2Proof.Machine

/-! ## Codes and counts -/

/-- State codes (Table 4.3). -/
def TState.code : TState → Nat
  | .free => 0 | .opened => 1 | .active => 2 | .held => 3 | .committed => 4 | .complete => 5 | .aborted => 6

/-- OPEN, ACTIVE or HELD. -/
def TState.pre : TState → Bool
  | .opened => true | .active => true | .held => true | _ => false

/-- The 256 bits of an entry (Table 4.2). -/
def Entry.toNat (e : Entry) : Nat :=
  fields [(0, e.gen.toNat), (12, e.state.code), (15, e.func.toNat), (24, e.qpair.toNat), (27, e.slot.toNat), (39, e.cmdId.toNat),
    (55, b2n e.posted), (64, b2n e.stale), (65, b2n e.interimSent), (66, b2n e.noted), (67, b2n e.consumed), (68, e.prio.toNat),
    (70, e.opc.toNat), (73, e.groupA.toNat), (83, e.groupB.toNat), (93, e.groupC.toNat), (103, e.reqMask.toNat),
    (106, e.ackMask.toNat), (109, e.lostMask.toNat), (112, e.outPend.toNat), (115, e.linkSel.toNat), (121, e.engine.toNat),
    (128, b2n e.ckptValid), (129, e.ckptSeq.toNat), (145, e.ckptPc.toNat), (160, e.nextSeq.toNat), (176, e.resent.toNat),
    (192, e.result0.toNat), (224, e.result1.toNat)]

/-- TID: index in bits 19:0, generation in bits 31:20 (R22). -/
def tidOf (i : Nat) (g : BitVec 12) : W32 := BitVec.ofNat 32 (g.toNat <<< 20 ||| i)
def tidIdx (t : W32) : Nat := bitsOf t.toNat 0 20
def tidGen (t : W32) : BitVec 12 := BitVec.ofNat 12 (bitsOf t.toNat 20 12)

/-- The TID of the entry at i. -/
def State.tidAt (s : State) (i : Nat) : W32 := tidOf i (s.entry i).gen

/-- The full TID names the live entry: generation equal and not FREE (R108). -/
def State.tidLive (s : State) (t : W32) : Bool :=
  (s.entry (tidIdx t)).gen = tidGen t && (s.entry (tidIdx t)).state != .free

/-- TID t is in an open doubt window and its entry does not hold it (R133). -/
def State.inWindow (s : State) (t : W32) : Bool :=
  match s.deck.doubt with
  | none => false
  | some d => !s.tidLive t && (d.win (tidIdx t)).mem (tidGen t)

/-- Index i lies in the secure partition (R102). -/
def State.secIdx (s : State) (i : Nat) : Bool := i < s.tly.secLimit.toNat * 4096

/-- Entries of function f in use (R110). -/
def State.inUse (s : State) (f : Nat) : Nat :=
  s.tly.entries.countP (fun e => e.2.func.toNat = f && e.2.state != .free)

/-- The priority count (R110). -/
def State.prioCount (s : State) : Nat := s.tly.entries.countP (fun e => e.2.state.prio)

/-- Entries of the normal partition in state code c (Table 4.8). -/
def State.stateCount (s : State) (c : Nat) : Nat :=
  if c = 0 then 1048576 - s.tly.secLimit.toNat * 4096 - s.tly.entries.countP (fun e => e.2.state != .free && !s.secIdx e.1)
  else s.tly.entries.countP (fun e => e.2.state.code = c && !s.secIdx e.1)

/-! ## Groups of an entry, links of a group -/

/-- Group named in slot g of an entry: A, B, C. -/
def Entry.grp (e : Entry) (g : Nat) : Nat :=
  if g = 0 then e.groupA.toNat else if g = 1 then e.groupB.toNat else e.groupC.toNat

/-- Slot g of an entry names a group: its bit was set in REQ_MASK at allocation (Table 4.2). -/
def Entry.names (e : Entry) (g : Nat) : Bool := e.reqMask.getLsbD g

/-- The entry names group n (Table 3.8, GROUP_DELETE). -/
def Entry.namesGroup (e : Entry) (n : Nat) : Bool := (upTo 3).any (fun g => e.names g && e.grp g = n)

/-- The slot of entry e that names group n. -/
def Entry.slotOf (e : Entry) (n : Nat) : Option Nat := (upTo 3).find? (fun g => e.names g && e.grp g = n)

/-- The link in slot k of a group, if valid (Table 5.17). -/
def Group.linkAt (g : Group) (k : Nat) : Option Nat :=
  let v := if k = 0 then g.s0 else if k = 1 then g.s1 else if k = 2 then g.s2 else g.s3
  if v.getLsbD 8 then some (v.toNat % 256) else none

/-- Slots and links of a group. -/
def Group.links (g : Group) : List (Nat × Nat) :=
  (upTo 4).filterMap (fun k => (g.linkAt k).map (fun l => (k, l)))

/-- Link l belongs to the group. -/
def Group.has (g : Group) (l : Nat) : Bool := g.valid && g.links.any (fun x => x.2 = l)

def State.linkUp (s : State) (l : Nat) : Bool := (s.link l).state == .up

/-- The UP links of group n, in slot order. -/
def State.upLinks (s : State) (n : Nat) : List (Nat × Nat) :=
  if (s.group n).valid then (s.group n).links.filter (fun x => s.linkUp x.2) else []

/-- Bytes queued on a link (R161). -/
def Link.queued (l : Link) : Nat := ((l.dataQ ++ l.ctrlQ).map (fun x => 20 + x.f.payload.length)).sum

/-- The group's UP link with the fewest bytes queued; ties go to the lowest slot (R161). -/
def State.pickLink (s : State) (n : Nat) : Option (Nat × Nat) :=
  (s.upLinks n).foldl (fun acc x => match acc with
    | none => some x
    | some y => if (s.link x.2).queued < (s.link y.2).queued then some x else some y) none

/-- The next UP link of the group after slot k, cyclically (R158, R164). -/
def State.nextLink (s : State) (n k : Nat) : Option (Nat × Nat) :=
  let ups := s.upLinks n
  match ups.find? (fun x => k < x.1) with
  | some x => some x
  | none => ups.head?

/-- LINK_SEL of slot g (Table 4.2). -/
def Entry.sel (e : Entry) (g : Nat) : Nat := bitsOf e.linkSel.toNat (2 * g) 2
def Entry.setSel (e : Entry) (g k : Nat) : Entry := { e with linkSel := BitVec.ofNat 6 (putBits e.linkSel.toNat (2 * g) 2 k) }

/-- Put a frame on link l's queue: data frames and control frames wait for their own credits (R151). -/
def State.queueBuilt (s : State) (l : Nat) (q : Queued) : State :=
  s.updLink l (fun x => if q.f.type = 1 then { x with dataQ := x.dataQ ++ [q] } else { x with ctrlQ := x.ctrlQ ++ [q] })

/-- Queue a frame built now (R169). -/
def State.queueFrame (s : State) (l : Nat) (f : Frame) : State := s.queueBuilt l ⟨f, s.tick⟩

/-- A frame with a TID (Table 5.2); LSEQ is given when it is sent. -/
def State.mkFrame (s : State) (type flags group tenant : Nat) (tid : W32) (seq : Nat) (pl : List Byte) : Frame :=
  ⟨BitVec.ofNat 4 type, BitVec.ofNat 8 flags, (s.group group).partner, BitVec.ofNat 10 group, BitVec.ofNat 9 tenant, 0, tid, BitVec.ofNat 16 seq, pl⟩

/-! ## Events to the engine (R199) -/

/-- An event word (Table 6.6). -/
def eventWord (tid : W32) (kind slot val : Nat) : W64 :=
  BitVec.ofNat 64 (fields [(0, val % 2 ^ 25), (26, slot), (28, kind), (32, tid.toNat)])

/-- The sources of events. -/
def EvSrc.all : List EvSrc := [.ch, .gal, .cph, .tly]

/-- An event queue whose entries have the sources l takes one more of source k: 16 shared entries, and one of each source's own, which its oldest event stands in (R26, R199, DEDUCED, log 95). -/
def evRoom (l : List EvSrc) (k : EvSrc) : Bool := (EvSrc.all.map (fun j => (k :: l).count j - 1)).sum ≤ 16

/-- An event joins the queue, or waits at its source (R26, R199). -/
def Eng.evPush (x : Eng) (k : EvSrc) (w : W64) : Eng :=
  if evRoom x.evBy k && !x.evWait.any (fun y => y.1 = k) then { x with evq := x.evq ++ [w], evBy := x.evBy ++ [k] }
  else { x with evWait := x.evWait ++ [(k, w)] }

/-- The oldest event leaves the queue, and events that waited for room join it in the order they occurred. -/
def Eng.evNext (x : Eng) : Eng :=
  x.evWait.foldl (fun y p => y.evPush p.1 p.2) { x with evq := x.evq.drop 1, evBy := x.evBy.drop 1, evWait := [] }

/-- The source of an event: of a BADREQ the queue it names, of kinds 5 and 6 the Tally, else CH (R199, Table 6.6). -/
def evSource (kind val : Nat) : EvSrc :=
  if kind = 5 || kind = 6 then .tly else if kind = 8 && val % 4 = 2 then .gal else if kind = 8 && val % 4 = 3 then .cph else .ch

/-- An internal message names the TID t: one whose generation is not the entry's is counted (R108). -/
def State.lateMessage (s : State) (t : W32) : State :=
  if t = 0 || (s.entry (tidIdx t)).gen = tidGen t then s else s.setTly (fun y => { y with lateInternal := sat32 y.lateInternal 1 })

/-- Post an event of source k about TID t to logical engine e, if that is its current TID (R199). -/
def State.postFrom (s : State) (e : Nat) (k : EvSrc) (t : W32) (kind slot val : Nat) : State :=
  let x := s.le e
  let s1 := s.lateMessage t
  if x.running && x.tid = t && t != 0 then
    s1.updLe e (fun y => { y.evPush k (eventWord t kind slot val) with ended := y.ended || kind = 5 || kind = 6 })
  else s1

/-- Post an event of CH, of the Tally, or of a request queue. -/
def State.postTo (s : State) (e : Nat) (t : W32) (kind slot val : Nat) : State := s.postFrom e (evSource kind val) t kind slot val

/-- Post an event to the engine that runs the entry of TID t. -/
def State.postEvent (s : State) (t : W32) (kind slot val : Nat) : State :=
  match s.eng.les.find? (fun x => x.2.running && x.2.tid = t) with
  | some x => s.postTo x.1 t kind slot val
  | none => s.lateMessage t

/-! ## Final completions (R82, R93, R116) -/

/-- Register queue index of a function's QPAIR (Table 4.2, R40). -/
def qOfPair (f qp : Nat) : Nat := if isPf f then qp + 1 else qp

/-- The command that holds the entry at i. -/
def State.cmdOf (s : State) (i : Nat) : Option Cmd :=
  s.qm.cmds.find? (fun c => match c.stage with | .entry j => j = i | _ => false)

/-- A completion about the entry at i falls due on the queue of its command, or of QPAIR of FUNC after a restore (R132). -/
def State.dueEntry (s : State) (i : Nat) (k : DueKind)  : State :=
  match s.cmdOf i with
  | some c => s.addDue c.func c.q ⟨k, c.cmdId, c.clamped, c.handle, isAdmin c.opcode, s.tick⟩
  | none =>
    let e := s.entry i
    s.addDue e.func.toNat (qOfPair e.func.toNat e.qpair.toNat) ⟨k, e.cmdId, false, 0, false, s.tick⟩

/-- A final completion of the entry at i is due already. -/
def State.finalWaits (s : State) (i : Nat) : Bool :=
  s.qm.queues.any (fun q => q.2.due.any (fun d => match d.kind with | .finalOf j => j = i | _ => false))

/-- The final completion of a secure-partition entry that no gateway call waits for is not owed (R383). -/
def State.noOwner (s : State) (i : Nat) : Bool := (s.entry i).func = 0x1FF && (s.cmdOf i).isNone

/-- The final completion of the entry at i falls due if R116 allows it. -/
def State.dueCheck (s : State) (i : Nat) : State :=
  let e := s.entry i
  let ok : Bool := match e.state with
    | .aborted => e.outPend = 0 || e.noted
    | .committed => e.reqMask != 0 || e.noted
    | _ => false
  if ok && !e.posted && !s.finalWaits i && !s.noOwner i then s.dueEntry i (.finalOf i) else s

/-! ## Freeing (R105, R111, R117) -/

/-- Free every abort note of the TID (R117): one in the Deck is overwritten at once, or when the NV stop ends (R129, R436). -/
def State.freeAbortNote (s : State) (t : W32) : State :=
  let its := fun (n : Note) => n.tid = t && !n.commit
  s.setDeck (fun d => { d with
    notes := (d.notes.filter (fun n => !its n || (n.written && s.pwr.stop))).map (fun n => if its n then { n with gone := true } else n) })

/-- COMPLETE or ABORTED becomes FREE when CONSUMED = 1 and OUT_PEND = 0 (Table 4.4); GEN takes its successor (R105), the index joins its bank's list (R107), and the work record goes (R196). -/
def State.freeCheck (s : State) (i : Nat) : State :=
  let e := s.entry i
  if (e.state == .complete || e.state == .aborted) && e.consumed && e.outPend = 0 then
    let t := s.tidAt i
    let s1 := s.setEntry i (Entry.free (s.nextGen i))
    let s2 := s1.setTly (fun y => { y with
      freed := y.freed ++ [(i, s.tick + us y.reuseHold.toNat, false)], jumpGen := Sp.put y.jumpGen 0 i 0,
      noteDue := Sp.put y.noteDue 0 i 0, outMsgs := y.outMsgs.filter (fun m => m.tid != t) })
    let s3 := s2.setQm (fun q => { q with work := Sp.put q.work none i none })
    let s4 := (upTo 3).foldl (fun z g => z.updFlow i g (fun _ => Flow.init)) s3
    s4.setDeck (fun d => { d with notes := d.notes.map (fun n => if n.tid = t && n.commit then { n with freedAt := some s.tick } else n) })
  else s

/-! ## Notes (R117, R129) -/

/-- A note of the TID is in the ring or waits for it. -/
def State.hasNote (s : State) (t : W32) (commit : Bool) : Bool :=
  s.deck.notes.any (fun n => n.tid = t && n.commit = commit && !n.gone)

/-- Queue a note for the Deck; NOTE_WRITTEN writes it (R117). -/
def State.addNote (s : State) (i : Nat) (commit : Bool) : State :=
  let t := s.tidAt i
  if s.hasNote t commit then s
  else s.setDeck (fun d => { d with notes := d.notes ++ [⟨t, (s.entry i).func, commit, false, none, false⟩] })

/-! ## Outcomes (R115, R164) -/

/-- Send one outcome frame or question on a link, built now, and note the sending; one sent before carries RESENT (Table 5.4, R169). -/
def State.sendMsg (s : State) (m : OutMsg) (slot l : Nat) : State :=
  let f := s.mkFrame m.type (if m.again then 0x10 else 0) m.group.toNat m.tenant.toNat m.tid 0 []
  (s.queueFrame l f).setTly (fun y => { y with outMsgs := y.outMsgs.map (fun x =>
    if x.tid = m.tid && x.slot = m.slot && x.type = m.type then { x with sent := true, again := true, lastSend := s.tick, link := slot } else x) })

/-- The link a message first goes on: LINK_SEL of the entry if UP, else another UP link of the group (R164). -/
def State.msgLink (s : State) (m : OutMsg) (sel : Nat) : Option (Nat × Nat) :=
  match (s.upLinks m.group.toNat).find? (fun x => x.1 = sel) with
  | some x => some x
  | none => (s.upLinks m.group.toNat).head?

/-- Add a message and send it if a link of its group is UP (R162, R164, R165). -/
def State.addMsg (s : State) (m : OutMsg) (sel : Nat) : State :=
  let s1 := s.setTly (fun y => { y with outMsgs := y.outMsgs ++ [m] })
  match s1.msgLink m sel with
  | some x => s1.sendMsg m x.1 x.2
  | none => s1

/-- RESULT (8) or CANCEL (9) to every group in OUT_PEND of the entry at i (R115). -/
def State.sendOutcome (s : State) (i type : Nat) : State :=
  let e := s.entry i
  (upTo 3).foldl (fun z g =>
    if e.outPend.getLsbD g then
      z.addMsg ⟨s.tidAt i, g, BitVec.ofNat 10 (e.grp g), e.func, type, e.sel g, z.tick, false, false⟩ (e.sel g)
    else z) s

/-- A pending group of the entry has no link UP (R117). -/
def State.pendNoLink (s : State) (i : Nat) : Bool :=
  let e := s.entry i
  (upTo 3).any (fun g => e.outPend.getLsbD g && (s.upLinks (e.grp g)).isEmpty)

/-- The entry at i goes to ABORTED with a final status and value (R114, R115, R117); `own`: by the engine's own TL_FAIL (R199). -/
def State.abortEntry (s : State) (i status value : Nat) (own : Bool) : State :=
  let t := s.tidAt i
  let s1 := s.updEntry i (fun e => { e with state := .aborted, result1 := BitVec.ofNat 32 status, result0 := BitVec.ofNat 32 value })
  let s2 := if own then s1 else s1.postEvent t 6 0 0
  let s3 := s2.sendOutcome i 9
  let e := s3.entry i
  let s4 :=
    if e.outPend = 0 then s3
    else if s3.pendNoLink i then s3.addNote i false
    else s3.setTly (fun y => { y with noteDue := Sp.put y.noteDue 0 i (s.tick + 20000) })
  (s4.dueCheck i).freeCheck i

/-- The entry at i goes to COMMITTED (R115, R116, R119). -/
def State.commitEntry (s : State) (i : Nat) (r0 r1 : W32) : State :=
  let s1 := s.updEntry i (fun e => { e with state := .committed, result0 := r0, result1 := r1 })
  let s2 := s1.sendOutcome i 8
  let s3 := if (s2.entry i).reqMask = 0 then s2.addNote i true else s2
  s3.dueCheck i

/-- TL_FAIL's status: one of six, any other value DEVICE_FAULT (R114). -/
def failStatus (v : Nat) : Nat :=
  if v = stNotPermitted || v = stPoisoned || v = stTimeout || v = stAuthFail || v = stCheckFail || v = stDeviceFault then v else stDeviceFault

/-- End OPEN, ACTIVE or HELD without a program: DEVICE_FAULT and the INDEX of the causing record (R114). -/
def State.failEntry (s : State) (i : Nat) (index : W32) : State :=
  if (s.entry i).state.pre then s.abortEntry i stDeviceFault index.toNat false else s

/-- Slot g's group of an entry is lost (R112, R162): ACTIVE becomes HELD, the interim falls due, LOST is posted, the stored frames go, an F3 is logged. A further loss in the HELD period posts nothing. -/
def State.loseGroup (s : State) (i g srcLink : Nat) : State :=
  let e := s.entry i
  let t := s.tidAt i
  let bit : BitVec 3 := BitVec.ofNat 3 (1 <<< g)
  let drop := fun (z : State) => z.updFlow i g (fun f => { f with stored := [] })
  if e.state == .active then
    let s1 := s.setEntry i { e with state := .held, lostMask := e.lostMask ||| bit }
    let s2 := drop ((s1.dueEntry i (.interim (BitVec.ofNat 8 stPathLost) i)).postEvent t 5 g 0)
    s2.repT (uLink srcLink) 0x31 t e.func.toNat (e.grp g) false (e.func = 0x1FF)
  else if e.state == .held then
    (drop (s.setEntry i { e with lostMask := e.lostMask ||| bit })).repT (uLink srcLink) 0x31 t e.func.toNat (e.grp g) false (e.func = 0x1FF)
  else s

/-! ## QUERY encodings (Table 4.6) -/

def Entry.q0 (e : Entry) : Nat :=
  fields [(0, e.state.code), (3, b2n e.stale), (4, b2n e.posted), (5, e.outPend.toNat), (8, e.lostMask.toNat)]
def Entry.q1 (e : Entry) : Nat := fields [(0, e.resent.toNat), (16, e.ackMask.toNat)]

/-! ## Allocation (R106, R107, Table 4.1) -/

/-- Rows of a bank in the partition: from lo to hi - 1 (R99, R102). -/
def State.rowRange (s : State) (sec : Bool) : Nat × Nat :=
  let lim := s.tly.secLimit.toNat * 64
  if sec then (0, lim) else (lim, 16384)

/-- Index i may be allocated: FREE and not withheld (R137). -/
def State.allocOk (s : State) (i : Nat) : Bool :=
  (s.entry i).state == .free && !(match s.deck.doubt with | some d => (d.win i).withheld | none => false)

/-- The first row at or above r, below hi, of a bank whose index is FREE, has not been freed since the restore, and may be allocated. -/
def State.virginRow (s : State) (bank hi : Nat) : Nat → Nat → Option Nat
  | 0, _ => none
  | n + 1, r =>
    if hi ≤ r then none
    else if s.allocOk (64 * r + bank) && !s.tly.freed.any (fun x => x.1 = 64 * r + bank) then some r
    else State.virginRow s bank hi n (r + 1)

/-- The oldest index of a bank and partition whose hold has elapsed (R107). -/
def State.oldest (s : State) (sec : Bool) (bank : Nat) : Option Nat :=
  let (lo, hi) := s.rowRange sec
  let start := max lo (Sp.look s.tly.virgin 0 (bank + (if sec then 64 else 0)))
  match s.virginRow bank hi (hi - start) start with
  | some r => some (64 * r + bank)
  | none => (s.tly.freed.find? (fun x => x.1 % 64 = bank && s.secIdx x.1 = sec && x.2.2 && s.allocOk x.1)).map (fun x => x.1)

/-- The next allocation: the banks in rotation from `rotor` (R107). -/
def State.pickIndex (s : State) (sec : Bool) : Option Nat :=
  ((upTo 64).findSome? (fun k => s.oldest sec ((s.tly.rotor + k) % 64)))

/-- Some index of the partition is FREE, in hold or not (Table 4.1 row 3). -/
def State.anyFree (s : State) (sec : Bool) : Bool :=
  let (lo, hi) := s.rowRange sec
  let used := s.tly.entries.countP (fun e => e.2.state != .free && s.secIdx e.1 = sec)
  match s.deck.doubt with
  | none => used < 64 * (hi - lo)
  | some d =>
    let tally := fun (h : Bool) => d.wins.countP (fun w => w.2.withheld = h && s.secIdx w.1 = sec && (s.entry w.1).state == .free)
    if d.base.withheld then 0 < tally false else used + tally true < 64 * (hi - lo)

/-- The checkpoint guard holds allocation (R127). -/
def State.guardHolds (s : State) : Bool :=
  s.tly.guard || s.tly.lastCkpt + 1000 * us s.tly.reuseHold.toNat ≤ s.tick

/-- Take index i out of its bank's list. -/
def State.takeIndex (s : State) (i : Nat) : State :=
  let key := i % 64 + (if s.secIdx i then 64 else 0)
  s.setTly (fun y => { y with
    freed := y.freed.filter (fun x => x.1 != i),
    virgin := if y.freed.any (fun x => x.1 = i) then y.virgin else Sp.put y.virgin 0 key (i / 64 + 1),
    rotor := (i % 64 + 1) % 64 })

end Sys2Proof.Machine
end

