-- ==== Sys2Proof/Machine/Memory.lean ====
section
/-! DEFINITION. The memory system: address ranges and permissions (R59, R195, R285, R290, R291), Landing sectors and scratch words with their checks (R281-R288), the L1, victim cache and L2 (R263-R273). -/

namespace Sys2Proof.Machine

/-! ## Address ranges (Table 6.8, Table 9.1) -/

/-- What an engine address reaches. -/
inductive Zone where
  | landing | system | scratch (k : Nat) | tally | host | device | none
deriving DecidableEq, Repr

/-- The range of Table 6.8 that holds address `a`, for an engine or unit of cluster `c`. -/
def zoneOf (c a : Nat) : Zone :=
  if a < 0xFC0000000 then .landing
  else if a < 0x1000000000 then .system
  else if a < 0x1000100000 then .scratch c
  else if 0x1100000000 ≤ a && a < 0x1101000000 then .scratch ((a - 0x1100000000) / 0x100000)
  else if 0x2000000000 ≤ a && a < 0x2002000000 then .tally
  else if 0x8000000000 ≤ a && a < 0x10000000000 then .host
  else if 0xFF0000000000 ≤ a && a < 0xFF0001000000 then .device
  else .none

/-- The address under which a scratch byte is kept: that of the fabric range (Table 6.8). -/
def canon (c a : Nat) : Nat :=
  if 0x1000000000 ≤ a && a < 0x1000100000 then 0x1100000000 + 0x100000 * c + (a - 0x1000000000) else a

/-- Cluster and bank of a scratch byte at its kept address (R282). -/
def scrCluster (a : Nat) : Nat := (a - 0x1100000000) / 0x100000
def scrBank (a : Nat) : Nat := bitsOf a 3 4

/-- The bank that serves bank b's addresses (R286, R417). -/
def MemCl.serving (m : MemCl) (b : Nat) : Nat := Sp.look m.remap b b

/-- Bank state 0 ON, 1 RETAIN, 2 OFF (R285). -/
def State.bankState (s : State) (k b : Nat) : Nat := (Sp.look (s.memCl k).bank 0 b).toNat

/-- The host window of set m that R59 selects for an address: the first valid one that contains it. -/
def State.window (s : State) (m a : Nat) : Option HWin :=
  let off := (a - 0x8000000000) / 0x200000
  ((upTo 16).map (s.win m)).find? (fun w => w.valid && w.offset.toNat ≤ off && off ≤ w.offset.toNat + w.sizeM1.toNat)

/-- The window set of a function: 0 for both PFs and the secure world, n for VFn (R59, R374). -/
def winSet (f : Nat) (sec : Bool) : Nat := if sec || isPf f || 0x101 < f then 0 else f

/-- The host physical address of an engine address, if the selected window permits the access (R59, R60). -/
def State.hpaOf (s : State) (f : Nat) (sec : Bool) (a : Nat) (write : Bool) : Option Nat :=
  match s.window (winSet f sec) a with
  | some w =>
    if (if write then w.write else w.read) then
      some (w.hpa.toNat * 0x200000 + (a - 0x8000000000 - w.offset.toNat * 0x200000))
    else none
  | none => none

/-- A unit's or command's access to one address is permitted (R59, R285, R290, R291, R373). -/
def State.byteOk (s : State) (f : Nat) (sec : Bool) (c a : Nat) (write : Bool) : Bool :=
  match zoneOf c a with
  | .landing => sec || s.lnd.watermark.toNat * 0x200000 ≤ a
  | .scratch k => (sec || s.tru.wm.scr.toNat ≤ k) && s.bankState k (scrBank (canon c a)) ≠ 2
  | .host => (s.hpaOf f sec a write).isSome
  | _ => false

/-- The addresses at which permission can change inside a range: its ends, each 2 MiB boundary, and the 16 banks of scratch. -/
def probes (a n : Nat) : List Nat :=
  (upTo (min n 16)).map (fun k => a + 8 * k) ++ (upTo (n / 0x200000 + 1)).map (fun k => a + 0x200000 * k) ++ [a + n - 1]

/-- The range a to a+n-1 lies wholly in one range of Table 6.8 that holds data (R483). -/
def rangeOk (c a n : Nat) : Bool :=
  n = 0 ||
  (match zoneOf c a with
    | .landing => zoneOf c (a + n - 1) == .landing
    | .scratch k => (zoneOf c (a + n - 1) == .scratch k) && (canon c (a + n - 1) - canon c a = n - 1)
    | .host => zoneOf c (a + n - 1) == .host
    | _ => false)

/-- The range is in one range of Table 6.8 and every byte of it is permitted (R483, Table 11.7). -/
def State.rangePerm (s : State) (f : Nat) (sec : Bool) (c a n : Nat) (write : Bool) : Bool :=
  n = 0 || (rangeOk c a n && ((probes a n).filter (fun x => x < a + n)).all (fun x => s.byteOk f sec c x write))

/-! ## Landing sectors (R281, R287, R288) -/

/-- The stack of a Landing address (R287). -/
def stackOf (a : Nat) : Nat := bitsOf a 8 2 ^^^ bitsOf a 16 2 ^^^ bitsOf a 24 2

/-- The stored sector of sector number a and its poison flag. -/
def State.lndSector (s : State) (a : Nat) : Sector × Bool :=
  (secOf (Memory.getN s.bytes (64 * a) 64), Sp.look s.poison false (64 * a))

/-- The designator of Landing stack k (Table 14.2). -/
def uStack (k : Nat) : Nat := 0x1500 + k

/-- Symbols of a Landing check mask that have a bit set (R411). -/
def symbols (m : Nat) : Nat := (upTo 4).countP (fun k => bitsOf m (8 * k) 8 ≠ 0)

/-- LND_ERR_ADDR: bits 35:6 of a sector's address (Table 9.6). -/
def sectorAddr (addr : Nat) : W64 := BitVec.ofNat 64 (bitsOf addr 6 30 * 64)

/-- Store a sector in the Landing with its poison flag; an armed stack inverts its check symbols (R288, Table 14.6). -/
def State.lndWrite (s : State) (a : Nat) (d : Sector) (poison : Bool) : State :=
  let addr := 64 * a
  let u := uStack (stackOf addr)
  let hit := s.lnd.watermark.toNat * 0x200000 ≤ addr && s.armed u 0xFFFFFFFF && addr < 0xFC0000000
  let s1 := { s with
    bytes := Memory.setN s.bytes addr (secBytes d), poison := Sp.put s.poison false addr poison,
    ecc := Sp.put s.ecc 0 addr (if hit then symbols (s.injMaskOf u) else 0) }
  if hit then s1.fire u else s1

/-- A read of a Landing sector by the controller: a wrong symbol is corrected (F1), two poison the sector (F2) (R288). -/
def State.lndCheck (s : State) (a : Nat) (sec : Bool) : State :=
  let addr := 64 * a
  let n := Sp.look s.ecc 0 addr
  if n = 0 then s
  else if n = 1 then
    (({ s with ecc := Sp.put s.ecc 0 addr 0 }).setLnd (fun l => { l with corr := sat32 l.corr 1 })).repT
      (uStack (stackOf addr)) 0x14 0 0x1FE addr true sec
  else
    (({ s with ecc := Sp.put s.ecc 0 addr 0, poison := Sp.put s.poison false addr true }).setLnd
      (fun l => { l with uncorr := sat32 l.uncorr 1, errAddr := sectorAddr addr })).repT
      (uStack (stackOf addr)) 0x22 0 0x1FE addr true sec

/-! ## Scratch words (R282-R286) -/

/-- The bytes of n (1, 2, 4, 8) at a kept scratch address, and the word's poison mark. -/
def State.scrRead (s : State) (a n : Nat) : Nat × Bool :=
  (leNat (Memory.getN s.bytes a n), Sp.look s.poison false (a / 8 * 8))

/-- Store n bytes in scratch; a store of all 8 bytes of the word clears its poison mark; an armed bank inverts check bits (R284, Table 14.6). -/
def State.scrWrite (s : State) (a n v : Nat) : State :=
  let w := a / 8 * 8
  let u := uBank (scrCluster a) ((s.memCl (scrCluster a)).serving (scrBank a))
  let hit := s.armed u 0xFF
  let s1 := { s with
    bytes := Memory.setN s.bytes a (leBytes v n),
    poison := if n = 8 then Sp.put s.poison false w false else s.poison,
    ecc := if hit then Sp.put s.ecc 0 w (popc 8 (s.injMaskOf u)) else if n = 8 then Sp.put s.ecc 0 w 0 else s.ecc }
  if hit then s1.fire u else s1

/-- Count event j of the cluster's counters (Table 9.5); secure work is not counted (R293). -/
def State.memCount (s : State) (c j n : Nat) (sec : Bool) : State :=
  if sec then s else s.updMem c (fun m => { m with cnt := Sp.put m.cnt 0 j (sat32 (Sp.look m.cnt 0 j) n) })

/-- A read of a scratch word: one wrong check bit is corrected (F1), two mark the word poisoned (F2) (R284). -/
def State.scrCheck (s : State) (a : Nat) (sec : Bool) : State :=
  let w := a / 8 * 8
  let n := Sp.look s.ecc 0 w
  let k := scrCluster a
  let u := uBank k ((s.memCl k).serving (scrBank a))
  if n = 0 then s
  else if n = 1 then (({ s with ecc := Sp.put s.ecc 0 w 0 }).memCount k 5 1 sec).repT u 0x14 0 0x1FE w true sec
  else (({ s with ecc := Sp.put s.ecc 0 w 0, poison := Sp.put s.poison false w true }).memCount k 6 1 sec).repT u 0x22 0 0x1FE w true sec

/-! ## L1 and victim cache (R263-R265) -/

def L1Blk.sec (b : L1Blk) (j : Nat) : L1Sec := if j = 0 then b.s0 else if j = 1 then b.s1 else if j = 2 then b.s2 else b.s3
def L1Blk.setSec (b : L1Blk) (j : Nat) (x : L1Sec) : L1Blk :=
  if j = 0 then { b with s0 := x } else if j = 1 then { b with s1 := x } else if j = 2 then { b with s2 := x } else { b with s3 := x }
def L1Blk.empty (n : Nat) : L1Blk := ⟨n, L1Sec.init, L1Sec.init, L1Sec.init, L1Sec.init⟩

/-- Slot of the cluster's engine array and its L1. -/
def State.l1 (s : State) (c slot : Nat) : L1 := Sp.look (s.memCl c).l1 L1.init slot
def State.updL1 (s : State) (c slot : Nat) (f : L1 → L1) : State :=
  s.updMem c (fun m => { m with l1 := Sp.upd m.l1 L1.init slot f })

/-- Way of the L1 array that holds block n. -/
def L1.way (x : L1) (n : Nat) : Option Nat :=
  (upTo 4).find? (fun w => match Sp.look x.blks none (4 * (n % 32) + w) with | some b => b.blk = n | none => false)

/-- The block n in the L1 array or the victim cache. -/
def L1.block (x : L1) (n : Nat) : Option L1Blk :=
  match x.way n with
  | some w => Sp.look x.blks none (4 * (n % 32) + w)
  | none => x.vc.find? (fun b => b.blk = n)

/-- The sector a (address / 64) if the L1 or victim cache holds it. -/
def L1.sector (x : L1) (a : Nat) : Option L1Sec :=
  match x.block (a / 4) with
  | some b => if (b.sec (a % 4)).st = 0 then none else some (b.sec (a % 4))
  | none => none

/-- The pseudo-LRU victim of a set: three bits, bit 0 the pair, bits 1 and 2 the way in each pair (R264; the tree is PRESUMED, log 15). -/
def plruVictim (t : BitVec 3) : Nat :=
  if t.getLsbD 0 then 2 + b2n (t.getLsbD 2) else b2n (t.getLsbD 1)

/-- The tree after a use of way w (log 15). -/
def plruTouch (t : BitVec 3) (w : Nat) : BitVec 3 :=
  BitVec.ofNat 3 (fields [(0, b2n (w < 2)), (1, if w < 2 then b2n (w = 0) else b2n (t.getLsbD 1)),
    (2, if w < 2 then b2n (t.getLsbD 2) else b2n (w = 2))])

/-- Replace a block wherever it is held. -/
def L1.putBlock (x : L1) (b : L1Blk) : L1 :=
  match x.way b.blk with
  | some w => { x with blks := Sp.put x.blks none (4 * (b.blk % 32) + w) (some b) }
  | none => { x with vc := x.vc.map (fun d => if d.blk = b.blk then b else d) }

/-- Mark a sector in place. -/
def L1.putSec (x : L1) (a : Nat) (y : L1Sec) : L1 :=
  match x.block (a / 4) with
  | some b => x.putBlock (b.setSec (a % 4) y)
  | none => x

/-- Remove a sector. -/
def L1.dropSec (x : L1) (a : Nat) : L1 := x.putSec a L1Sec.init

/-- Bring block n into the array, in exchange for the set's pseudo-LRU victim, which enters the victim cache; what the victim cache gives up is answered (R265). -/
def L1.bring (x : L1) (n : Nat) : L1 × Option L1Blk :=
  match x.way n with
  | some w => ({ x with plru := Sp.put x.plru 0 (n % 32) (plruTouch (Sp.look x.plru 0 (n % 32)) w) }, none)
  | none =>
    let b := match x.vc.find? (fun d => d.blk = n) with | some d => d | none => L1Blk.empty n
    let vc := x.vc.filter (fun d => d.blk != n)
    let tree := Sp.look x.plru 0 (n % 32)
    let w := match (upTo 4).find? (fun k => (Sp.look x.blks none (4 * (n % 32) + k)).isNone) with
      | some k => k
      | none => plruVictim tree
    let out := Sp.look x.blks none (4 * (n % 32) + w)
    let vc1 := match out with | some o => o :: vc | none => vc
    ({ x with blks := Sp.put x.blks none (4 * (n % 32) + w) (some b), plru := Sp.put x.plru 0 (n % 32) (plruTouch tree w),
              vc := vc1.take 16 }, vc1[16]?)

/-! ## L2 (R269-R273) -/

def L2Blk.sec (b : L2Blk) (j : Nat) : L2Sec := if j = 0 then b.s0 else b.s1
def L2Blk.setSec (b : L2Blk) (j : Nat) (x : L2Sec) : L2Blk := if j = 0 then { b with s0 := x } else { b with s1 := x }

def MemCl.way (m : MemCl) (n : Nat) : Option Nat :=
  (upTo 16).find? (fun w => match Sp.look m.l2 none (16 * (n % 2048) + w) with | some b => b.blk = n | none => false)

def MemCl.sector (m : MemCl) (a : Nat) : L2Sec :=
  match m.way (a / 2) with
  | some w => match Sp.look m.l2 none (16 * (a / 2 % 2048) + w) with | some b => b.sec (a % 2) | none => L2Sec.init
  | none => L2Sec.init

/-- Replace sector a of a block that the L2 holds; a block both of whose sectors are I leaves the L2. -/
def MemCl.putSec (m : MemCl) (a : Nat) (x : L2Sec) : MemCl :=
  match m.way (a / 2) with
  | some w =>
    let k := 16 * (a / 2 % 2048) + w
    match Sp.look m.l2 none k with
    | some b =>
      let b1 := b.setSec (a % 2) x
      { m with l2 := Sp.put m.l2 none k (if b1.s0.st == .I && b1.s1.st == .I then none else some b1) }
    | none => m
  | none => m

/-- Put sector a into a block that the L2 holds or has taken a way for. -/
def MemCl.fillSec (m : MemCl) (a : Nat) (x : L2Sec) : MemCl :=
  match m.way (a / 2) with
  | some w =>
    let k := 16 * (a / 2 % 2048) + w
    match Sp.look m.l2 none k with
    | some b => { m with l2 := Sp.put m.l2 none k (some (b.setSec (a % 2) x)) }
    | none => m
  | none => m

def CState.dirty : CState → Bool | .M => true | .O => true | _ => false

/-- The home of a sector (R294). -/
def homeOf (a : Nat) : Nat :=
  let addr := 64 * a
  xorAll ((upTo 10).map (fun g => bitsOf addr (7 + 4 * g) 4)) ^^^ bitsOf addr 47 1

/-- The newest copy of a sector: a dirty L1 sector, an owner L2, an eviction under way, the Landing (R299, R301, R309). -/
def State.newest (s : State) (a : Nat) : Sector × Bool :=
  match (upTo 144).findSome? (fun k => match (s.l1 (k / 9) (k % 9)).sector a with
      | some x => if x.st = 2 then some (x.data, x.poison) else none
      | none => none) with
  | some r => r
  | none =>
    match (upTo 16).findSome? (fun c => let x := (s.memCl c).sector a; if x.st.dirty then some (x.data, x.poison) else none) with
    | some r => r
    | none =>
      match (s.home (homeOf a)).evs.find? (fun e => e.a = a) with
      | some e => (e.data, e.poison)
      | none => s.lndSector a

/-- Remove sector a from every L1 of cluster c (R264, R269). -/
def State.dropL1s (s : State) (c a : Nat) : State :=
  (upTo 9).foldl (fun t k => match (t.l1 c k).sector a with
    | some _ => t.updL1 c k (fun l => l.dropSec a)
    | none => t) s

/-- Work on sector a is secure-attributed: the sector lies below the Landing watermark (R291, R293, log 80). -/
def State.secSector (s : State) (a : Nat) : Bool := zoneOf 0 (64 * a) == .landing && 64 * a < s.lnd.watermark.toNat * 0x200000

/-- Logical engine k is secure-owned or runs in the secure world (R293, R377). -/
def State.secLe (s : State) (k : Nat) : Bool := Sp.look s.tru.sec false k || (s.le k).bits.getLsbD 15

/-- Count event j of a slot's L1 (Table 9.5); it holds still for secure work (R293). -/
def State.l1Count (s : State) (c slot j : Nat) (sec : Bool) : State :=
  if sec || 9 ≤ slot then s else s.updL1 c slot (fun l => { l with cnt := Sp.put l.cnt 0 j (sat32 (Sp.look l.cnt 0 j) 1) })

/-- A parity error of sector a in the L1 of a slot is found: a clean sector goes and is logged F1, a dirty one goes and its engine is to retire (R268). -/
def State.parityFound (s : State) (c slot a : Nat) (dirty : Bool) : State :=
  let n := 9 * c + slot
  let u := uPe n
  let sec := s.secLe (s.pe n).logical
  let s1 := (s.updL1 c slot (fun l => l.dropSec a)).l1Count c slot 3 sec
  if dirty then s1.updPe n (fun p => { p with parityDue := true })
  else s1.repT u 0x13 0 0x1FE (64 * a) (s.flt.inj.any (fun j => j.unit.toNat = u && j.fired)) sec

/-- A tag parity error of the block of sector a in the L1 of a slot: every sector of it is suspect, and goes; with a dirty one among them the engine is to retire, otherwise F1 (R268). -/
def State.tagFound (s : State) (c slot a : Nat) : State :=
  match (s.l1 c slot).block (a / 4) with
  | none => s
  | some b =>
    let dirty := (upTo 4).any (fun j => (b.sec j).st = 2)
    let s1 := (upTo 4).foldl (fun t j => t.updL1 c slot (fun l => l.dropSec (4 * b.blk + j))) s
    let s2 := s1.l1Count c slot 3 (s.secLe (s.pe (9 * c + slot)).logical)
    if dirty then s2.updPe (9 * c + slot) (fun p => { p with parityDue := true }) else s2

/-- The block of sector a in the L2 was just used (R273). -/
def State.l2Touch (s : State) (c a : Nat) : State :=
  s.updMem c (fun m => match m.way (a / 2) with
    | some w =>
      let k := 16 * (a / 2 % 2048) + w
      let bump := (Sp.look m.l2 none k).map (fun b => { b with used := m.clock + 1 })
      { m with clock := m.clock + 1, l2 := Sp.put m.l2 none k bump }
    | none => m)

/-- The L2 of cluster c reads sector a: an inverted check bit is corrected (F1); two lose a clean sector (F1); with a dirty one every engine that wrote it is to retire, in order of its number, and their retirements are the reports (R271). -/
def State.l2Check (s : State) (c a : Nat) : State :=
  let y := (s.memCl c).sector a
  let sec := s.secSector a
  if y.st == .I || y.bad = 0 then s
  else if y.bad = 1 then
    ((s.updMem c (fun m => m.putSec a { y with bad := 0 })).memCount c 2 1 sec).repT (uL2 c) 0x14 0 0x1FE (64 * a) true sec
  else
    let s1 := ((s.dropL1s c a).updMem c (fun m => m.putSec a L2Sec.init)).memCount c 3 1 sec
    if y.st.dirty then
      (upTo 8).foldl (fun t i =>
        if y.writers.getLsbD i then t.updPe (9 * c + Sp.look s.eng.bind i (8 * c + i)) (fun p => { p with parityDue := true }) else t) s1
    else s1.repT (uL2 c) 0x14 0 0x1FE (64 * a) true sec

/-- An armed L2 inverts check bits of the word written into it for a normal-world requester, an engine or a unit (Table 14.6). -/
def State.l2Mark (s : State) (c a : Nat) (sec : Bool) : State :=
  let y := (s.memCl c).sector a
  if !sec && y.st != .I && s.armed (uL2 c) 0xFF then
    (s.updMem c (fun m => m.putSec a { y with bad := popc 8 (s.injMaskOf (uL2 c)) })).fire (uL2 c)
  else s

/-- A dirty L1 sector of a slot is written back into the L2, which holds it (R265, R269). -/
def State.l2Take (s : State) (c slot a : Nat) (x : L1Sec) : State :=
  let y := (s.memCl c).sector a
  (s.updMem c (fun m => m.putSec a { y with st := .M, data := x.data, poison := x.poison || y.poison })).l2Mark c a
    (s.secLe (s.pe (9 * c + slot)).logical)

/-- Collect the dirty copies of sector a in the L1s of cluster c into its L2 (R269). -/
def State.collect (s : State) (c a : Nat) : State :=
  (upTo 9).foldl (fun t k => match (t.l1 c k).sector a with
    | some x =>
      if x.par then t.parityFound c k a (x.st = 2)
      else if x.st = 2 then (t.l2Take c k a x).updL1 c k (fun l => l.putSec a { x with st := 1 })
      else t
    | none => t) s

/-- Write sector a of the L2 of cluster c, just collected and checked, to the Landing; it stays, clean of writers (R266, R270). -/
def State.l2Clean (s : State) (c a : Nat) : State :=
  let y := (s.memCl c).sector a
  if y.st.dirty then
    (s.lndWrite a y.data y.poison).updMem c (fun m => m.putSec a { y with writers := 0, st := if y.st == .M then .E else .S })
  else s

/-- Sector a of cluster c is brought from its L1s to its L2 and checked there. -/
def State.gather (s : State) (c a : Nat) : State := (s.collect c a).l2Check c a

/-- Invalidate sector a in the L1s and the L2 of cluster c, without write-back. -/
def State.dropSec (s : State) (c a : Nat) : State := (s.dropL1s c a).updMem c (fun m => m.putSec a L2Sec.init)

/-- Invalidate every cached copy of sector a everywhere, without write-back. -/
def State.dropAll (s : State) (a : Nat) : State := (upTo 16).foldl (fun t c => t.dropSec c a) s

/-- Evict sector a of cluster c's L2: a sector with writers goes to the Landing, one in M or O starts EV_DATA (R269, R270, R301). -/
def State.evictSec (s : State) (c a : Nat) : State :=
  let s1 := ((s.collect c a).dropL1s c a).l2Check c a
  let y := (s1.memCl c).sector a
  let s2 := if y.st.dirty && y.writers != 0 then s1.lndWrite a y.data y.poison else s1
  let s3 := if y.st.dirty then s2.updHome (homeOf a) (fun h => { h with evs := h.evs ++ [⟨c, a, y.data, y.poison, false⟩] }) else s2
  s3.updMem c (fun m => m.putSec a L2Sec.init)

/-- When the block at a key was last used (R273). -/
def MemCl.usedAt (m : MemCl) (k : Nat) : Nat := match Sp.look m.l2 none k with | some b => b.used | none => 0

/-- The way an allocation by a requester with this mask takes in the set (R273): none serves the access without allocation. -/
def MemCl.allocWay (m : MemCl) (mask : W16) (set : Nat) : Option Nat :=
  let cands := (upTo 16).filter (fun w => mask.getLsbD w)
  match cands.find? (fun w => (Sp.look m.l2 none (16 * set + w)).isNone) with
  | some w => some w
  | none =>
    (cands.filter (fun w => !m.lock.getLsbD w)).foldl (fun acc w =>
      match acc with
      | none => some w
      | some v => if m.usedAt (16 * set + w) < m.usedAt (16 * set + v) then some w else some v) none

/-- The ALLOC mask of logical engine e of its cluster, or of the units (Table 9.9). -/
def MemCl.mask (m : MemCl) (e : Option Nat) : W16 :=
  match e with
  | some k => Sp.look m.waymask 0xFFFF (k % 8)
  | none => Sp.look m.waymask 0xFFFF 8

/-- An access would allocate: the L2 is enabled and R273 finds a way or the block is held already. -/
def State.mayAlloc (s : State) (c : Nat) (e : Option Nat) (a : Nat) : Bool :=
  let m := s.memCl c
  m.l2State = 1 && m.l2Enable && ((m.way (a / 2)).isSome || (m.allocWay (m.mask e) (a / 2 % 2048)).isSome)

/-- An L2 with four EV_DATA outstanding at a home holds the allocation that would cause a fifth (R301). -/
def State.evictRoom (s : State) (c : Nat) (e : Option Nat) (a : Nat) : Bool :=
  let m := s.memCl c
  if (m.way (a / 2)).isSome then true
  else match m.allocWay (m.mask e) (a / 2 % 2048) with
    | none => true
    | some w => match Sp.look m.l2 none (16 * (a / 2 % 2048) + w) with
      | none => true
      | some b => (s.home (homeOf (2 * b.blk))).evs.countP (fun x => x.c = c) + b2n b.s0.st.dirty + b2n b.s1.st.dirty ≤ 4

/-- Take a way for the block of sector a in the L2 of cluster c by R273: the displaced block is evicted, and the new one holds nothing yet (R269, R301). -/
def State.l2Alloc (s : State) (c : Nat) (e : Option Nat) (a : Nat) : State :=
  let set := a / 2 % 2048
  let m := s.memCl c
  if !s.mayAlloc c e a || (m.way (a / 2)).isSome then s
  else match m.allocWay (m.mask e) set with
    | none => s
    | some w =>
      let s1 := match Sp.look m.l2 none (16 * set + w) with
        | some b => (s.evictSec c (2 * b.blk)).evictSec c (2 * b.blk + 1)
        | none => s
      s1.updMem c (fun x => { x with
        clock := x.clock + 1
        l2 := Sp.put x.l2 none (16 * set + w) (some ⟨a / 2, L2Sec.init, L2Sec.init, x.clock + 1⟩) })

/-- Install sector a in the L2 of cluster c for an engine or a unit; an L2 that is not in use, or has no way for it, takes nothing (R273, R280). -/
def State.l2Fill (s : State) (c : Nat) (e : Option Nat) (a : Nat) (x : L2Sec) : State :=
  if !s.mayAlloc c e a || !s.evictRoom c e a then s
  else
    (((s.l2Alloc c e a).updMem c (fun m => m.fillSec a x)).l2Touch c a).l2Mark c a
      (match e with | some k => s.secLe k | none => s.secSector a)

/-- A block given up by a victim cache writes its dirty sectors back to the L2 (R265, R268). -/
def State.writeBack (s : State) (c slot : Nat) (b : Option L1Blk) : State :=
  match b with
  | none => s
  | some d => (upTo 4).foldl (fun t j =>
      let x := d.sec j
      let a := 4 * d.blk + j
      if x.par && x.st ≠ 0 then t.parityFound c slot a (x.st = 2)
      else if x.st = 2 then (if ((t.memCl c).sector a).st == .I then t.lndWrite a x.data x.poison else t.l2Take c slot a x)
      else t) s

/-- Fill sector a into the L1 of a slot (R264). -/
def State.l1Fill (s : State) (c slot a : Nat) (x : L1Sec) : State :=
  let (l, out) := (s.l1 c slot).bring (a / 4)
  (s.updL1 c slot (fun _ => l.putSec a x)).writeBack c slot out

/-! ## Bytes as units and commands see them -/

/-- The bytes of a work record in the system area: the dispatch word and the command bytes 8 to 63 (R196, log 81); the rest of its 128 bytes reads zero. -/
def WorkRec.byte (w : WorkRec) (k : Nat) : Byte :=
  if k < 8 then BitVec.ofNat 8 (bitsOf w.word.toNat (8 * k) 8) else if k < 64 then BitVec.ofNat 8 (bitsOf w.pkt.toNat (8 * k) 8) else 0

/-- One coherent byte of a Landing sector with its poison. -/
def State.lndByte (s : State) (a : Nat) : Byte × Bool :=
  let x := s.newest (a / 64)
  (BitVec.ofNat 8 (bitsOf x.1.toNat (8 * (a % 64)) 8), x.2)

/-- One byte of the system area: a work record, the staging storage, or the reserved rest, which reads zero (R290). -/
def State.sysByte (s : State) (a : Nat) : Byte × Bool :=
  if a < 0xFC8000000 then
    match Sp.look s.qm.work none ((a - 0xFC0000000) / 128) with
    | some w => (w.byte (a % 128), false)
    | none => (0, false)
  else if a < 0xFD0000000 then s.lndByte a
  else (0, false)

/-- One coherent byte of the Landing or scratch at engine address a for cluster c, with its poison. -/
def State.unitByte (s : State) (c a : Nat) : Byte × Bool :=
  match zoneOf c a with
  | .landing => s.lndByte a
  | .system => s.sysByte a
  | .scratch _ => (Memory.get s.bytes (canon c a), Sp.look s.poison false (canon c a / 8 * 8))
  | _ => (0, false)

/-- A byte the host's memory answers (log 4). -/
def HostIn.byte (h : HostIn) (hpa : Nat) : Byte × Bool := (Sp.look h.cells 0 hpa, h.poison.contains (hpa / 64 * 64))

/-- The Tally window shows a reader of function f zero for the entry at i (R103). -/
def State.tallyHides (s : State) (f : Nat) (sec : Bool) (i : Nat) : Bool := (!sec && s.secIdx i) || (s.entry i).func.toNat ≠ f

/-- The entry whose bytes stand at an address of the Tally window (Table 6.8). -/
def tallyIdx (a : Nat) : Nat := (a - 0x2000000000) / 32

/-- One byte of the Tally window. -/
def State.tallyByte (s : State) (f : Nat) (sec : Bool) (a : Nat) : Byte :=
  if s.tallyHides f sec (tallyIdx a) then 0 else BitVec.ofNat 8 (bitsOf (s.entry (tallyIdx a)).toNat (8 * (a % 32)) 8)

/-- The F0 advisories of a read of n bytes of the Tally window (R103). -/
def State.tallyAdvise (s : State) (f : Nat) (sec : Bool) (c a n : Nat) : State :=
  if n = 0 || zoneOf c a != .tally then s
  else (upTo (tallyIdx (a + n - 1) - tallyIdx a + 1)).foldl (fun t k =>
    if t.tallyHides f sec (tallyIdx a + k) then t.repT uTally 0x02 0 f (tallyIdx a + k) false sec else t) s

/-- The port for CXL.cache: HOST_PORT while up, else the other; none while neither is up (R303). -/
def State.cachePort (s : State) : Option Nat :=
  let p := b2n s.coh.hostPort
  if (s.port p).up then some p else if (s.port (1 - p)).up then some (1 - p) else none

/-- A cached copy of a host sector in the L2 of cluster c. -/
def State.hostCached (s : State) (c a hpa : Nat) : Option (Sector × Bool) :=
  let y := (s.memCl c).sector (a / 64)
  if y.st != .I && y.hpa = hpa / 64 * 64 then some (y.data, y.poison) else none

/-- A byte of host memory at engine address a and host address p: of the cluster's copy, or as the host answers (R261, R303). -/
def State.hostByte (s : State) (h : HostIn) (c a p : Nat) : Byte × Bool :=
  match s.hostCached c a p with
  | some d => (BitVec.ofNat 8 (bitsOf d.1.toNat (8 * (a % 64)) 8), d.2)
  | none => HostIn.byte h p

/-- The host address at which a read of n bytes from a times out: the one the host did not answer, or the first that is not cached while no port is up (R58, R307). -/
def State.lateAt (s : State) (h : HostIn) (f : Nat) (sec : Bool) (c a n : Nat) : Option Nat :=
  match h.timeout with
  | some t => if a ≤ t && t < a + n && zoneOf c t == .host then some t else none
  | none =>
    if s.cachePort.isSome then none
    else ((upTo n).map (fun k => a + k)).find? (fun b => zoneOf c b == .host &&
      (match s.hpaOf f sec b false with | some p => (s.hostCached c b p).isNone | none => false))

/-- One byte at engine address a as function f sees it from cluster c, with its poison. -/
def State.unitSee (s : State) (h : HostIn) (f : Nat) (sec : Bool) (c a : Nat) : Byte × Bool :=
  match zoneOf c a with
  | .host => match s.hpaOf f sec a false with | some p => s.hostByte h c a p | none => (0, false)
  | .tally => (s.tallyByte f sec a, false)
  | _ => s.unitByte c a

/-- The poison flag of each byte of a read. -/
def State.unitFlags (s : State) (h : HostIn) (f : Nat) (sec : Bool) (c a n : Nat) : List Bool :=
  (upTo n).map (fun k => (s.unitSee h f sec c (a + k)).2)

/-- n bytes from engine address a: data, whether any is poisoned, and the address of a read that timed out (R63, R307). -/
def State.unitRead (s : State) (h : HostIn) (f : Nat) (sec : Bool) (c a n : Nat) : List Byte × Bool × Option Nat :=
  let bs := (upTo n).map (fun k => s.unitSee h f sec c (a + k))
  (bs.map (fun b => b.1), bs.any (fun b => b.2), s.lateAt h f sec c a n)

end Sys2Proof.Machine
end

