-- ==== Sys2Proof/Machine/Queues.lean ====
section
/-! DEFINITION. Queue pairs: their ports, doorbells, completion posting, interrupts, enable and drain (R41-R58, R91-R93). -/

namespace Sys2Proof.Machine

/-- Apply `f` where the command's condition holds; a command whose condition does not hold has no effect (log 1). -/
def State.when (s : State) (c : Bool) (f : State → State) : State := if c then f s else s

/-! ## Ports of a queue (R54-R58) -/

/-- Ring size (Table 2.3). -/
def Queue.size (q : Queue) : Nat := q.sizeM1.toNat + 1

/-- The pair accepts completions: it runs or drains, with a port (R44, R58). -/
def Queue.open (q : Queue) : Bool := q.state == .running || q.state == .draining

/-- The port R54 gives the queue. -/
def State.wantPort (s : State) (f : Nat) (q : Queue) : Option Nat :=
  let a := b2n q.prefPort
  if q.ports.getLsbD a && s.reach a f then some a
  else if q.ports.getLsbD (1 - a) && s.reach (1 - a) f then some (1 - a)
  else none

/-- Write an unconsumed completion again through port p (R56). -/
def State.rewrite (s : State) (q : Queue) (p : Nat) : State :=
  s.each q.posted (fun t d => t.emit (.hostWrite (if p = 0 then 0 else 1) (q.cqBase.toNat + 16 * d.slot) d.bytes))

/-- Send the vector of queue (f, q) through its active port (R51). -/
def State.sendVector (s : State) (f q : Nat) : State :=
  let x := s.queue f q
  s.sendMsix (b2n x.activePort) f x.vector.toNat

/-- Queue (f, q) moves to the port R54 gives it; `lost` is the port just lost, whose entries are written again, with the vector once (R54-R58). A pair that waited for a port sends its vector when one comes up, whether or not it writes an entry again (DESIGN CHOICE, log 88). -/
def State.rePort (s : State) (f q : Nat) (lost : Option Nat) : State :=
  let x := s.queue f q
  if x.state == .disabled then s
  else match s.wantPort f x with
    | none => s.updQueue f q (fun y => { y with state := .noPort })
    | some p =>
      let again := x.state == .noPort || lost == some (b2n x.activePort) || x.posted.any (fun d => some d.port == lost)
      let back : QState := if x.state == .noPort then (if x.enable then .running else .draining) else x.state
      let old := x.posted
      let redo := if x.state == .noPort then old else old.filter (fun d => some d.port == lost)
      let s1 := s.updQueue f q (fun y => { y with
        activePort := p = 1, state := back, unsig := if again then 0 else y.unsig,
        posted := if again then y.posted.map (fun d => if redo.contains d then { d with port := p } else d) else y.posted })
      if again then
        let s2 := s1.rewrite { x with posted := redo } p
        s2.sendVector f q
      else s1

/-- Every queue takes the port R54 gives it. -/
def State.rePortAll (s : State) (lost : Option Nat) : State :=
  s.each (s.qm.queues.map (fun e => e.1)) (fun t k => t.rePort (k / 9) (k % 9) lost)

/-- PORT_CHANGE for every function whose reachable ports differ from those in `old` (Table 2.9). -/
def State.pathEvents (s old : State) : State :=
  s.each (upTo 258) (fun t f =>
    if t.reach 0 f == old.reach 0 f && t.reach 1 f == old.reach 1 f then t else t.setEvent f 0)

/-! ## Consumption (R44, R47) -/

/-- Take a posted completion as consumed: a final one sets CONSUMED in its entry. -/
def State.consume (s : State) (p : Posted) : State :=
  match p.entry with
  | none => s
  | some t =>
    if s.tidLive t then (s.updEntry (tidIdx t) (fun e => { e with consumed := true })).freeCheck (tidIdx t) else s

/-! ## Posting (R47, R91-R93, R116) -/

/-- A due completion that belongs to an entry. -/
def Due.owned (d : Due) : Option Nat :=
  match d.kind with
  | .finalOf i => some i
  | .interim _ i => some i
  | .direct .. => none

/-- STATUS, interim, TID, RESULT0, RESULT1 of a due completion at its posting (Tables 3.9, 3.10, R82, R93). -/
def State.dueWords (s : State) (d : Due) : Nat × Bool × W32 × Nat × Nat :=
  match d.kind with
  | .direct st t r0 r1 => (st.toNat, false, t, r0.toNat, r1.toNat)
  | .interim st i => (st.toNat, true, s.tidAt i, (s.entry i).q0, (s.entry i).q1)
  | .finalOf i =>
    let e := s.entry i
    if e.state == .aborted then (bitsOf e.result1.toNat 0 8, false, s.tidAt i, e.result0.toNat, 0)
    else (stOk, false, s.tidAt i, e.result0.toNat, e.result1.toNat)

/-- The 16 bytes of a completion entry (Table 3.9). -/
def complBytes (cmdId : W16) (phase clampedFlag : Bool) (w : Nat × Bool × W32 × Nat × Nat) : List Byte :=
  leBytes cmdId.toNat 2 ++ leBytes w.1 1 ++ leBytes (fields [(0, b2n phase), (1, b2n w.2.1), (2, b2n clampedFlag)]) 1 ++
    leBytes w.2.2.1.toNat 4 ++ leBytes w.2.2.2.1 4 ++ leBytes w.2.2.2.2 4

/-- A completion owed by the restore whose record is not made yet (R132). -/
def State.unrecorded (s : State) (d : Due) : Bool :=
  match d.owned with
  | some i => s.tly.rlogWait.any (fun r => r.tid = s.tidAt i)
  | none => false

/-- The completion the queue writes next: the first that fell due, an entry's own ones waiting while the Tally is stopped (R47, R132, R404). -/
def State.nextDue (s : State) (q : Queue) : Option Due :=
  match q.due.find? (fun d => d.owned.isNone || !s.tly.stopped) with
  | some d => if s.unrecorded d then none else some d
  | none => none

/-- Remove the first occurrence of a due completion. -/
def dropDue (d : Due) : List Due → List Due
  | [] => []
  | x :: r => if x = d then r else x :: dropDue d r

/-- The ABORT commands that waited for the completion of the entry at i fall due (R84). -/
def State.abortsDone (s : State) (i : Nat) : State :=
  s.qm.cmds.foldl (fun t c => match c.stage with
    | .aborting j st => if j = i then t.finish c st (pkN c.pkt 4 4) 0 0 else t
    | _ => t) s

/-- What posting does to the entry of a final completion: POSTED, COMMITTED to COMPLETE, FREE if it may (Table 4.4); a waiting ABORT falls due (R84). -/
def State.postedEntry (s : State) (i : Nat) : State :=
  ((s.updEntry i (fun e => { e with posted := true, state := if e.state == .committed then .complete else e.state })).freeCheck i).abortsDone i

/-- Completions posted on queue (f, q) are not signalled, and its active port can carry the message (R51, R58). -/
def State.owesVector (s : State) (f q : Nat) : Bool := 0 < (s.queue f q).unsig && s.reach (b2n (s.queue f q).activePort) f

/-- Send the vector when COUNT_M1 + 1 completions are unsignalled or DELAY is 0 (R51). -/
def State.coalesce (s : State) (f q : Nat) : State :=
  let x := s.queue f q
  if s.owesVector f q && (x.countM1.toNat + 1 ≤ x.unsig || x.delay = 0) then
    (s.updQueue f q (fun y => { y with unsig := 0 })).sendVector f q
  else s

/-- Write completion d of queue (f, q) into its ring (R91, R92). -/
def State.postDue (s : State) (f q : Nat) (d : Due) : State :=
  let x := s.queue f q
  let w := s.dueWords d
  let bytes := complBytes d.cmdId x.phase d.clamped w
  let slot := x.cqTail.toNat
  let last := slot + 1 = x.size
  let final := !w.2.1
  let s1 := s.emit (.hostWrite (if x.activePort then 1 else 0) (x.cqBase.toNat + 16 * slot) bytes)
  let s2 := s1.updQueue f q (fun y => { y with
    due := dropDue d y.due, cqTail := if last then 0 else y.cqTail + 1, phase := if last then !y.phase else y.phase,
    posted := y.posted ++ [⟨slot, bytes, b2n y.activePort, if final then d.owned.map s.tidAt else none⟩],
    live := if final && d.handle ≠ 0 then y.live.filter (fun l => l.handle != d.handle) else y.live,
    oldest := if y.unsig = 0 then s.tick else y.oldest, unsig := y.unsig + 1 })
  let s3 := if d.credit then s2.updFn f (fun g => { g with credits := g.credits - 1 }) else s2
  let s4 := match d.kind with
    | .finalOf i => (if d.handle = 0 then s3 else s3.dropCmd d.handle).postedEntry i
    | .interim st i =>
      if (s.entry i).state = TState.held ∨ st = 0x10 then s3.updEntry i (fun e => { e with interimSent := true }) else s3
    | .direct .. => s3
  s4.coalesce f q

/-- COMPLETION_POST may write: the pair is open, its port usable, a slot is free (R47, R58, R91). -/
def State.canPost (s : State) (f q : Nat) : Bool :=
  let x := s.queue f q
  s.on && x.open && x.posted.length < x.size && (s.nextDue x).isSome

/-- COMPLETION_POST (R91). -/
def execCompletionPost (f : FnId) (q : QId) (s : State) : Host.Outcome State Fault Refusal :=
  .next (s.when (s.canPost f.val q.val) (fun t =>
    match t.nextDue (t.queue f.val q.val) with
    | some d => t.postDue f.val q.val d
    | none => t))

/-- COALESCE_DELAY_EXPIRY (R51): DELAY µs have passed since the oldest unsignalled completion. -/
def execCoalesceDelayExpiry (f : FnId) (q : QId) (s : State) : Host.Outcome State Fault Refusal :=
  let x := s.queue f.val q.val
  .next (s.when (s.on && s.owesVector f.val q.val && x.oldest + us x.delay.toNat ≤ s.tick) (fun t =>
    (t.updQueue f.val q.val (fun y => { y with unsig := 0 })).sendVector f.val q.val))

/-- MSIX_VECTOR_UNMASK (R52): the mask bit clears; a pending vector is sent. -/
def execMsixVectorUnmask (p : PortId) (f : FnId) (vec : Fin 10) (s : State) : Host.Outcome State Fault Refusal :=
  let k := 16 * f.val + vec.val
  let m := Sp.look (s.port p.val).msix Msix.init k
  .next (s.when (m.masked && s.reach p.val f.val && vec.val ≤ eventVec f.val) (fun t =>
    let t1 := t.updPort p.val (fun x => { x with msix := Sp.put x.msix Msix.init k { m with masked := false, pending := false } })
    if m.pending then t1.emit (.msix p m.addr m.data) else t1))

/-! ## Doorbells (R45, R47) -/

/-- The function a register access names (R40). -/
def viaFn : Via → Nat
  | .pf p => pfOf p.val
  | .vf _ v => v.val + 1
  | .bar2 p => pfOf p.val

/-- The port it arrives through. -/
def viaPort : Via → Nat
  | .pf p => p.val
  | .vf p _ => p.val
  | .bar2 p => p.val

/-- The queue exists for the function: a VF has q = 0-7 (R40, R41). -/
def viaHasQ (v : Via) (q : Nat) : Bool := match v with | .pf _ => q < 9 | .vf .. => q < 8 | .bar2 _ => false

/-- The access reaches the module: its port is up and the function reachable, and phase K has ended (R39, R447). -/
def State.viaOk (s : State) (v : Via) : Bool := s.on && (s.port (viaPort v)).answering && s.reach (viaPort v) (viaFn v)

/-- An F0 of KIND 0x02 of the queue manager about function f (R43). -/
def State.advise (s : State) (f detail : Nat) : State := s.repF uHost 0x02 f detail

/-- The position a doorbell takes: at or above the size it is clamped to size - 1 (R45). -/
def doorPos (x : Queue) (val : W32) : Nat := min (val.toNat % 4096) (x.size - 1)

/-- A write of QM_VF_SQ_TAIL (R45). -/
def State.tailWrite (s : State) (f q : Nat) (val : W32) : State :=
  let x := s.queue f q
  (s.updQueue f q (fun y => { y with sqTail := BitVec.ofNat 12 (doorPos x val) })).clampFn f (clamped (val.toNat % 4096) (doorPos x val))

/-- The head position a write of QM_VF_CQ_HEAD takes and the entries it consumes: past CQ_TAIL it is clamped to CQ_TAIL (R45). The value already held consumes nothing, on a full ring too, where it could also mean the whole ring (DESIGN CHOICE, log 86). -/
def headTarget (x : Queue) (val : W32) : Nat × Nat :=
  let v := doorPos x val
  let adv := (v + x.size - x.cqHead.toNat % x.size) % x.size
  if x.posted.length < adv then (x.cqTail.toNat, x.posted.length) else (v, adv)

/-- A write of QM_VF_CQ_HEAD (R45, R47). A value clamped to the size and then to CQ_TAIL counts both clamps (DESIGN CHOICE, log 87). -/
def State.headWrite (s : State) (f q : Nat) (val : W32) : State :=
  let x := s.queue f q
  let (h, n) := headTarget x val
  let s1 := s.updQueue f q (fun y => { y with cqHead := BitVec.ofNat 12 h, posted := y.posted.drop n })
  let s2 := s1.each (x.posted.take n) State.consume
  s2.clampFn f (clamped (val.toNat % 4096) (doorPos x val) + clamped (doorPos x val) h)

/-- SQ_TAIL_DOORBELL (R45). -/
def execSqTailDoorbell (via : Via) (q : QId) (val : W32) (s : State) : Host.Outcome State Fault Refusal :=
  .next (s.when (s.viaOk via && viaHasQ via q.val) (fun t => t.tailWrite (viaFn via) q.val val))

/-- CQ_HEAD_DOORBELL (R47). -/
def execCqHeadDoorbell (via : Via) (q : QId) (val : W32) (s : State) : Host.Outcome State Fault Refusal :=
  .next (s.when (s.viaOk via && viaHasQ via q.val) (fun t => t.headWrite (viaFn via) q.val val))

/-! ## Q_CFG, enable, disable, drain (R43, R44) -/

/-- The pair's number for MAX_QP: the admin pair of a PF is no queue pair 0-7 (R41, R43; DEDUCED, log 24). -/
def pairNo (f q : Nat) : Option Nat := if isPf f then (if q = 0 then none else some (q - 1)) else some q

/-- ENABLE may be set (R43). -/
def State.mayEnable (s : State) (f q : Nat) : Bool :=
  match pairNo f q with
  | none => true
  | some n => n < (s.fn f).maxQp.toNat

/-- The fields of Q_CFG other than ENABLE, with their clamps (Table 2.3); SIZE_M1 is kept while the pair runs (R43). A write of Q_CFG that repeats the value held is no write to SIZE_M1 and logs nothing (DESIGN CHOICE, log 91). -/
def State.cfgFields (s : State) (f q : Nat) (val : W32) : State :=
  let x := s.queue f q
  let v := val.toNat
  let ports := bitsOf v 29 2
  let vec := bitsOf v 24 4
  let vmax := if isPf f then 9 else 8
  let size := bitsOf v 0 12
  let keep := x.enable && size ≠ x.sizeM1.toNat
  let s1 := s.updQueue f q (fun y => { y with
    ports := if ports = 0 then 3 else BitVec.ofNat 2 ports, prefPort := bitsOf v 28 1 = 1, vector := BitVec.ofNat 4 (min vec vmax),
    sizeM1 := if y.enable then y.sizeM1 else BitVec.ofNat 12 (max size 1) })
  let s2 := s1.clampFn f (b2n (ports = 0) + clamped vec (min vec vmax) + (if !x.enable && size = 0 then 1 else 0))
  if keep then s2.advise f ((if isPf f then 0x100000 else 0) + 0x410 + 0x20 * q) else s2

/-- The pair becomes enabled: positions 0, phase 1, port by R54; kept completions stay first in `due` (R44). -/
def State.enableQ (s : State) (f q : Nat) : State :=
  s.updQueue f q (fun y => { y with
    enable := true, sqHead := 0, sqTail := 0, cqHead := 0, cqTail := 0, phase := true, posted := [],
    state := match s.wantPort f y with | some _ => .running | none => .noPort,
    activePort := match s.wantPort f y with | some p => p = 1 | none => y.activePort })

/-- ENABLE clears: fetching stops, the pair drains (R44); one without a port goes on waiting for it, and QM_VF_Q_STATE shows it as draining (Queue.shown, log 24). -/
def State.disableQ (s : State) (f q : Nat) : State :=
  s.updQueue f q (fun y => { y with enable := false, state := if y.state == .running then .draining else y.state })

/-- The pair becomes disabled; posted completions count as consumed (R44). A vector that DELAY still owes is sent later (R51). -/
def State.closeQ (s : State) (f q : Nat) : State :=
  let x := s.queue f q
  (s.updQueue f q (fun y => { y with state := .disabled, posted := [] })).each x.posted State.consume

/-- STATE as QM_VF_Q_STATE shows it (Table 2.4, R44, R54, log 24). -/
def Queue.shown (x : Queue) : QState := if x.state == .noPort && !x.enable then .draining else x.state

/-- A write of QM_VF_Q_CFG (Table 2.3, R43, R44). ENABLE set while the pair still drains resets the ring as setting ENABLE always does; what was posted and not consumed counts as consumed, and the commands still running post to the new ring (DESIGN CHOICE, log 24). -/
def State.cfgWrite (s : State) (f q : Nat) (val : W32) : State :=
  let x := s.queue f q
  let en := val.getLsbD 31
  let off := (if isPf f then 0x100000 else 0) + 0x410 + 0x20 * q
  let s1 := s.cfgFields f q val
  let s2 :=
    if en && !x.enable then
      (if s.mayEnable f q then (if x.state == .disabled then s1 else s1.closeQ f q).enableQ f q else s1.advise f off)
    else if !en && x.enable then s1.disableQ f q
    else s1
  s2.rePort f q none

/-- QUEUE_ENABLE (R44): a write of Q_CFG that sets ENABLE of a pair that is not enabled. -/
def execQueueEnable (via : Via) (q : QId) (val : W32) (s : State) : Host.Outcome State Fault Refusal :=
  .next (s.when (s.viaOk via && viaHasQ via q.val && val.getLsbD 31 && !(s.queue (viaFn via) q.val).enable)
    (fun t => t.cfgWrite (viaFn via) q.val val))

/-- QUEUE_DISABLE (R44): a write of Q_CFG that clears ENABLE of a running pair. -/
def execQueueDisable (via : Via) (q : QId) (val : W32) (s : State) : Host.Outcome State Fault Refusal :=
  .next (s.when (s.viaOk via && viaHasQ via q.val && !val.getLsbD 31 && (s.queue (viaFn via) q.val).enable)
    (fun t => t.cfgWrite (viaFn via) q.val val))

/-- The live command's entry is HELD or awaits STALE resolution, with its interim completion posted (R44). -/
def State.liveParked (s : State) (x : Queue) (l : Live) : Bool :=
  match s.cmd l.handle with
  | some c => match c.stage with
    | .entry i =>
      let e := s.entry i
      (e.state == .held || e.stale) && e.interimSent &&
        !x.due.any (fun d => match d.kind with | .interim _ j => j = i | _ => false)
    | _ => false
  | none => false

/-- A draining pair is drained (R44). -/
def State.drained (s : State) (f q : Nat) : Bool :=
  let x := s.queue f q
  (x.state == .draining || (x.state == .noPort && !x.enable)) && x.live.all (fun l => s.liveParked x l)

/-- QUEUE_DRAINED (R44). -/
def execQueueDrained (f : FnId) (q : QId) (s : State) : Host.Outcome State Fault Refusal :=
  .next (s.when (s.drained f.val q.val) (fun t => t.closeQ f.val q.val))

end Sys2Proof.Machine
end

