-- ==== Sys2Proof/Machine/Homes.lean ====
section
/-! DEFINITION. The homes: admission, snoops, grants, evictions, host sectors, timeouts (R294-R307), and host accesses through CXL.mem (R61, R62, R304). -/

namespace Sys2Proof.Machine

/-- Slot of logical engine e in its cluster; 15: out of service (Table 6.16). -/
def State.leSlot (s : State) (e : Nat) : Nat := Sp.look s.eng.bind (e % 8) e

/-- The engine-space value of `size` bytes at address `addr` of a sector. -/
def secVal (d : Sector) (addr size : Nat) : W64 := BitVec.ofNat 64 (bitsOf d.toNat (8 * (addr % 64)) (8 * size))

/-- Loads of engine e that wait on sector a receive their data (R186, R281). -/
def State.resolveLoads (s : State) (e a : Nat) (d : Sector) (poison : Bool) : State :=
  s.updLe e (fun x => { x with flight := x.flight.map (fun f => match f.wait with
    | some (addr, size) => if addr / 64 = a then
        { f with val := secVal d addr size, wait := none, mask := if poison then f.mask ||| 0x200 else f.mask,
                 bits := if poison then f.bits ||| 0x200 else f.bits }
      else f
    | none => f) })

/-- Loads of every engine of cluster c that wait on a Landing sector receive their data. -/
def State.resolveCluster (s : State) (c a : Nat) (d : Sector × Bool) : State :=
  (upTo 8).foldl (fun t i => t.resolveLoads (8 * c + i) a d.1 d.2) s

/-- Slot `slot` of cluster c has its L1 in use (R279, R280). -/
def State.l1On (s : State) (c slot : Nat) : Bool := slot < 9 && (s.l1 c slot).enable && (s.l1 c slot).state = 1

/-- `size` bytes of a value merged into a sector at address `addr`. -/
def mergeVal (d : Sector) (addr size : Nat) (v : W64) : Sector := BitVec.ofNat 512 (putBits d.toNat (8 * (addr % 64)) (8 * size) v.toNat)

/-- The L1 of engine e takes a sector it has just stored into, dirty; an armed engine inverts a parity bit (R264, Table 14.6). -/
def State.l1Dirty (s : State) (c slot a : Nat) (d : Sector) (poison : Bool) : State :=
  let hit := s.armed (uPe (9 * c + slot)) 1
  let s1 := s.l1Fill c slot a ⟨2, d, poison, hit⟩
  if hit then s1.fire (uPe (9 * c + slot)) else s1

/-- The L2 of cluster c marks sector a as M with engine e among its writers, and takes the data `d` where an L1 does not hold it (R264, R270). -/
def State.l2Own (s : State) (c e a : Nat) (d : Option Sector) : State :=
  let y := (s.memCl c).sector a
  let s1 := s.updMem c (fun m => m.putSec a { y with
    st := .M, data := d.getD y.data, writers := y.writers ||| BitVec.ofNat 8 (1 <<< (e % 8)) })
  if d.isSome then s1.l2Mark c a (s1.secLe e) else s1

/-- A store of engine e into a sector its cluster may write (R264, R270, R281): into its L1, which then holds it dirty, every other L1 copy of the cluster going first; into the L2 when the L1 is off; into the Landing when the cluster holds no copy. -/
def State.l1Store (s : State) (c e addr size : Nat) (v : W64) : State :=
  let a := addr / 64
  let slot := s.leSlot e
  let own := if s.l1On c slot then (s.l1 c slot).sector a else none
  match own.filter (fun x => x.st = 2 && !x.par) with
  | some x => (s.l1Dirty c slot a (mergeVal x.data addr size v) x.poison).l2Touch c a
  | none =>
    let s1 := (s.collect c a).dropL1s c a
    let y := (s1.memCl c).sector a
    if y.st == .I then
      let x := s1.newest a
      (s1.dropAll a).lndWrite a (mergeVal x.1 addr size v) x.2
    else
      let n := mergeVal y.data addr size v
      let s2 := (s1.l2Own c e a (if s1.l1On c slot then none else some n)).l2Touch c a
      if s2.l1On c slot then s2.l1Dirty c slot a n y.poison else s2

/-- Stores of the cluster's engines that wait for sector a are performed, in order (R264, R308). -/
def State.performStores (s : State) (c a : Nat) : State :=
  (upTo 8).foldl (fun t i =>
    let e := 8 * c + i
    ((t.le e).stores.filter (fun st => !st.performed && st.addr / 64 = a)).foldl (fun u st =>
      (u.l1Store c e st.addr st.size st.val).updLe e (fun x => { x with stores := x.stores.filter (fun z => z != st) })) t) s

/-! ## Transactions -/

/-- The sector belongs to host memory. -/
def isHostSec (a : Nat) : Bool := zoneOf 0 (64 * a) == .host

/-- States of the sector in the L2s other than the requester's; an eviction under way still shows as M (R297, R301). -/
def State.holders (s : State) (a r : Nat) : List (Nat × CState) :=
  (upTo 16).filterMap (fun c =>
    if c = r then none
    else if (s.home (homeOf a)).evs.any (fun e => e.c = c && e.a = a) then some (c, .M)
    else let x := (s.memCl c).sector a; if x.st == .I then none else some (c, x.st))

/-- The snoops of Table 10.3 (kind 0 SNP_S, 1 SNP_X, 2 SNP_INV, 3 SNP_CUR) for a Landing sector. -/
def snoopsFor (k : ReqKind) (hs : List (Nat × CState)) : List Snp :=
  let owner := fun (x : Nat × CState) => x.2 == .M || x.2 == .O || x.2 == .E
  let dirty := fun (x : Nat × CState) => x.2 == .M || x.2 == .O
  match k with
  | .rdS => (hs.filter owner).map (fun x => ⟨x.1, 0, 0, false, false⟩)
  | .rdX => hs.map (fun x => ⟨x.1, if owner x then 1 else 2, 0, false, false⟩)
  | .upg => hs.map (fun x => ⟨x.1, 2, 0, false, false⟩)
  | .rdNc => (hs.filter dirty).map (fun x => ⟨x.1, 3, 0, false, false⟩)
  | .wrInv => hs.map (fun x => ⟨x.1, if dirty x then 1 else 2, 0, false, false⟩)

/-- Home h counts event j (Table 10.7); secure requests are not counted (R317). -/
def State.homeCount (s : State) (h j n : Nat) (sec : Bool) : State :=
  if sec then s else s.updHome h (fun x => { x with cnt := Sp.put x.cnt 0 j (sat32 (Sp.look x.cnt 0 j) n) })

/-- Put a transaction into its home. -/
def State.addTxn (s : State) (t : Txn) : State := 
  s.updHome (homeOf t.req.a) (fun h => { h with txns := h.txns ++ [t], next := h.next + 1 })

/-- Replace the transaction of the same number. -/
def State.putTxn (s : State) (t : Txn) : State :=
  s.updHome (homeOf t.req.a) (fun h => { h with txns := h.txns.map (fun x => if x.id = t.id then t else x) })

/-- Remove it; with it goes the ticket of a transaction in its requester's reserved entry (R296). -/
def State.dropTxn (s : State) (t : Txn) : State :=
  s.updHome (homeOf t.req.a) (fun h => { h with
    txns := h.txns.filter (fun x => x.id != t.id), tickets := if t.resv then h.tickets.filter (fun r => r != t.req.r) else h.tickets })

/-- The active transaction of a sector. -/
def State.txnOf (s : State) (a : Nat) : Option Txn := (s.home (homeOf a)).txns.find? (fun t => t.req.a = a && t.active)

/-- Send a transaction's request to the host, or let it wait for a port (R303, R58). -/
def State.askHost (s : State) (t : Txn) : State × Txn :=
  match s.cachePort with
  | none => (s, { t with hostWait := true, port := 2 })
  | some p =>
    let kind := match t.req.kind with
      | .rdS => 0 | .rdNc => 1
      | _ => if t.req.mask = BitVec.allOnes 64 then 2 else 3
    (s.emit (.cacheReq (if p = 0 then 0 else 1) kind t.req.hpa t.req.mask t.req.data t.req.poison), { t with hostWait := true, port := p })

/-- Merge bytes under a mask into a sector. -/
def mergeMask (old new : Sector) (mask : W64) : Sector :=
  secOf ((upTo 64).map (fun k => BitVec.ofNat 8 (bitsOf (if mask.getLsbD k then new else old).toNat (8 * k) 8)))

/-- A WR_INV whose snoops are all answered: a Landing write is made, a host write is sent and its store is performed (R302, R303, Table 10.5). -/
def State.settle (s : State) (t : Txn) : State × Txn :=
  if t.req.kind == .wrInv && t.active && !t.dataGiven && t.snps.all (fun x => x.stage = 2) then
    if isHostSec t.req.a then
      let (s1, t1) := s.askHost { t with dataGiven := true }
      let s2 := match t.req.engine with
        | some e => s1.updLe e (fun x => { x with stores := x.stores.map (fun z => if z.addr = t.req.addr then { z with performed := true } else z) })
        | none => s1
      (s2, t1)
    else
      let s0 := if t.data.isNone then s.lndCheck t.req.a t.req.secure else s
      let old := match t.data with | some d => d | none => s0.lndSector t.req.a
      let full := t.req.mask = BitVec.allOnes 64
      ((s0.dropAll t.req.a).lndWrite t.req.a (mergeMask old.1 t.req.data t.req.mask) (if full then t.req.poison else old.2 || t.req.poison),
        { t with dataGiven := true })
  else (s, t)

/-- A transaction that snooped the eviction e of sector a has its data (R301). -/
def State.evServes (s : State) (a : Nat) (e : Evict) : State :=
  match s.txnOf a with
  | none => s
  | some t =>
    let r := s.settle (if t.snps.any (fun y => y.evict) then { t with data := some (e.data, e.poison) } else t)
    r.1.putTxn r.2

/-- The eviction e of sector a has entered the home's buffer: it is in the Landing (R301). -/
def State.evTaken (s : State) (a : Nat) (e : Evict) : State :=
  ((s.lndWrite a e.data e.poison).updHome (homeOf a) (fun h => { h with
    evs := h.evs.map (fun x => if x = e then { x with taken := true } else x) })).evServes a e

/-- The EV_DATA of cluster c for sector a that the home has not taken, if it travels, is taken: ahead of any request for the sector (R301). -/
def State.takeEvs (s : State) (a : Nat) (sel : Nat → Bool) : State :=
  ((s.home (homeOf a)).evs.filter (fun e => e.a = a && sel e.c && !e.taken)).foldl (fun t e => t.evTaken a e) s

/-- A transaction becomes active: the lookup, its snoops, its data from the Landing or the host (R297, R302, R303). -/
def State.startTxn (s0 : State) (t0 : Txn) : State × Txn :=
  let t := { t0 with active := true }
  let a := t.req.a
  let s := s0.takeEvs a (fun c => c = t.req.r)
  let h := homeOf a
  if isHostSec a then
    if t.req.kind == .wrInv then
      let sn := (s.holders a 99).map (fun x => (⟨x.1, 2, 0, false, false⟩ : Snp))
      (s.homeCount h 1 sn.length t.req.secure).settle { t with snps := sn }
    else s.askHost t
  else
    let own := (s.memCl t.req.r).sector a
    let kind := if t.req.kind == .upg && (own.st == .I || 15 < t.req.r) then .rdX else t.req.kind
    let hs := s.holders a t.req.r
    let sn := snoopsFor kind hs
    let s1 := s.homeCount h 1 sn.length t.req.secure
    let supplied := sn.any (fun x => x.kind != 2)
    let grant := match kind with
      | .rdS => if hs.isEmpty then 2 else 1
      | .rdX => 3
      | .upg => 3
      | _ => 4
    let s2 := if supplied || kind == .upg || kind == .wrInv then s1 else s1.lndCheck a t.req.secure
    let data := if supplied || kind == .upg || kind == .wrInv then none else some (s2.lndSector a)
    s2.settle { t with req := { t.req with kind := kind }, snps := sn, grant := grant, data := data }

/-- A transaction not yet started. -/
def Txn.of (q : CReq) (now id : Nat) (resv : Bool) : Txn := ⟨q, false, [], none, false, 0, false, false, 2, now, id, resv⟩

/-- The request of requester r for sector a and kind k that waits to be admitted. -/
def State.reqOf (s : State) (r a : Nat) (k : ReqKind) : Option CReq :=
  s.coh.reqs.find? (fun q => q.r = r && q.a = a && q.kind == k && q.retry ≠ 1 && q.retry ≠ 2 && q.after ≤ s.tick)

/-- A requester sends a request, unless one of its own for the sector and kind is under way and serves it too. -/
def State.sendReq (s : State) (q : CReq) : State :=
  let dup := fun (x : CReq) => x.r = q.r && x.a = q.a && x.kind == q.kind && x.hpa = q.hpa && x.kind != .wrInv && x.kind != .rdNc &&
    (!isHostSec q.a || x.engine = q.engine)
  if s.coh.reqs.any dup || (s.home (homeOf q.a)).txns.any (fun t => !t.granted && dup t.req) then s
  else s.setCoh (fun c => { c with reqs := c.reqs ++ [q] })

/-- Replace a waiting request. -/
def replaceReq (q q' : CReq) : List CReq → List CReq
  | [] => []
  | x :: r => if x = q then q' :: r else x :: replaceReq q q' r

/-- Remove a waiting request. -/
def removeReq (q : CReq) : List CReq → List CReq
  | [] => []
  | x :: r => if x = q then r else x :: removeReq q r

/-- The shared entries of a home in use; it holds 64 (R295). -/
def Home.shared (h : Home) : Nat := h.txns.countP (fun t => !t.resv)

/-- The reserved entry of requester r is free: it holds no ticket and no transaction (R296). -/
def Home.entryFree (h : Home) (r : Nat) : Bool := !h.tickets.contains r && !h.txns.any (fun t => t.resv && t.req.r = r)

/-- The L2 holds back a request whose allocation would cause a fifth EV_DATA at a home (R301). -/
def State.heldBack (s : State) (q : CReq) : Bool := (q.kind == .rdS || q.kind == .rdX) && q.r < 16 && !s.evictRoom q.r q.engine q.a

/-- A request q is admitted into an entry of home h (R295, R296): its block takes a way in the requester's L2, and it becomes active unless the sector is busy; an injected slice error is corrected from the L2 tag (R298, Table 14.6). -/
def State.enterHome (s0 : State) (h : Nat) (q : CReq) (resv busy : Bool) : State :=
  let s := if (q.kind == .rdS || q.kind == .rdX) && q.r < 16 && !isHostSec q.a then s0.l2Alloc q.r q.engine q.a else s0
  let s1 := (s.setCoh (fun c => { c with reqs := removeReq q c.reqs })).homeCount h 0 1 q.secure
  let t := Txn.of q s.tick (s.home h).next resv
  if busy then s1.addTxn t
  else
    let (s2, t1) := s1.startTxn t
    let s3 := s2.addTxn t1
    if s3.armed (uHome h) 1 then s3.repT (uHome h) 0x14 0 0x1FE (64 * q.a) true q.secure else s3

/-- A busy home answers RETRY, with a ticket if the requester's reserved entry is free (R296). -/
def State.refuseReq (s : State) (h : Nat) (q : CReq) : State :=
  let ticket := (s.home h).entryFree q.r
  let s1 := s.setCoh (fun c => { c with reqs := replaceReq q { q with retry := if ticket then 2 else 1 } c.reqs })
  (s1.updHome h (fun y => { y with tickets := if ticket then y.tickets ++ [q.r] else y.tickets })).homeCount h 2 1 q.secure

/-- A request reaches its home (R295, R296): a ticketed one is always admitted, into its reserved entry; another one into a shared entry, or into its requester's reserved entry where the shared ones are full (R26, log 82); a busy sector answers RETRY. -/
def State.arrive (s : State) (r a : Nat) (k : ReqKind) : State :=
  match s.reqOf r a k with
  | none => s
  | some q =>
    let h := homeOf a
    let busy := (s.home h).txns.any (fun t => t.req.a = a)
    if s.heldBack q then s
    else if q.retry = 3 then s.enterHome h q true busy
    else if busy then s.refuseReq h q
    else if (s.home h).shared < 64 then s.enterHome h q false false
    else if (s.home h).entryFree r then s.enterHome h q true false
    else s

/-- RD_S (R302). -/
def execRdS (r : ReqId) (a : BitVec 42) (s : State) : Host.Outcome State Fault Refusal :=
  .next (s.when s.on (fun t => t.arrive r.val a.toNat .rdS))
/-- RD_X (R302). -/
def execRdX (r : ReqId) (a : BitVec 42) (s : State) : Host.Outcome State Fault Refusal :=
  .next (s.when s.on (fun t => t.arrive r.val a.toNat .rdX))
/-- UPG (R302). -/
def execUpg (r : ReqId) (a : BitVec 42) (s : State) : Host.Outcome State Fault Refusal :=
  .next (s.when s.on (fun t => t.arrive r.val a.toNat .upg))
/-- RD_NC (R302). -/
def execRdNc (r : ReqId) (a : BitVec 42) (s : State) : Host.Outcome State Fault Refusal :=
  .next (s.when s.on (fun t => t.arrive r.val a.toNat .rdNc))
/-- WR_INV (R302). -/
def execWrInv (r : ReqId) (a : BitVec 42) (s : State) : Host.Outcome State Fault Refusal :=
  .next (s.when s.on (fun t => t.arrive r.val a.toNat .wrInv))

/-- The ticketed transaction of requester r at home h that may become active: nothing on its sector was admitted before it (R296). -/
def State.ticketTxn (s : State) (h r : Nat) : Option Txn :=
  (s.home h).txns.find? (fun t => t.req.r = r && !t.active &&
    ((s.home h).txns.find? (fun u => u.req.a = t.req.a)) == some t)

/-- The ticketed transaction of requester r at home h becomes active (R296). -/
def State.activateAt (s : State) (h r : Nat) : State :=
  match s.ticketTxn h r with
  | some t => let x := s.startTxn t; x.1.putTxn x.2
  | none => s

/-- TICKET_ACTIVATE (R296). -/
def execTicketActivate (h : ClId) (r : ReqId) (s : State) : Host.Outcome State Fault Refusal :=
  .next (s.when s.on (fun t => t.activateAt h.val r.val))

/-! ## Snoops at an L2 (Table 10.2) -/

/-- The snoop of kind k sent to cluster c for sector a and not answered. -/
def Txn.snoopAt (t : Txn) (c k : Nat) : Bool := t.snps.any (fun x => x.c = c && x.kind = k && x.stage = 0)

/-- What a snoop of kind k for sector a does in the L2 of cluster c: data, new state, write-back (R269, R270, R299). The answer: the data it sends, if it sends any. -/
def State.snoopL2 (s : State) (c a k : Nat) : State × Option (Sector × Bool) :=
  let s1 := s.gather c a
  let y := (s1.memCl c).sector a
  let s2 :=
    if k = 3 then s1
    else if k = 0 then
      let s2 := if y.st.dirty && y.writers != 0 then s1.lndWrite a y.data y.poison else s1
      s2.updMem c (fun m => m.putSec a { y with st := if y.st == .E then .S else if y.st == .M then .O else y.st, writers := 0 })
    else
      let s2 := if k = 1 && y.st.dirty then s1.lndWrite a y.data y.poison else s1
      s2.dropSec c a
  (s2, if k != 2 && y.st != .I then some (y.data, y.poison) else none)

/-- The L2 of cluster c answers a snoop of kind k for sector a; an eviction under way answers EVICT_IN_FLIGHT (R299, R301). -/
def State.answerSnoop (s : State) (c a k : Nat) : State :=
  match s.txnOf a with
  | none => s
  | some t =>
    if !t.snoopAt c k then s
    else if (s.home (homeOf a)).evs.any (fun e => e.c = c && e.a = a) then
      s.putTxn { t with snps := t.snps.map (fun x => if x.c = c then { x with stage := 1, evict := true } else x) }
    else
      let r := s.snoopL2 c a k
      r.1.putTxn { t with
        snps := t.snps.map (fun x => if x.c = c then { x with stage := 1, dataSent := r.2.isSome } else x),
        data := if r.2.isSome then r.2 else t.data }

/-- SNP_S (R299). -/
def execSnpS (c : ClId) (a : BitVec 42) (s : State) : Host.Outcome State Fault Refusal := .next (s.when s.on (fun t => t.answerSnoop c.val a.toNat 0))
/-- SNP_X (R299). -/
def execSnpX (c : ClId) (a : BitVec 42) (s : State) : Host.Outcome State Fault Refusal := .next (s.when s.on (fun t => t.answerSnoop c.val a.toNat 1))
/-- SNP_INV (R299). -/
def execSnpInv (c : ClId) (a : BitVec 42) (s : State) : Host.Outcome State Fault Refusal := .next (s.when s.on (fun t => t.answerSnoop c.val a.toNat 2))
/-- SNP_CUR (R299). -/
def execSnpCur (c : ClId) (a : BitVec 42) (s : State) : Host.Outcome State Fault Refusal := .next (s.when s.on (fun t => t.answerSnoop c.val a.toNat 3))

/-- The data of an eviction the transaction waits for, once the home has taken it (R301), or what it holds already. -/
def State.evictData (s : State) (a : Nat) (t : Txn) : Option (Sector × Bool) :=
  if t.snps.any (fun x => x.evict) then
    match (s.home (homeOf a)).evs.find? (fun e => e.a = a && e.taken) with
    | some e => some (e.data, e.poison)
    | none => t.data
  else t.data

/-- Every L2 has answered and none had the data any more: it comes from the Landing (R300, Table 10.3). -/
def State.fromLanding (s : State) (t : Txn) : State × Txn :=
  if t.snps.all (fun x => x.stage = 2 && !x.evict) && t.data.isNone && (t.req.kind == .rdS || t.req.kind == .rdX || t.req.kind == .rdNc) && !isHostSec t.req.a then
    let s1 := s.lndCheck t.req.a t.req.secure
    (s1, { t with data := some (s1.lndSector t.req.a) })
  else (s, t)

/-- Data a transaction needs has come: its snoops are answered and an eviction in flight has arrived. -/
def State.dataReady (s : State) (t : Txn) : Bool :=
  t.active && !t.hostWait && t.snps.all (fun x => x.stage = 2) &&
    (t.req.kind == .upg || t.req.kind == .wrInv || (s.evictData t.req.a t).isSome)

/-- A snoop response of cluster c reaches the home of sector a (R302); an eviction in flight counts in COH_EIF. -/
def State.rspAt (s : State) (c a : Nat) : State :=
  match s.txnOf a with
  | none => s
  | some t =>
    match t.snps.find? (fun x => x.c = c && x.stage = 1) with
    | none => s
    | some x =>
      let s1 := s.homeCount (homeOf a) 3 (b2n x.evict) t.req.secure
      let t1 := { t with snps := t.snps.map (fun y => if y = x then { y with stage := 2 } else y) }
      let t2 := { t1 with data := match s1.evictData a t1 with | some d => some d | none => t1.data }
      let r := if t2.snps.any (fun y => y.evict) && t2.data.isNone then (s1, t2) else s1.settle t2
      let r1 := r.1.fromLanding r.2
      r1.1.putTxn r1.2

/-- RSP (R302). -/
def execRsp (c : ClId) (a : BitVec 42) (s : State) : Host.Outcome State Fault Refusal :=
  .next (s.when s.on (fun t => t.rspAt c.val a.toNat))

/-! ## Data, grants, ends -/

/-- One sector and its poison flag reach requester r (R302). -/
def State.dataAt (s : State) (r a : Nat) : State :=
  match s.txnOf a with
  | none => s
  | some t =>
    if t.req.r = r && !t.dataGiven && t.req.kind != .upg && t.req.kind != .wrInv && s.dataReady t then
      s.putTxn { t with dataGiven := true, data := s.evictData a t }
    else s

/-- DATA (R302). -/
def execData (r : ReqId) (a : BitVec 42) (s : State) : Host.Outcome State Fault Refusal :=
  .next (s.when s.on (fun t => t.dataAt r.val a.toNat))

/-- What a requester does with its grant: installs the state, delivers loads, performs stores, answers a host (R302, R304). -/
def State.deliver (s : State) (t : Txn) : State :=
  let a := t.req.a
  let c := t.req.r
  let d := match t.data with | some x => x | none => s.newest a
  if 15 < c then
    if t.req.kind == .wrInv then s.emit (.memDone (if c = 16 then 0 else 1) (BitVec.ofNat 48 t.req.addr))
    else s.emit (.memData (if c = 16 then 0 else 1) (BitVec.ofNat 48 t.req.addr) d.1 d.2)
  else match t.req.kind with
  | .wrInv => match t.req.engine with
    | some e => s.updLe e (fun x => { x with stores := x.stores.eraseP (fun z => z.addr = t.req.addr) })
    | none => s
  | .rdNc => match t.req.engine with
    | some e => s.resolveLoads e a d.1 d.2
    | none => s
  | .rdS =>
    let y := (s.memCl c).sector a
    let held : Bool := y.st != .I && y.hpa = t.req.hpa
    let keep : Bool := !isHostSec a || (s.port t.port).up
    let s1 := if held || !keep then s
      else (s.dropL1s c a).l2Fill c t.req.engine a ⟨if t.grant = 2 then .E else .S, d.1, d.2, 0, 0, t.req.hpa, t.port⟩
    let v := if held && !isHostSec a then s.newest a else d
    match t.req.engine with
    | none => s1
    | some e =>
      let slot := s1.leSlot e
      let l2 := ((s1.memCl c).sector a).st != .I && ((s1.memCl c).sector a).hpa = t.req.hpa
      let s2 := if l2 && !held && s1.l1On c slot then s1.l1Fill c slot a ⟨1, v.1, v.2, false⟩ else s1
      if isHostSec a then s2.resolveLoads e a v.1 v.2
      else
        let s3 := s2.resolveCluster c a v
        if ((s3.memCl c).sector a).st == .E || ((s3.memCl c).sector a).st == .M then s3.performStores c a else s3
  | _ =>
    let y := (s.memCl c).sector a
    let s0 := s.resolveCluster c a (if y.st == .I then d else s.newest a)
    let s1 :=
      if y.st != .I then s0.updMem c (fun m => m.putSec a { y with st := .M })
      else s0.l2Fill c t.req.engine a ⟨.M, d.1, d.2, 0, 0, 0, 2⟩
    s1.performStores c a

/-- The grant may be given: data delivered, responses in (R302). -/
def State.grantReady (s : State) (t : Txn) (r : Nat) : Bool :=
  t.req.r = r && !t.granted && s.dataReady t && (t.dataGiven || t.req.kind == .upg)

/-- The grant reaches requester r (R302). -/
def State.grantAt (s : State) (r a : Nat) : State :=
  match s.txnOf a with
  | none => s
  | some t => if s.grantReady t r then (s.deliver t).putTxn { t with granted := true } else s

/-- GRANT (R302). -/
def execGrant (r : ReqId) (a : BitVec 42) (s : State) : Host.Outcome State Fault Refusal :=
  .next (s.when s.on (fun t => t.grantAt r.val a.toNat))

/-- The grant of requester r is acknowledged, which ends the transaction (R296). -/
def State.ackAt (s : State) (r a : Nat) : State :=
  match s.txnOf a with
  | none => s
  | some t => if t.req.r = r && t.granted then s.dropTxn t else s

/-- GRANT_ACK (R296). -/
def execGrantAck (r : ReqId) (a : BitVec 42) (s : State) : Host.Outcome State Fault Refusal :=
  .next (s.when s.on (fun t => t.ackAt r.val a.toNat))

/-- RETRY reaches a requester (R296): with a ticket it sends again at once, without one no sooner than 20 ns (2 TICKs) later. -/
def execRetry (r : ReqId) (a : BitVec 42) (s : State) : Host.Outcome State Fault Refusal :=
  .next (s.when s.on (fun s0 => match s0.coh.reqs.find? (fun q => q.r = r.val && q.a = a.toNat && (q.retry = 1 || q.retry = 2)) with
    | none => s0
    | some q =>
      let q1 := if q.retry = 2 then { q with retry := 3 } else { q with retry := 4, after := s0.tick + 2 }
      s0.setCoh (fun c => { c with reqs := replaceReq q q1 c.reqs })))

/-- EV_DATA enters the eviction buffer and is written to the Landing (R301). -/
def execEvData (c : ClId) (a : BitVec 42) (s : State) : Host.Outcome State Fault Refusal :=
  .next (s.when s.on (fun s0 => match (s0.home (homeOf a.toNat)).evs.find? (fun e => e.c = c.val && e.a = a.toNat && !e.taken) with
    | none => s0
    | some e => s0.evTaken a.toNat e))

/-- EV_ACK: the evicting L2 releases its data (R301). -/
def execEvAck (c : ClId) (a : BitVec 42) (s : State) : Host.Outcome State Fault Refusal :=
  .next (s.when s.on (fun s0 =>
    if (s0.txnOf a.toNat).any (fun t => t.snps.any (fun x => x.evict && x.stage ≠ 2)) then s0
    else s0.updHome (homeOf a.toNat) (fun h => { h with evs := h.evs.filter (fun e => !(e.c = c.val && e.a = a.toNat && e.taken)) })))

/-! ## The host side (R303) -/

/-- The cached copies of a host line (R303, log 18). -/
def State.hostCopies (s : State) (hpa : Nat) : List (Nat × Nat) :=
  (upTo 16).flatMap (fun c =>
    ((s.memCl c).l2.filterMap (fun e => e.2)).flatMap (fun b =>
      ([2 * b.blk, 2 * b.blk + 1]).filterMap (fun a =>
        let y := (s.memCl c).sector a
        if isHostSec a && y.st != .I && y.hpa = hpa then some (c, a) else none)))

/-- The homes a host snoop concerns can take it: no transaction on a copy's sector, and the port's reserved entry free (R295, R303). -/
def State.snoopFits (s : State) (p : Nat) (copies : List (Nat × Nat)) : Bool :=
  copies.all (fun x => (s.txnOf x.2).isNone && (s.home (homeOf x.2)).entryFree (16 + p))

/-- HOST_SNOOP (R303): a transaction in the reserved entry of its port. SnpInv invalidates every copy; SnpData and SnpCur change nothing. -/
def execHostSnoop (p : PortId) (k : HostSnp) (addr : BitVec 52) (s : State) : Host.Outcome State Fault Refusal :=
  let copies := s.hostCopies (addr.toNat / 64 * 64)
  .next (s.when (s.on && (s.port p.val).up && s.snoopFits p.val copies) (fun s0 =>
    let had := !copies.isEmpty
    let s1 := match copies.head? with | some x => s0.homeCount (homeOf x.2) 0 1 false | none => s0
    let s2 := match k with
      | .inv => copies.foldl (fun (t : State) (x : Nat × Nat) => (t.homeCount (homeOf x.2) 1 1 false).dropSec x.1 x.2) s1
      | _ => s1
    s2.emit (.snoopRsp p addr (match k with | .inv => if had then 1 else 0 | _ => if had then 2 else 0))))

/-- HOST_READ_RESPONSE: the host answers an RdShared or RdCurr (R63, R303). -/
def execHostReadResponse (p : PortId) (a : BitVec 42) (data : Sector) (poison : Bool) (s : State) : Host.Outcome State Fault Refusal :=
  .next (s.when (s.on && (s.port p.val).up) (fun s0 => match s0.txnOf a.toNat with
    | none => s0
    | some t =>
      if t.hostWait && t.port = p.val && t.req.kind != .wrInv then
        s0.putTxn { t with hostWait := false, data := some (data, poison), grant := if t.req.kind == .rdS then 1 else 4 }
      else s0))

/-- HOST_WRITE_COMPLETION: the host completes an ItoMWr or WrInv (R303, R313). -/
def execHostWriteCompletion (p : PortId) (a : BitVec 42) (s : State) : Host.Outcome State Fault Refusal :=
  .next (s.when (s.on && (s.port p.val).up) (fun s0 => match s0.txnOf a.toNat with
    | none => s0
    | some t =>
      if t.hostWait && t.port = p.val && t.req.kind == .wrInv then s0.putTxn { t with hostWait := false, grant := 4 } else s0))

/-- Host requests of a lost port, or waiting for one, are issued again through a port that is up; their timer starts again (R57, R306). -/
def State.hostReissue (s : State) : State :=
  (upTo 16).foldl (fun z h => (z.home h).txns.foldl (fun u t =>
    if t.active && t.hostWait && (t.port = 2 || !(u.port t.port).up) then
      let (u1, t1) := u.askHost t
      let t2 := { t1 with since := u.tick }
      u1.putTxn t2
    else u) z) s

/-- Host lines obtained through the lost port p leave every cache (R57). -/
def State.dropHostLines (s : State) (p : Nat) : State :=
  (upTo 16).foldl (fun z c =>
    (((z.memCl c).l2.filterMap (fun e => e.2)).flatMap (fun b => [2 * b.blk, 2 * b.blk + 1])).foldl (fun u a =>
      if isHostSec a && ((u.memCl c).sector a).port = p then u.dropSec c a else u) z) s

/-! ## Timeouts (R306, R307) -/

/-- The party of Table 10.4 that did not answer: kind 1-4 and cluster; of several L2s one that holds M or O. -/
def State.silent (s : State) (t : Txn) : Option (Nat × Nat) :=
  let late := t.snps.filter (fun x => x.stage ≠ 2)
  match late.find? (fun x => ((s.memCl x.c).sector t.req.a).st.dirty || x.evict), late.head? with
  | some x, _ => some (2, x.c)
  | none, some x => some (1, x.c)
  | none, none =>
    match t.snps.find? (fun x => x.evict) with
    | some x => if t.data.isNone then some (2, x.c) else none
    | none => if t.hostWait then some (if t.req.kind == .wrInv then 4 else 3, 0) else none

/-- Home h counts a timeout of sector a, keeps it in COH_TO_LOG and reports it in its class (R307, Table 10.4): party `kind` of cluster c did not answer. -/
def State.timeoutLog (s : State) (a kind c : Nat) (sec : Bool) : State :=
  let h := homeOf a
  let log : W64 := BitVec.ofNat 64 (fields [(60, kind), (56, c), (6, a)])
  ((s.homeCount h 4 1 sec).updHome h (fun (x : Home) => { x with toLog := log })).repT
    (uHome h) (if kind = 1 || kind = 3 then 0x17 else 0x25) 0 0x1FE (64 * a) false sec

/-- The home ends a transaction on timeout (Table 10.4); the copy of every L2 that did not answer goes. -/
def State.timeoutTxn (s : State) (t : Txn) (kind c : Nat) : State :=
  let a := t.req.a
  let h := homeOf a
  let s2 := s.timeoutLog a kind c t.req.secure
  let done := { t with snps := t.snps.map (fun (x : Snp) => { x with stage := 2, evict := false }), hostWait := false, granted := true }
  let gone := (t.snps.filter (fun (x : Snp) => x.stage ≠ 2)).foldl (fun (z : State) (x : Snp) => z.dropSec x.c a) s2
  match kind with
  | 1 =>
    let s3 := gone.lndCheck a t.req.secure
    let d := s3.lndSector a
    let (s4, t1) := s3.settle { done with data := some d }
    (s4.deliver t1).dropTxn t
  | 2 =>
    let old := (s2.lndSector a).1
    let s3 := ((((gone.dropSec c a).updHome h (fun (x : Home) => { x with evs := x.evs.filter (fun e => !(e.c = c && e.a = a && !e.taken)) })).lndWrite a old true)).homeCount h 5 1 t.req.secure
    let (s4, t1) := s3.settle { done with data := some (old, true) }
    (s4.deliver t1).dropTxn t
  | 3 => match t.req.engine with
    | some e => (s2.resolveLoads e a 0 true).dropTxn t
    | none => s2.dropTxn t
  | _ => s2.dropTxn t

/-- HOME_TIMEOUT (R306, R307). -/
def execHomeTimeout (a : BitVec 42) (s : State) : Host.Outcome State Fault Refusal :=
  .next (s.when s.on (fun s0 => match s0.txnOf a.toNat with
    | none => s0
    | some t =>
      if t.since + us s0.coh.homeTo.toNat ≤ s0.tick && !t.granted then
        match s0.silent t with
        | some (k, c) => s0.timeoutTxn t k c
        | none => s0
      else s0))

/-! ## CXL.mem (R61, R62, R304) -/

/-- The exposed range: from the watermark rounded up to 256 MiB to the system area (R61). -/
def State.exposed (s : State) (addr : Nat) : Bool :=
  (s.lnd.watermark.toNat * 0x200000 + 0xFFFFFFF) / 0x10000000 * 0x10000000 ≤ addr && addr < 0xFC0000000

/-- The F0 of an access outside the exposed range (R62). -/
def State.memRefused (s : State) (p : Nat) (addr : BitVec 48) : State :=
  s.repF uHost 0x02 0x1FE (fields [(0, addr.toNat), (56, p)])

/-- A CXL.mem request of port p (R304). -/
def memReq (p : Nat) (k : ReqKind) (addr : BitVec 48) (mask : W64) (d : Sector) (poison : Bool) : CReq :=
  ⟨16 + p, k, addr.toNat / 64, mask, d, poison, none, addr.toNat, 0, 0, false, false, 0⟩

/-- CXL_MEM_READ (R62): inside the exposed range it enters its home as RD_NC; outside it completes with poison and is logged. -/
def execCxlMemRead (p : PortId) (addr : BitVec 48) (s : State) : Host.Outcome State Fault Refusal :=
  .next (s.when (s.on && (s.port p.val).up && s.isReady) (fun s0 =>
    if s0.exposed addr.toNat then s0.setCoh (fun c => { c with reqs := c.reqs ++ [memReq p.val .rdNc addr 0 0 false] })
    else (s0.emit (.memData p addr 0 true)).memRefused p.val addr))

/-- CXL_MEM_WRITE (R62): inside the exposed range it enters its home as WR_INV; outside it is dropped and logged. -/
def execCxlMemWrite (p : PortId) (addr : BitVec 48) (mask : W64) (data : Sector) (poison : Bool) (s : State) : Host.Outcome State Fault Refusal :=
  .next (s.when (s.on && (s.port p.val).up && s.isReady) (fun s0 =>
    if s0.exposed addr.toNat then s0.setCoh (fun c => { c with reqs := c.reqs ++ [memReq p.val .wrInv addr mask data poison] })
    else (s0.emit (.memDone p addr)).memRefused p.val addr))

end Sys2Proof.Machine
end

