-- ==== Sys2Proof/Machine/Maint.lean ====
section
/-! DEFINITION. Cache maintenance, cache enables, scratch bank states, patrol scrub and their counters (R275-R280, R285, R289, R293, R317). -/

namespace Sys2Proof.Machine

/-- The write reaches the block: a PF through its port once phase K has ended, or the secure world while it runs (R393, R447, Table 6.8). -/
def State.whoOk (s : State) (w : Who) : Bool :=
  match w with
  | .pf p => s.on && (s.port p.val).answering && (s.port p.val).up
  | .secure => s.live && s.tru.secState = 1

/-- The FUNC under which a refusal to w is logged: the PF, or 0x1FF for the secure world. -/
def whoFn (w : Who) : Nat := match w with | .pf p => pfOf p.val | .secure => 0x1FF

/-- Block d is secure-owned (R376, Table 13.2): by owner for engines, groups and coders, by SCR for scratch. -/
def State.secBlock (s : State) (d : Nat) : Bool :=
  if 0x300 ≤ d && d < 0x310 then d - 0x300 < s.tru.wm.scr.toNat else if 0x400 ≤ d && d ≤ 0x403 then true else Sp.look s.tru.sec false d

/-- Unit u of Table 14.2 is secure-owned, or its bound logical engine is (R377, R411). -/
def State.secUnit (s : State) (u : Nat) : Bool :=
  if 0x1000 ≤ u && u < 0x1090 then (s.pe (u - 0x1000)).logical < 128 && s.secBlock (s.pe (u - 0x1000)).logical
  else if 0x1100 ≤ u && u < 0x1200 then s.secBlock (0x300 + (u - 0x1100) / 16)
  else if u = 0x1602 then true
  else if u < 0x300 then s.secBlock u
  else false

/-- A normal-world request on a secure-owned block is refused and logged (R377). -/
def State.refuse377 (s : State) (f target : Nat) : State := s.repF uTru 0x02 f target

/-! ## The MEMORY grant of a cluster (R20, R427) -/

/-- Cluster c runs a range operation, a flush, a bank fill or a test copy (Table 15.2). -/
def State.memBusy (s : State) (c : Nat) : Bool :=
  let m := s.memCl c
  m.maint.isSome || m.l2State = 2 || m.l1.any (fun x => x.2.state = 2) || !m.bankWait.isEmpty || m.test.any (fun x => x.phase != 2)

/-- The grant of the cluster's memory work is taken as the work starts: 16 of them fit the reserve, so it never waits (R427, R428). -/
def State.memTake (s : State) (c : Nat) : State := s.askGrant 5 2 (whoMem c)

/-- The grant goes back with the end of the cluster's last such work (R427). -/
def State.memGive (s : State) (c : Nat) : State := if s.memBusy c then s else s.releaseGrant 5 (whoMem c)

/-! ## Range operations (R275-R278) -/

/-- MEM_MAINT_RESULT's next SEQ (R97). -/
def State.maintResult (s : State) (c st : Nat) (val : Nat) : State :=
  s.updMem c (fun m => { m with maintStatus := BitVec.ofNat 8 st, maintVal := BitVec.ofNat 32 val })

/-- The status the start of a range operation gives (Table 9.4), NOT_READY when it runs. -/
def State.maintCheck (s : State) (w : Who) (c op : Nat) (expert : Bool) : Nat :=
  let m := s.memCl c
  let lo := 64 * m.maintBase.toNat
  let hi := lo + 64 * (m.maintLen.toNat + 1)
  let land := hi ≤ 0xFC0000000
  let host := 0x8000000000 ≤ lo && hi ≤ 0x10000000000
  if 3 ≤ op then stInvalid
  else if !land && !host then stNotPermitted
  else if op = 2 && !expert then stNotPermitted
  else if op = 2 && land && w != .secure && lo < s.lnd.watermark.toNat * 0x200000 then stDenied
  else stNotReady

/-- A write of MEM_MAINT_CMD (R275, R276). -/
def State.maintStart (s : State) (w : Who) (c op : Nat) (expert : Bool) : State :=
  let m := s.memCl c
  if m.maint.isSome then s.repF (uL2 c) 0x02 (whoFn w) (0x900000 + 0x4000 * c + 0x4C)
  else
    let st := s.maintCheck w c op expert
    let s1 := s.updMem c (fun x => { x with
      maintSeq := x.maintSeq + 1
      maint := if st = stNotReady then some ⟨op, x.maintBase.toNat, x.maintLen.toNat + 1, w == .secure⟩ else none })
    (if st = stNotReady then s1.memTake c else s1).maintResult c st 0

/-- CLEAN (R275). -/
def execClean (w : Who) (c : ClId) (expert : Bool) (s : State) : Host.Outcome State Fault Refusal :=
  .next (s.when (s.whoOk w) (fun t => t.maintStart w c.val 0 expert))
/-- INVALIDATE (R275). -/
def execInvalidate (w : Who) (c : ClId) (expert : Bool) (s : State) : Host.Outcome State Fault Refusal :=
  .next (s.when (s.whoOk w) (fun t => t.maintStart w c.val 1 expert))
/-- DISCARD (R275). -/
def execDiscard (w : Who) (c : ClId) (expert : Bool) (s : State) : Host.Outcome State Fault Refusal :=
  .next (s.when (s.whoOk w) (fun t => t.maintStart w c.val 2 expert))

/-- Sectors a cluster's L2 holds. -/
def State.l2Sectors (s : State) (c : Nat) : List Nat :=
  ((s.memCl c).l2.filterMap (fun e => e.2)).flatMap (fun b => [2 * b.blk, 2 * b.blk + 1])

/-- One sector of a range operation: the state and whether it was written to the Landing (Table 9.3). -/
def State.maintSector (s : State) (c op a : Nat) : State × Nat :=
  if op = 0 && isHostSec a then (s, 0)
  else if 2 ≤ op then (s.dropSec c a, 0)
  else
    let s1 := s.gather c a
    let s2 := s1.l2Clean c a
    (if op = 0 then s2 else s2.dropSec c a, b2n ((s1.memCl c).sector a).st.dirty)

/-- MAINT_COMPLETE: the walk ends (R275-R278). -/
def execMaintComplete (c : ClId) (s : State) : Host.Outcome State Fault Refusal :=
  .next (match (s.memCl c.val).maint with
    | none => s
    | some r =>
      let hit := (s.l2Sectors c.val).filter (fun a => r.base ≤ a && a < r.base + r.count)
      let out := hit.foldl (fun (x : State × Nat) a => let y := x.1.maintSector c.val r.op a; (y.1, x.2 + y.2)) (s, 0)
      let s1 := (out.1.memCount c.val 7 out.2 r.secure).updMem c.val (fun m => { m with maint := none })
      (s1.memGive c.val).maintResult c.val stOk (min out.2 0xFFFFFFFF))

/-! ## Cache enables (R279, R280) -/

/-- The logical engine bound to a slot is secure-owned (R377). -/
def State.slotSecure (s : State) (c slot : Nat) : Bool :=
  let l := (s.pe (9 * c + slot)).logical
  l < 128 && s.secBlock l

/-- A normal write to MEM_L1_CTRL of a secure-owned engine's slot is refused (R377). -/
def State.l1Refused (s : State) (w : Who) (c slot : Nat) : Bool := w != .secure && s.slotSecure c slot

/-- A write of MEM_L1_CTRL.ENABLE (R279). -/
def State.l1Ctrl (s : State) (w : Who) (c slot : Nat) (en : Bool) : State :=
  if s.l1Refused w c slot then s.refuse377 (whoFn w) (uPe (9 * c + slot))
  else
    let s1 := s.updL1 c slot (fun x => { x with
      enable := en
      state := if !en && x.state = 1 then 2 else if en && x.state = 0 && (s.memCl c).l2State = 1 then 1 else x.state })
    if s1.memBusy c then s1.memTake c else s1

/-- L1_DISABLE (R279). -/
def execL1Disable (w : Who) (c : ClId) (slot : QId) (s : State) : Host.Outcome State Fault Refusal :=
  .next (s.when (s.whoOk w) (fun t => t.l1Ctrl w c.val slot.val false))
/-- L1_ENABLE (R279). -/
def execL1Enable (w : Who) (c : ClId) (slot : QId) (s : State) : Host.Outcome State Fault Refusal :=
  .next (s.when (s.whoOk w) (fun t => t.l1Ctrl w c.val slot.val true))

/-- A write of MEM_L2_CTRL.ENABLE (R279). -/
def State.l2Ctrl (s : State) (c : Nat) (en : Bool) : State :=
  let m := s.memCl c
  if en then
    if m.l2State = 0 then
      (upTo 9).foldl (fun t k => t.updL1 c k (fun x => { x with state := if x.enable && x.state = 0 then 1 else x.state }))
        (s.updMem c (fun x => { x with l2Enable := true, l2State := 1 }))
    else s.updMem c (fun x => { x with l2Enable := true })
  else if m.l2State = 1 then
    (upTo 9).foldl (fun t k => t.updL1 c k (fun x => { x with state := if x.state = 1 then 2 else x.state }))
      ((s.updMem c (fun x => { x with l2Enable := false, l2State := 2 })).memTake c)
  else s.updMem c (fun x => { x with l2Enable := false })

/-- L2_DISABLE (R279). -/
def execL2Disable (w : Who) (c : ClId) (s : State) : Host.Outcome State Fault Refusal :=
  .next (s.when (s.whoOk w) (fun t => t.l2Ctrl c.val false))
/-- L2_ENABLE (R279). -/
def execL2Enable (w : Who) (c : ClId) (s : State) : Host.Outcome State Fault Refusal :=
  .next (s.when (s.whoOk w) (fun t => t.l2Ctrl c.val true))

/-- Sectors an L1 and its victim cache hold. -/
def L1.sectors (x : L1) : List Nat :=
  (x.blks.filterMap (fun e => e.2) ++ x.vc).flatMap (fun b => (upTo 4).map (fun j => 4 * b.blk + j))

/-- Write back every dirty sector of a slot's L1 and victim cache and empty both (R268, R279). -/
def State.flushL1 (s : State) (c slot : Nat) : State :=
  let x := s.l1 c slot
  let s1 := (x.blks.filterMap (fun e => e.2) ++ x.vc).foldl (fun t b => t.writeBack c slot (some b)) s
  s1.updL1 c slot (fun y => { y with blks := [], vc := [], plru := [] })

/-- Empty a slot's L1 and victim cache without write-back (R386). -/
def State.dropL1All (s : State) (c slot : Nat) : State := s.updL1 c slot (fun y => { y with blks := [], vc := [], plru := [] })

/-- Write every dirty sector of a cluster's L2 to the Landing and empty it (R279). -/
def State.flushL2 (s : State) (c : Nat) : State :=
  let s1 := (s.l2Sectors c).foldl (fun t a => (t.gather c a).l2Clean c a) s
  s1.updMem c (fun m => { m with l2 := [] })

/-- The L1 of a slot ends its flush (R279). -/
def State.endFlushL1 (s : State) (c k : Nat) : State :=
  ((s.flushL1 c k).updL1 c k (fun x => { x with
    state := if x.enable && (s.memCl c).l2State = 1 && (s.memCl c).l2Enable then 1 else 0 })).memGive c

/-- The L2 of cluster c ends its flush; enabled again meanwhile, it and its L1s come back into use (R279). -/
def State.endFlushL2 (s : State) (c : Nat) : State :=
  let t1 := (s.flushL2 c).updMem c (fun m => { m with l2State := if m.l2Enable then 1 else 0 })
  (if (t1.memCl c).l2Enable then
    (upTo 9).foldl (fun z k => z.updL1 c k (fun x => { x with state := if x.enable then 1 else 0 })) t1
  else t1).memGive c

/-- FLUSH_COMPLETE of an L1 (some slot) or of the L2 (R279). -/
def execFlushComplete (c : ClId) (slot : Option QId) (s : State) : Host.Outcome State Fault Refusal :=
  .next (match slot with
    | some k => s.when ((s.l1 c.val k.val).state = 2) (fun t => t.endFlushL1 c.val k.val)
    | none => s.when ((s.memCl c.val).l2State = 2 && (upTo 9).all (fun k => (s.l1 c.val k).state = 0)) (fun t => t.endFlushL2 c.val))

/-! ## Counters -/

/-- MEM_CNT_CLEAR (Table 9.5). -/
def execMemCntClear (w : Who) (c : ClId) (val : W32) (s : State) : Host.Outcome State Fault Refusal :=
  .next (s.when (s.whoOk w && val.getLsbD 0) (fun t =>
    (upTo 9).foldl (fun z k => z.updL1 c.val k (fun x => { x with cnt := [] })) (t.updMem c.val (fun m => { m with cnt := [] }))))

/-- LND_CNT_CLEAR (Table 9.6). -/
def execLndCntClear (w : Who) (val : W32) (s : State) : Host.Outcome State Fault Refusal :=
  .next (s.when (s.whoOk w && val.getLsbD 0) (fun t => t.setLnd (fun l => { l with corr := 0, uncorr := 0, scrubFix := 0 })))

/-- COH_CNT_CLEAR (Table 10.7). -/
def execCohCntClear (w : Who) (h : ClId) (val : W32) (s : State) : Host.Outcome State Fault Refusal :=
  .next (s.when (s.whoOk w && val.getLsbD 0) (fun t => t.updHome h.val (fun x => { x with cnt := [] })))

/-! ## Scratch bank states (R285) -/

/-- A kept scratch address lies in bank b of cluster c. -/
def inBank (c b a : Nat) : Bool := 0x1100000000 ≤ a && a < 0x1101000000 && scrCluster a = c && scrBank a = b

/-- Fill bank b of cluster c with zero (R285). -/
def State.zeroBank (s : State) (c b : Nat) : State :=
  { s with
    bytes := s.bytes.filter (fun e => !inBank c b e.1), poison := s.poison.filter (fun e => !inBank c b e.1),
    ecc := s.ecc.filter (fun e => !inBank c b e.1) }

/-- Loads and stores that wait for a bank of the cluster proceed (R285). -/
def State.wakeAccesses (s : State) (c b : Nat) : State :=
  (upTo 128).foldl (fun t e =>
    let x := t.le e
    let here := fun (a : Nat) => inBank c b (canon (e / 8) a)
    let t1 := (x.flight.filterMap (fun f => f.wait)).foldl (fun u w =>
      if here w.1 then
        let u1 := u.scrCheck (canon (e / 8) w.1) false
        let v := u1.scrRead (canon (e / 8) w.1) w.2
        u1.updLe e (fun y => { y with flight := y.flight.map (fun f => if f.wait = some w then
          { f with val := BitVec.ofNat 64 v.1, wait := none, mask := if v.2 then f.mask ||| 0x200 else f.mask,
                   bits := if v.2 then f.bits ||| 0x200 else f.bits }
          else f) })
      else u) t
    (x.stores.filter (fun st => !st.performed && here st.addr)).foldl (fun u st =>
      (u.scrWrite (canon (e / 8) st.addr) st.size st.val.toNat).updLe e (fun y => { y with stores := y.stores.filter (fun z => z != st) })) t1) s

/-- An access of an engine waits for bank b of cluster c. -/
def State.bankWanted (s : State) (c b : Nat) : Bool :=
  s.eng.les.any (fun e =>
    e.2.flight.any (fun f => match f.wait with | some w => inBank c b (canon (e.1 / 8) w.1) | none => false) ||
    e.2.stores.any (fun st => !st.performed && inBank c b (canon (e.1 / 8) st.addr)))

/-- A bank in RETAIN wakes to ON, stays so, and serves what waits for it (R285). -/
def State.wakeBank (s : State) (c b : Nat) : State :=
  if s.bankState c b = 1 then (s.updMem c (fun m => { m with bank := Sp.put m.bank 0 b 0 })).wakeAccesses c b else s

/-- BANK_WAKE (R285). -/
def execBankWake (c b : ClId) (s : State) : Host.Outcome State Fault Refusal :=
  .next (s.when (s.bankWanted c.val b.val) (fun t => t.wakeBank c.val b.val))

/-- BANK_STATE_COMPLETE: once every access already waiting for the bank has been served, the bank takes its state, filled with zero when it leaves or enters OFF, and the command completes (R285). -/
def execBankStateComplete (c b : ClId) (s : State) : Host.Outcome State Fault Refusal :=
  .next (match (s.memCl c.val).bankWait.find? (fun x => x.1 = b.val) with
    | none => s
    | some w =>
      if s.bankWanted c.val b.val then s
      else
      let old := s.bankState c.val b.val
      let s1 := if (old = 2) != (w.2.1 = 2) then s.zeroBank c.val b.val else s
      let s2 := s1.updMem c.val (fun m => { m with bank := Sp.put m.bank 0 b.val w.2.1, bankWait := m.bankWait.filter (fun x => x != w) })
      (s2.memGive c.val).finishH w.2.2 stOk 0 0)

/-! ## Patrol scrub (R288, R289) -/

/-- PATROL_SCRUB: the next Landing sector is read and corrected (R289). -/
def execPatrolScrub (r : ScrubRead) (s : State) : Host.Outcome State Fault Refusal :=
  .next (s.when (s.live && s.lnd.scrubEn && s.lnd.init = 2) (fun t =>
    let addr := t.lnd.scrubPos
    let n := Sp.look t.ecc 0 addr
    let found : Nat := if n ≠ 0 then n else match r with | .clean => 0 | .corrected => 1 | .uncorrectable => 2
    let u := uStack (stackOf addr)
    let t1 := { t with ecc := Sp.put t.ecc 0 addr 0, poison := if 2 ≤ found then Sp.put t.poison false addr true else t.poison }
    let t2 := t1.setLnd (fun l => { l with
      scrubPos := (addr + 64) % 0x1000000000, scrubFix := sat32 l.scrubFix (if found = 1 then 1 else 0)
      uncorr := sat32 l.uncorr (if 2 ≤ found then 1 else 0), errAddr := if 2 ≤ found then sectorAddr addr else l.errAddr })
    if found = 0 then t2 else t2.repT u (if found = 1 then 0x14 else 0x22) 0 0x1FE addr (n ≠ 0) false))

end Sys2Proof.Machine
end

