-- ==== Sys2Proof/Machine/Units.lean ====
section
/-! DEFINITION. Accesses of the cluster units (cipher slices, galley coders, CH payloads) and of commands to memory: through the L2 of their cluster and the homes (R269, R272, R273, R281, R304), scratch (R283-R285), and host memory over CXL.cache (R57, R58, R64, R303). -/

namespace Sys2Proof.Machine

/-! ## The home's order (R305) -/

/-- The oldest transaction of sector a runs to its end (R302, R305): the snoops, the responses, the data, the grant and its acknowledgement that it still lacks. -/
def State.drainOne (s : State) (a : Nat) : State :=
  match (s.home (homeOf a)).txns.find? (fun t => t.req.a = a) with
  | none => s
  | some t =>
    let s1 := if t.active then s else s.activateAt (homeOf a) t.req.r
    let s2 := (upTo 16).foldl (fun u c => ((upTo 4).foldl (fun w k => w.answerSnoop c a k) u).rspAt c a) (s1.takeEvs a (fun _ => true))
    ((s2.dataAt t.req.r a).grantAt t.req.r a).ackAt t.req.r a

/-- The transactions that the home of a Landing sector admitted before a unit's access end before it (R305, log 83). -/
def State.drainSector (s : State) (a : Nat) : State :=
  ((s.home (homeOf a)).txns.filter (fun t => t.req.a = a)).foldl (fun u _ => u.drainOne a) s

/-! ## Landing sectors through the L2 of a cluster (R269, R273, R304) -/

/-- The other L2s answer the snoops `sn` for sector a on behalf of a unit: the data one of them sends. -/
def State.snoopAll (s : State) (a : Nat) (sn : List Snp) (sec : Bool) : State × Option (Sector × Bool) :=
  sn.foldl (fun (x : State × Option (Sector × Bool)) y =>
    let z := x.1.snoopL2 y.c a y.kind
    (z.1, if z.2.isSome then z.2 else x.2)) (s.homeCount (homeOf a) 1 sn.length sec, none)

/-- The L2 of cluster c may allocate sector a for `e`, or for a unit (R273, R301). -/
def State.takes (s : State) (c : Nat) (e : Option Nat) (a : Nat) : Bool := s.mayAlloc c e a && s.evictRoom c e a

/-- Sector a of the Landing is read through the L2 of cluster c, for engine e or for a unit: a hit, or a request to the home as RD_S, or as RD_NC where the L2 allocates nothing (R269, R273, R281, R304). -/
def State.lndGet (s0 : State) (c : Nat) (e : Option Nat) (a : Nat) (sec : Bool) : State :=
  let s := (s0.drainSector a).gather c a
  if ((s.memCl c).sector a).st != .I then (s.memCount c 0 1 sec).l2Touch c a
  else
    let s1 := ((s.memCount c 1 1 sec).homeCount (homeOf a) 0 1 sec).takeEvs a (fun _ => true)
    let hs := s1.holders a c
    let r := s1.snoopAll a (snoopsFor (if s1.takes c e a then .rdS else .rdNc) hs) sec
    let s2 := if r.2.isNone then r.1.lndCheck a sec else r.1
    let d := r.2.getD (s2.lndSector a)
    s2.l2Fill c e a ⟨if hs.isEmpty then .E else .S, d.1, d.2, 0, 0, 0, 2⟩

/-- A unit of cluster c writes bytes of Landing sector a (R266, R281, R304, log 83): it takes the sector as writable into its L2 where that holds or allocates it, or writes as WR_INV; in both cases the sector is in the Landing at once. Only a full sector without poison clears the flag. -/
def State.lndPut (s0 : State) (c a : Nat) (mask : W64) (d : Sector) (poison sec : Bool) : State :=
  let s := (s0.drainSector a).gather c a
  let y := (s.memCl c).sector a
  let held := y.st != .I
  let s1 := ((s.memCount c (b2n (!held)) 1 sec).homeCount (homeOf a) 0 1 sec).takeEvs a (fun _ => true)
  let alloc := held || s1.takes c none a
  let full := mask = BitVec.allOnes 64
  let r := s1.snoopAll a (snoopsFor (if held then .upg else if alloc then .rdX else .wrInv) (s1.holders a c)) sec
  let s2 := if held || r.2.isSome || full then r.1 else r.1.lndCheck a sec
  let old := if held then (y.data, y.poison) else r.2.getD (s2.lndSector a)
  let n := mergeMask old.1 d mask
  let p := if full then poison else old.2 || poison
  let s3 := (s2.dropL1s c a).lndWrite a n p
  if held then ((s3.updMem c (fun m => m.putSec a { y with st := .E, data := n, poison := p, writers := 0, bad := 0 })).l2Touch c a).l2Mark c a sec
  else if alloc then s3.l2Fill c none a ⟨.E, n, p, 0, 0, 0, 2⟩
  else s3

/-! ## Host sectors over CXL.cache (R57, R58, R64, R303) -/

/-- The sector the host answers for host address hpa (log 4). -/
def hostSector (h : HostIn) (hpa : Nat) : Sector × Bool :=
  (secOf ((upTo 64).map (fun k => (HostIn.byte h (hpa + k)).1)), h.poison.contains (hpa / 64 * 64))

/-- A host sector is read through the L2 of cluster c: a copy, or RdShared, or RdCurr where nothing is allocated; with no port up, or no answer, the home's timer ends it (R58, R303, R307). -/
def State.hostGet (s : State) (h : HostIn) (c : Nat) (e : Option Nat) (a hpa : Nat) (sec : Bool) : State :=
  let sn := a / 64
  let line := hpa / 64 * 64
  if (s.hostCached c a hpa).isSome then (s.memCount c 0 1 sec).l2Touch c sn
  else
    let s1 := (s.memCount c 1 1 sec).homeCount (homeOf sn) 0 1 sec
    let alloc := s1.takes c e sn
    match s1.cachePort with
    | none => s1.timeoutLog sn 3 0 sec
    | some p =>
      let s2 := s1.emit (.cacheReq (if p = 0 then 0 else 1) (if alloc then 0 else 1) line 0 0 false)
      if h.timeout.any (fun t => t / 64 = sn) then s2.timeoutLog sn 3 0 sec
      else
        let d := hostSector h line
        (s2.dropSec c sn).l2Fill c e sn ⟨.S, d.1, d.2, 0, 0, line, p⟩

/-- A unit writes bytes of a host sector: every copy goes, then ItoMWr or WrInv through a port that is up, with poison where the data has it; with none up the home ends it (R57, R58, R64, R303). -/
def State.hostPut (s : State) (a hpa : Nat) (mask : W64) (d : Sector) (poison sec : Bool) : State :=
  let line := hpa / 64 * 64
  let copies := s.hostCopies line
  let s1 := (s.homeCount (homeOf (a / 64)) 0 1 sec).homeCount (homeOf (a / 64)) 1 copies.length sec
  let s2 := copies.foldl (fun (t : State) (x : Nat × Nat) => t.dropSec x.1 x.2) s1
  match s2.cachePort with
  | none => s2.timeoutLog (a / 64) 4 0 sec
  | some p => s2.emit (.cacheReq (if p = 0 then 0 else 1) (if mask = BitVec.allOnes 64 then 2 else 3) line mask d poison)

/-! ## Ranges -/

/-- The sectors of n bytes at a, by the address of their first byte read. -/
def sectorsOf (a n : Nat) : List Nat :=
  if n = 0 then [] else (upTo ((a + n - 1) / 64 - a / 64 + 1)).map (fun k => if k = 0 then a else 64 * (a / 64 + k))

/-- A unit's access to a scratch word: a bank in RETAIN wakes to ON for it (R285). -/
def State.scrWake (s : State) (a : Nat) : State := s.wakeBank (scrCluster a) (scrBank a)

/-- One sector of a read, for engine e or for a unit or command of function f (R269, R281-R288, R303). -/
def State.unitGet (s : State) (h : HostIn) (f : Nat) (sec : Bool) (c : Nat) (e : Option Nat) (a : Nat) : State :=
  match zoneOf c a with
  | .landing => s.lndGet c e (a / 64) sec
  | .system => if 0xFC8000000 ≤ a && a < 0xFD0000000 then s.lndGet c e (a / 64) sec else s
  | .host => match s.hpaOf f sec a false with | some p => s.hostGet h c e a p sec | none => s
  | _ => s

/-- The words of a read of scratch are checked (R284), in banks that are awake (R285). -/
def State.scrFetch (s : State) (sec : Bool) (c a n : Nat) : State :=
  match zoneOf c a with
  | .scratch _ =>
    if n = 0 then s
    else (upTo ((a + n - 1) / 8 - a / 8 + 1)).foldl (fun t k =>
      let w := canon c (a / 8 * 8 + 8 * k)
      (t.scrWake w).scrCheck w sec) s
  | _ => s

/-- What a read of n bytes from a does before its data comes (State.unitRead): sectors through the L2, scratch words checked, the Tally window's advisories (R103, R269, R284). A read of the host that is late fetches nothing after the late sector. -/
def State.unitFetch (s : State) (h : HostIn) (f : Nat) (sec : Bool) (c : Nat) (e : Option Nat) (a n : Nat) : State :=
  let late := s.lateAt h f sec c a n
  let before := fun (x : Nat) => match late with | some t => x / 64 ≤ t / 64 | none => true
  ((((sectorsOf a n).filter before).foldl (fun t x => t.unitGet h f sec c e x) s).scrFetch sec c a n).tallyAdvise f sec c a n

/-- The bytes a sector write takes from a piece at offset o of the sector, and their mask. -/
def pieceSector (o : Nat) (bs : List Byte) : Sector := BitVec.ofNat 512 (leNat bs <<< (8 * o))
def pieceMask (o n : Nat) : W64 := BitVec.ofNat 64 ((2 ^ n - 1) <<< o)

/-- A piece of a unit's output in scratch: whole words where it covers them (R281, R284); with poison every word it touches is marked (R146). -/
def State.scrPut (s : State) (a0 : Nat) (bs : List Byte) (poison : Bool) : State :=
  let pre := min ((8 - a0 % 8) % 8) bs.length
  let mid := (bs.length - pre) / 8
  let s0 := (upTo ((a0 % 8 + bs.length + 7) / 8)).foldl (fun t k => t.scrWake (a0 / 8 * 8 + 8 * k)) s
  let s1 := (upTo pre).foldl (fun t k => t.scrWrite (a0 + k) 1 ((bs.drop k).headD 0).toNat) s0
  let s2 := (upTo mid).foldl (fun t k => t.scrWrite (a0 + pre + 8 * k) 8 (leNat ((bs.drop (pre + 8 * k)).take 8))) s1
  let s3 := (upTo (bs.length - pre - 8 * mid)).foldl (fun t k =>
    t.scrWrite (a0 + pre + 8 * mid + k) 1 ((bs.drop (pre + 8 * mid + k)).headD 0).toNat) s2
  if poison then
    (upTo ((a0 % 8 + bs.length + 7) / 8)).foldl (fun (t : State) (k : Nat) => { t with poison := Sp.put t.poison false (a0 / 8 * 8 + 8 * k) true }) s3
  else s3

/-- One piece of a unit's output that lies in one sector. -/
def State.unitPart (s : State) (f : Nat) (sec : Bool) (c a : Nat) (bs : List Byte) (poison : Bool) : State :=
  let d := pieceSector (a % 64) bs
  let m := pieceMask (a % 64) bs.length
  match zoneOf c a with
  | .host => match s.hpaOf f sec a true with
    | some p => s.hostPut a p m d poison sec
    | none => s
  | .scratch _ => s.scrPut (canon c a) bs poison
  | .landing => s.lndPut c (a / 64) m d poison sec
  | .system => if 0xFC8000000 ≤ a && a < 0xFD0000000 then s.lndPut c (a / 64) m d poison sec else s
  | _ => s

/-- Write the bytes of a unit's output, sector by sector, with their poison (R146, R281). -/
def State.unitPut (s : State) (f : Nat) (sec : Bool) (c a : Nat) (bs : List Byte) (poison : Bool) : State :=
  (upTo ((a % 64 + bs.length + 63) / 64)).foldl (fun t k =>
    let lo := if k = 0 then 0 else 64 * k - a % 64
    let hi := min (64 * (k + 1) - a % 64) bs.length
    t.unitPart f sec c (a + lo) ((bs.drop lo).take (hi - lo)) poison) s

/-- Write the bytes of a unit's output without poison. -/
def State.unitStore (s : State) (f : Nat) (sec : Bool) (c a : Nat) (bs : List Byte) : State := s.unitPut f sec c a bs false

end Sys2Proof.Machine
end

