-- ==== Sys2Proof/Machine/Cipher.lean ====
section
/-! DEFINITION. The key store and the cipher groups: loads and erases, routing, key capture, operations, scrubs (R318-R346). -/

namespace Sys2Proof.Machine

/-! ## Key slots (R323-R329) -/

/-- Store index of slot n of a function or the secure world (R323). -/
def keyIndex (f : Nat) (sec : Bool) (n : Nat) : Nat := if sec then 4112 + n else if isPf f then 4096 + n else 16 * (f - 1) + n

/-- Successor of a slot generation (R326). -/
def keySucc (g : BitVec 24) : BitVec 24 := if g = 0xFFFFFF then 1 else g + 1

/-- The store index a request names. -/
def SvcReq.keyAt (r : SvcReq) : Nat := keyIndex r.func r.secure r.slot

/-- The operation writes output before its final status (R338, R339). -/
def SvcReq.early (r : SvcReq) : Bool := r.op ≠ 1 || r.stream

/-- The operation of a group is aborted: it ends with a status after the scrub of what it has written, a free number k of blocks (R329, R340, log 43). -/
def RunOp.cut (o : RunOp) (k st : Nat) : RunOp :=
  { o with
    written := if o.req.early then [(o.req.dst, 16 * (k % (o.req.len / 16 + 1)))] else []
    fail := some (BitVec.ofNat 8 st, 0, 0) }

/-- The running operation of group g is aborted, unless it has failed already. -/
def State.cutGrp (s : State) (g st : Nat) : State :=
  match (s.grp g).run with
  | some o => if o.fail.isNone then (s.updGrp g (fun x => { x with run := some (o.cut (Config.progress s.fresh) st) })).drawn else s
  | none => s

/-- The slot is emptied: zeros, TYPE 0, GEN advanced; running operations on it are aborted with KEY_ERASED (R329). -/
def State.eraseSlot (s : State) (i : Nat) : State :=
  let k := s.slot i
  let s1 := s.setSlot i ⟨0, 0, keySucc k.gen, 0, 0⟩
  (upTo 64).foldl (fun t g => match (t.grp g).run with
    | some r => if r.req.keyAt = i then t.cutGrp g stKeyErased else t
    | none => t) s1

/-- A group still scrubs for an operation that named slot i. -/
def State.slotBusy (s : State) (i : Nat) : Bool :=
  (upTo 64).any (fun g => match (s.grp g).run with
    | some r => r.req.keyAt = i && r.fail.isSome
    | none => false)

/-- Draw an IV: INVOC, then its increment; refused at 2⁴⁰ - 1 (R332). -/
def State.drawIv (s : State) (i : Nat) : State × Option (BitVec 96) :=
  let k := s.slot i
  if k.invoc = BitVec.allOnes 40 then (s, none)
  else (s.setSlot i { k with invoc := k.invoc + 1 },
    some (BitVec.ofNat 96 (fields [(0, k.invoc.toNat), (40, k.gen.toNat), (64, s.deck.epoch.toNat)])))

/-- Key bytes of a slot, byte 0 first (Table 11.3). -/
def KeySlot.bytes (k : KeySlot) : List Nat := (leBytes k.key.toNat (if k.type = 1 then 16 else 32)).map (fun b => b.toNat)

/-! ## Routing (R320, R343) -/

/-- Bytes queued at a group or coder. -/
def Svc.queued (x : Svc) : Nat := (x.queue.map (fun r => r.len)).sum

/-- Hand-over has taken the block out of routing (R379). -/
def State.leaving (s : State) (d : Nat) : Bool := s.tru.pending.any (fun h => h.agreed && h.d.toNat = d)

/-- A full self-test holds the unit (Table 14.9). -/
def State.underTest (s : State) (u : Nat) : Bool := s.flt.selftests.any (fun t => t.1.toNat = u)

/-- Group g takes new work of a world. -/
def State.grpServes (s : State) (sec : Bool) (g : Nat) : Bool :=
  !(s.grp g).retired && (s.secBlock (uGrp g) == sec) && !s.leaving (uGrp g) && !s.underTest (uGrp g)

/-- The group of a list with the fewest queued bytes, the first of equals. -/
def fewest (load : Nat → Nat) : List Nat → Option Nat
  | [] => none
  | x :: r => match fewest load r with
    | none => some x
    | some y => if load x ≤ load y then some x else some y

/-- The group for a host command: any cluster (R343). -/
def State.hostGrp (s : State) (sec : Bool) : Option Nat := fewest (fun g => (s.grp g).queued) ((upTo 64).filter (s.grpServes sec))

/-- The group for an engine request of cluster c: its own cluster first, then in order (R343). -/
def State.engGrp (s : State) (sec : Bool) (c : Nat) : Option Nat :=
  (upTo 16).findSome? (fun k => fewest (fun g => (s.grp g).queued)
    (((upTo 4).map (fun j => 4 * ((c + k) % 16) + j)).filter (s.grpServes sec)))

/-- A group other than g in whose queue a request of engine e waits (R345). -/
def State.grpOf (s : State) (e g : Nat) : Option Nat := (upTo 64).find? (fun k => k ≠ g && (s.grp k).queue.any (fun r => r.engine = some e))

/-- Give a request to a group. -/
def State.toGrp (s : State) (g : Nat) (r : SvcReq) : State := s.updGrp g (fun x => { x with queue := x.queue ++ [r] })

/-! ## Ends of operations -/

/-- A request ends with a status: the SVC event of an engine, or the completion of a host command (R344, R362). -/
def State.svcDone (s : State) (r : SvcReq) (st : Nat) (r0 r1 : Nat) : State :=
  match r.engine with
  | some e => s.postFrom e (if r.ratio = 0 then .cph else .gal) r.tid 7 0 (fields [(0, st), (8, r.tag.toNat)])
  | none => s.finishH r.handle st r0 r1

/-- Count event j of a group (Table 11.7); secure work is not counted. -/
def State.grpCount (s : State) (g j n : Nat) (sec : Bool) : State :=
  if sec then s else s.updGrp g (fun x => { x with cnt := Sp.put x.cnt 0 j (sat64 (Sp.look x.cnt 0 j) n) })

/-- The group is free again: its grant is released (R337). -/
def State.grpIdle (s : State) (g : Nat) : State := (s.updGrp g (fun x => { x with run := none })).releaseGrant 4 (whoGrp g)

/-- The group that takes over a request of the retiring group g: those of one engine stay together, in order (R320, R345). -/
def State.heirGrp (s : State) (g : Nat) (r : SvcReq) : Option Nat :=
  match r.engine with
  | some e => (s.grpOf e g).orElse (fun _ => s.engGrp r.secure (g / 4))
  | none => s.hostGrp r.secure

/-- The group retires: its queue moves to other groups of its world, or ends with DEVICE_FAULT, as does the operation under way, after its scrub (R320, Table 11.6). -/
def State.retireGrp (s : State) (g : Nat) (index : W32) : State :=
  let q := (s.grp g).queue
  let s1 := ((s.injWithdraw (uGrp g)).updGrp g (fun x => { x with retired := true, queue := [] })).cutGrp g stDeviceFault
  q.foldl (fun t r => match t.heirGrp g r with
    | some k => t.toGrp k r
    | none => t.svcDone r stDeviceFault index.toNat 0) s1

/-- A disagreement of slice n of group g: counted; at MISMATCH_LIMIT the slice retires, the last one retires the group (R320). -/
def State.sliceFault (s : State) (g n : Nat) (sec : Bool) : State :=
  let x := s.grp g
  let c := Sp.look x.faults 0 n + 1
  let s1 := (s.updGrp g (fun y => { y with faults := Sp.put y.faults 0 n c })).grpCount g 1 1 sec
  if x.slices.getLsbD n && (s.cph.limit.toNat ≤ c) then
    let left := x.slices &&& ~~~ (BitVec.ofNat 16 (1 <<< n))
    let s2 := s1.updGrp g (fun y => { y with slices := left })
    let slice := 64 * (g / 4) + 16 * (g % 4) + n
    if left = 0 then
      let s3 := s2.repT (uGrp g) 0x33 0 0x1FE (g / 4) false sec
      s3.retireGrp g s3.lastIndex
    else s2.repT (uGrp g) 0x21 0 0x1FE slice false sec
  else s1

/-- An armed group's next block disagrees with its twin: repeated on another slice, logged F1 (R320, Table 14.6). -/
def State.twinInjected (s : State) (g : Nat) (sec : Bool) : State :=
  if s.armed (uGrp g) 1 then
    let n := ((upTo 16).find? (fun k => (s.grp g).slices.getLsbD k)).getD 0
    (s.repT (uGrp g) 0x15 0 0x1FE (64 * (g / 4) + 16 * (g % 4) + n) true sec).sliceFault g n sec
  else s

/-- Zero the bytes an operation has written and count the sectors (R340, R363). -/
def State.scrub (s : State) (r : RunOp) (c : Nat) : State :=
  r.written.foldl (fun t w => t.unitStore r.req.func r.req.secure c w.1 (List.replicate w.2 0)) s

/-- Sectors that the written ranges touch. -/
def RunOp.sectors (r : RunOp) : Nat := (r.written.map (fun w => if w.2 = 0 then 0 else (w.1 + w.2 - 1) / 64 - w.1 / 64 + 1)).sum

/-! ## Key capture (R325, R336, R337) -/

/-- A check failure empties the slot as KEY_ERASE does, sets FAULT_NOTICE and is logged F2 (R325). -/
def State.slotLost (s : State) (i : Nat) (f : Nat) (inj : Bool) : State :=
  (s.eraseSlot i).repT uKeys 0x27 0 f i inj (4112 ≤ i)

/-- Reading a slot runs its check (R325). -/
def State.slotCheck (s : State) (i f : Nat) : State :=
  let k := s.slot i
  if k.bad = 0 then s
  else if k.bad = 1 then (s.setSlot i { k with bad := 0 }).repT uKeys 0x14 0 0x1FE i true (4112 ≤ i)
  else s.slotLost i f true

/-- Why a capture refuses the operation: empty slot, or a GEN other than the one asked for (Table 11.6). -/
def captureFail (r : SvcReq) (k : KeySlot) : Option Nat :=
  if r.expGen != 0 && r.expGen != k.gen then some stKeyErased
  else if k.type = 0 then some stNotPermitted
  else none

/-- A unit takes one more request of engine e: 32 entries, and one reserved for each requester (R318, R354). -/
def Svc.room (x : Svc) (e : Nat) : Bool := x.queue.length < 32 || !(x.queue.any (fun r => r.engine = some e))

/-- The head of engine e's cipher requests goes to its group once no other group holds an earlier one that has not captured its key (R345); with no group of the world in service it ends with DEVICE_FAULT (R343). -/
def State.takeCph1 (s : State) (e : Nat) : State :=
  match (s.le e).cphQ with
  | [] => s
  | r :: rest =>
    let s1 := s.updLe e (fun x => { x with cphQ := rest })
    match s.engGrp r.secure (e / 8) with
    | none => s1.svcDone r stDeviceFault 0 0
    | some g => if (s.grp g).room e && (s.grpOf e g).isNone then s1.toGrp g r else s

/-- Every cipher request of engine e that a group has room for is taken. -/
def State.takeCph (s : State) (e : Nat) : State := (upTo 8).foldl (fun t _ => t.takeCph1 e) s

/-- The same for every engine. -/
def State.takeCphAll (s : State) : State := (upTo 128).foldl (fun t e => if (t.le e).cphQ.isEmpty then t else t.takeCph e) s

/-- KEY_CAPTURE: the operation at the head of group g's queue captures its key (R336, R345). -/
def execKeyCapture (g : UnitId) (s : State) : Host.Outcome State Fault Refusal :=
  .next (s.when (s.live && !(s.grp g.val).retired && (s.grp g.val).run.isNone && s.hasGrant 4 (whoGrp g.val)) (fun t =>
    match (t.grp g.val).queue with
    | [] => t
    | r :: rest =>
      let t1 := (t.updGrp g.val (fun x => { x with queue := rest })).slotCheck r.keyAt r.func
      let lost := (t.slot r.keyAt).bad ≥ 2
      let k := t1.slot r.keyAt
      match (if lost then some stKeyErased else captureFail r k) with
      | some st => ((t1.svcDone r st (if r.engine.isNone && st = stNotPermitted then 28 else 0) 0).releaseGrant 4 (whoGrp g.val)).takeCphAll
      | none => (t1.updGrp g.val (fun x => { x with run := some ⟨r, k, true, [], none, []⟩ })).takeCphAll))

/-! ## Operations (R331-R342) -/

/-- What an operation does: status, results, writes; bytes written that a failing end scrubs. -/
structure OpEnd where
  status : Nat
  r0 : Nat
  r1 : Nat
  writes : List (Nat × List Byte)
  scrubbed : Bool
  /-- 16-byte blocks released (Table 11.7). -/
  blocks : Nat

/-- First position of a poisoned or late source byte, and its status. -/
def badByte (flags : List Bool) (late : Option Nat) (src : Nat) : Option (Nat × Nat) :=
  let p := (upTo flags.length).find? (fun k => flags.getD k false)
  match late, p with
  | some t, some k => if t - src ≤ k then some (t - src, stTimeout) else some (k, stPoisoned)
  | some t, none => some (t - src, stTimeout)
  | none, some k => some (k, stPoisoned)
  | none, none => none

def bytesOf (l : List Nat) : List Byte := l.map (BitVec.ofNat 8)
def natsOf (l : List Byte) : List Nat := l.map (fun b => b.toNat)

/-- Raw block mode: each 16-byte block on its own (R342). -/
def rawBlocks (key : List Nat) (dec : Bool) (d : List Nat) : List Nat :=
  (pieces 16 (d.length / 16) d).flatMap (fun b => if dec then aesDec key b else aesEnc key b)

/-- Bytes of the source of a cipher request: data, and for UNSEAL its tag and the IV of an engine's (Tables 3.7, 11.5). -/
def SvcReq.srcLen (r : SvcReq) : Nat := if r.op = 1 then (if r.engine.isNone then r.len + 16 else r.len + 28) else r.len

/-- The whole computation of an operation on group g's cluster (R333, R338-R342). -/
def State.cipherOp (s : State) (h : HostIn) (c : Nat) (o : RunOp) : OpEnd :=
  let r := o.req
  let key := o.key.bytes
  let host := r.engine.isNone
  let rd := fun (a n : Nat) => s.unitRead h r.func r.secure c a n
  let aad := rd r.aad r.aadLen
  let aadBad := badByte (s.unitFlags h r.func r.secure c r.aad r.aadLen) aad.2.2 r.aad
  if r.op = 0 then
    let iv := leBytes r.iv.toNat 12
    let src := rd r.src r.len
    let ct := gcmCrypt key (natsOf iv) (natsOf src.1)
    let tag := gcmTag key (natsOf iv) (natsOf aad.1) ct
    let at0 := if host then r.dst else r.dst + 12
    match aadBad, badByte (s.unitFlags h r.func r.secure c r.src r.len) src.2.2 r.src with
    | some b, _ => ⟨b.2, 0, 0, [], true, 0⟩
    | none, some b => ⟨b.2, 0, 0, [(at0, bytesOf (ct.take (b.1 / 16 * 16)))], true, b.1 / 16⟩
    | none, none =>
      if host then
        ⟨stOk, if r.ivKind = 1 then r.len + 28 else r.len + 16, 0,
          [(r.dst, bytesOf (ct ++ tag) ++ (if r.ivKind = 1 then iv else []))], false, (r.len + 15) / 16⟩
      else ⟨stOk, 0, 0, [(r.dst, iv ++ bytesOf (ct ++ tag))], false, (r.len + 15) / 16⟩
  else if r.op = 1 then
    let head := if host then (leBytes r.iv.toNat 12, false, none) else rd r.src 12
    let s0 := if host then r.src else r.src + 12
    let src := rd s0 (r.len + 16)
    let ct := natsOf (src.1.take r.len)
    let pt := gcmCrypt key (natsOf head.1) ct
    let tag := gcmTag key (natsOf head.1) (natsOf aad.1) ct
    let bad := if head.2.1 then some (0, stPoisoned) else
      match aadBad with
      | some b => some (0, b.2)
      | none => badByte (s.unitFlags h r.func r.secure c s0 (r.len + 16)) src.2.2 s0
    match bad with
    | some b => ⟨b.2, 0, 0, if r.stream then [(r.dst, bytesOf (pt.take (b.1 / 16 * 16)))] else [], true, min b.1 r.len / 16⟩
    | none =>
      if bytesOf tag = src.1.drop r.len then ⟨stOk, r.len, 0, [(r.dst, bytesOf pt)], false, (r.len + 15) / 16⟩
      else ⟨stAuthFail, 0, 0, if r.stream then [(r.dst, bytesOf pt)] else [], true, (r.len + 15) / 16⟩
  else
    let src := rd r.src r.len
    let out := rawBlocks key (r.op = 3) (natsOf src.1)
    match badByte (s.unitFlags h r.func r.secure c r.src r.len) src.2.2 r.src with
    | some b => ⟨b.2, 0, 0, [(r.dst, bytesOf (out.take (b.1 / 16 * 16)))], true, b.1 / 16⟩
    | none => ⟨stOk, r.len, 0, [(r.dst, bytesOf out)], false, r.len / 16⟩

/-- CIPHER_OPERATION_END: the operation of group g computes, writes and ends, or goes to its scrub (R338-R341, R344). -/
def execCipherOperationEnd (g : UnitId) (host : HostIn) (s : State) : Host.Outcome State Fault Refusal :=
  .next (s.when (s.live && !(s.grp g.val).retired) (fun t0 => match (t0.grp g.val).run with
    | none => t0
    | some o =>
      if o.fail.isSome then t0
      else
        let c := g.val / 4
        let r := o.req
        let t1 := (((t0.unitFetch host r.func r.secure c none r.aad r.aadLen).unitFetch host r.func r.secure c none r.src r.srcLen)).twinInjected g.val r.secure
        match (t1.grp g.val).run with
        | none => t1
        | some o1 =>
          if o1.fail.isSome then t1
          else
            let e := t1.cipherOp host c o1
            let t2 := e.writes.foldl (fun u w => u.unitStore r.func r.secure c w.1 w.2) t1
            let t3 := (t2.grpCount g.val 0 e.blocks r.secure).grpCount g.val 2 (b2n (e.status = stAuthFail)) r.secure
            if e.scrubbed then
              t3.updGrp g.val (fun x => { x with run := some { o1 with
                written := e.writes.map (fun w => (w.1, w.2.length)), fail := some (BitVec.ofNat 8 e.status, 0, 0) } })
            else (t3.svcDone r e.status e.r0 e.r1).grpIdle g.val))

/-- KEY_ERASE commands on slot i complete when the last scrub is done (R329). -/
def State.eraseDone (s : State) (i : Nat) : State :=
  if s.slotBusy i then s
  else (s.qm.cmds.filter (fun c => c.opcode = 0x35 && c.stage == .running && keyIndex c.func false (pkN c.pkt 28 1) = i)).foldl
    (fun t c => t.finish c stOk 0 (t.slot i).gen.toNat 0) s

/-- CIPHER_SCRUB_COMPLETE: the destination bytes written are zero, the status is posted (R329, R340). -/
def execCipherScrubComplete (g : UnitId) (s : State) : Host.Outcome State Fault Refusal :=
  .next (s.when s.on (fun t => match (t.grp g.val).run with
    | none => t
    | some o => match o.fail with
      | none => t
      | some f =>
        let t1 := (t.scrub o (g.val / 4)).grpCount g.val 3 o.sectors o.req.secure
        ((t1.svcDone o.req f.1.toNat f.2.1.toNat f.2.2.toNat).grpIdle g.val).eraseDone o.req.keyAt))

/-- CPH_CNT_CLEAR (Table 11.7). -/
def execCphCntClear (w : Who) (val : W32) (s : State) : Host.Outcome State Fault Refusal :=
  .next (s.when (s.whoOk w && val.getLsbD 0) (fun t =>
    (upTo 64).foldl (fun z g => z.updGrp g (fun x => { x with cnt := [] })) t))

end Sys2Proof.Machine
end

