-- ==== Sys2Proof/Machine/Galley.lean ====
section
/-! DEFINITION. The galley coders: routing, operations, confirmation, retirement, scrubs (R354-R371). -/

namespace Sys2Proof.Machine

/-- Coder c takes new work of a world (R354). -/
def State.coderServes (s : State) (sec : Bool) (c : Nat) : Bool :=
  !(s.coder c).retired && (s.secBlock (uCoder c) == sec) && !s.leaving (uCoder c) && !s.underTest (uCoder c)

/-- The coder for a host command, and for an engine request of cluster k (R354). -/
def State.hostCoder (s : State) (sec : Bool) : Option Nat := fewest (fun c => (s.coder c).queued) ((upTo 64).filter (s.coderServes sec))
def State.engCoder (s : State) (sec : Bool) (k : Nat) : Option Nat :=
  (upTo 16).findSome? (fun i => fewest (fun c => (s.coder c).queued)
    (((upTo 4).map (fun j => 4 * ((k + i) % 16) + j)).filter (s.coderServes sec)))

/-- A coder other than c in whose queue a request of engine e waits (R366). -/
def State.coderOf (s : State) (e c : Nat) : Option Nat := (upTo 64).find? (fun k => k ≠ c && (s.coder k).queue.any (fun r => r.engine = some e))

/-- The coder that takes over a request of the retiring coder c: those of one engine stay together, in order (R359, R366). -/
def State.heirCoder (s : State) (c : Nat) (r : SvcReq) : Option Nat :=
  match r.engine with
  | some e => (s.coderOf e c).orElse (fun _ => s.engCoder r.secure (c / 4))
  | none => s.hostCoder r.secure

/-- Give a request to a coder. -/
def State.toCoder (s : State) (c : Nat) (r : SvcReq) : State := s.updCoder c (fun x => { x with queue := x.queue ++ [r] })

/-- Another coder of the world is in service for a confirmation (R357, R358). -/
def State.secondCoder (s : State) (sec : Bool) (c : Nat) : Bool := (upTo 64).any (fun k => k ≠ c && s.coderServes sec k)

/-- Count event j of a coder (Table 12.10); secure work is not counted. -/
def State.coderCount (s : State) (c j n : Nat) (sec : Bool) : State :=
  if sec then s else s.updCoder c (fun x => { x with cnt := Sp.put x.cnt 0 j (sat64 (Sp.look x.cnt 0 j) n) })

/-- The coder is free again: its grant is released (R360). -/
def State.coderIdle (s : State) (c : Nat) : State := (s.updCoder c (fun x => { x with run := none })).releaseGrant 4 (whoCoder c)

/-- Number of blocks of a request (R364). -/
def SvcReq.blocks (r : SvcReq) : Nat := (r.len + 4095) / 4096
/-- LEN of block i. -/
def SvcReq.blockLen (r : SvcReq) (i : Nat) : Nat := min 4096 (r.len - 4096 * i)

/-- Where output i goes. -/
def SvcReq.outAt (r : SvcReq) (i : Nat) : Nat := if r.op = 0 then r.dst + galSize r.ratio * i else r.dst + 4096 * i

/-- The bytes outputs 0 to n-1 cover. -/
def outRanges (r : SvcReq) (n : Nat) : List (Nat × Nat) :=
  (upTo n).map (fun i => (r.outAt i, if r.op = 0 then galSize r.ratio else r.blockLen i))

/-- Send a failing operation to its scrub (R363). -/
def State.coderFail (s : State) (c : Nat) (o : RunOp) (st : Nat) (r0 r1 n : Nat) : State :=
  s.updCoder c (fun x => { x with run := some { o with written := outRanges o.req n, fail := some (BitVec.ofNat 8 st, BitVec.ofNat 32 r0, BitVec.ofNat 32 r1) } })

/-- The running operation of coder c is aborted, if `sel` names it and it has not failed already: what it has written, a free number of blocks, is scrubbed, and r0 is its RESULT0 (R96, R363, log 43). -/
def State.cutCoder (s : State) (c : Nat) (sel : SvcReq → Bool) (st r0 : Nat) : State :=
  match (s.coder c).run with
  | some o =>
    if sel o.req && o.fail.isNone then
      (s.coderFail c o st r0 0 (if o.req.early then Config.progress s.fresh % (o.req.blocks + 1) else 0)).drawn
    else s
  | none => s

/-- The operation that runs on the retiring coder c moves to the coder that takes it over, or is aborted with DEVICE_FAULT (R359, Table 12.6). -/
def State.moveRun (s : State) (c : Nat) (index : W32) : State :=
  match (s.coder c).run.filter (fun o => o.fail.isNone) with
  | none => s
  | some o => match s.heirCoder c o.req with
    | some k => ((s.updCoder c (fun y => { y with run := none })).toCoder k o.req).releaseGrant 4 (whoCoder c)
    | none => s.cutCoder c (fun _ => true) stDeviceFault index.toNat

/-- A coder retires: its running operation and its queue move to other coders of their world, or end with DEVICE_FAULT (R354, R359). -/
def State.retireCoder (s : State) (c : Nat) (index : W32) : State :=
  let q := (s.coder c).queue
  q.foldl (fun t r => match t.heirCoder c r with
    | some k => t.toCoder k r
    | none => t.svcDone r stDeviceFault index.toNat 0)
    (((s.injWithdraw (uCoder c)).updCoder c (fun y => { y with retired := true, queue := [] })).moveRun c index)

/-- A disagreement of coder c: counted; at FAULT_LIMIT it retires (F2), the last of a cluster F3 (R359). -/
def State.coderFault (s : State) (c : Nat) (sec : Bool) : State :=
  let x := s.coder c
  let n := Sp.look x.faults 0 0 + 1
  let s1 := (s.updCoder c (fun y => { y with faults := Sp.put y.faults 0 0 n })).coderCount c 4 1 sec
  if !x.retired && s.gal.limit.toNat ≤ n then
    let s2 := s1.repT (uCoder c) 0x21 0 0x1FE c false sec
    let s3 := s2.retireCoder c s2.lastIndex
    if ((upTo 4).map (fun j => 4 * (c / 4) + j)).all (fun k => (s3.coder k).retired) then s3.repT (uCoder c) 0x33 0 0x1FE (c / 4) false sec else s3
  else s1

/-- An armed coder's next galley fails its check decoder: compressed again on another coder, F1 (R357, Table 14.6). -/
def State.coderInjected (s : State) (c : Nat) (sec : Bool) : State :=
  if s.armed (uCoder c) 1 then (s.repT (uCoder c) 0x16 0 0x1FE c true sec).coderFault c sec else s

/-- The head of engine e's galley requests goes to its coder once no other coder holds an earlier one that has not started (R366); with no coder of the world in service it ends with DEVICE_FAULT (R354, R366). -/
def State.takeGal1 (s : State) (e : Nat) : State :=
  match (s.le e).galQ with
  | [] => s
  | r :: rest =>
    let s1 := s.updLe e (fun x => { x with galQ := rest })
    match s.engCoder r.secure (e / 8) with
    | none => s1.svcDone r stDeviceFault 0 0
    | some c => if (s.coder c).room e && (s.coderOf e c).isNone then s1.toCoder c r else s

/-- Every galley request of engine e that a coder has room for is taken. -/
def State.takeGal (s : State) (e : Nat) : State := (upTo 8).foldl (fun t _ => t.takeGal1 e) s

/-- The same for every engine. -/
def State.takeGalAll (s : State) : State := (upTo 128).foldl (fun t e => if (t.le e).galQ.isEmpty then t else t.takeGal e) s

/-- CODER_OPERATION_START: the coder takes the head of its queue under its grant (R360, R366). -/
def execCoderOperationStart (c : UnitId) (s : State) : Host.Outcome State Fault Refusal :=
  .next (s.when (s.live && !(s.coder c.val).retired && (s.coder c.val).run.isNone && s.hasGrant 4 (whoCoder c.val)) (fun t =>
    match (t.coder c.val).queue with
    | [] => t
    | r :: rest => (t.updCoder c.val (fun x => { x with queue := rest, run := some ⟨r, KeySlot.init, true, [], none, []⟩ })).takeGalAll))

/-- Galley or block i of the request's source, as read. -/
def State.srcBlock (s : State) (h : HostIn) (c : Nat) (r : SvcReq) (i : Nat) : List Byte :=
  let k := c / 4
  if r.op = 0 then (s.unitRead h r.func r.secure k (r.src + 4096 * i) (r.blockLen i)).1
  else (s.unitRead h r.func r.secure k (r.src + galSize r.ratio * i) (galSize r.ratio)).1

/-- Block i as the coder computes it: a galley, or the expanded block; none: refused or failing (R352, R350). -/
def State.coded (s : State) (h : HostIn) (c : Nat) (r : SvcReq) (i : Nat) : Option (List Byte) :=
  let b := s.srcBlock h c r i
  if r.op = 0 then galEncode r.ratio b else galDecode r.ratio (some (r.blockLen i)) b

/-- The first block the coder refuses or cannot decode. -/
def State.firstBad (s : State) (h : HostIn) (c : Nat) (r : SvcReq) : Option Nat := (upTo r.blocks).find? (fun i => (s.coded h c r i).isNone)

/-- The first block with a poisoned or late source byte, and its status. -/
def State.firstPoison (s : State) (h : HostIn) (c : Nat) (r : SvcReq) : Option (Nat × Nat) :=
  (upTo r.blocks).findSome? (fun i =>
    let a := if r.op = 0 then r.src + 4096 * i else r.src + galSize r.ratio * i
    let n := if r.op = 0 then r.blockLen i else galSize r.ratio
    (badByte (s.unitFlags h r.func r.secure (c / 4) a n) (s.unitRead h r.func r.secure (c / 4) a n).2.2 a).map (fun b => (i, b.2)))

/-- GALLEY_CONFIRMATION: another coder repeats a disputed block (R357, R358). `agrees`: it gives the first coder's result. -/
def execGalleyConfirmation (c : UnitId) (block : Nat) (agrees : Bool) (s : State) : Host.Outcome State Fault Refusal :=
  .next (s.when s.live (fun t => match (t.coder c.val).run with
    | none => t
    | some o =>
      if o.req.blocks ≤ block || o.fail.isSome || o.confirmed.any (fun x => x.1 = block) || !t.secondCoder o.req.secure c.val then t
      else
        let t1 := t.updCoder c.val (fun x => { x with run := some { o with confirmed := o.confirmed ++ [(block, agrees)] } })
        if agrees then t1 else (t1.repT (uCoder c.val) 0x16 o.req.tid 0x1FE c.val false o.req.secure).coderFault c.val o.req.secure))

/-- The result record (Table 12.8). -/
def State.resRecord (s : State) (c : Nat) (r : SvcReq) (done index : Nat) : State :=
  if r.res = 0 then s else s.unitStore r.func r.secure (c / 4) r.res (leBytes done 4 ++ leBytes index 4)

/-- An operation ends without a scrub. -/
def State.coderEnd (s : State) (c : Nat) (r : SvcReq) (st r0 r1 done index : Nat) : State :=
  ((s.resRecord c r done index).svcDone r st r0 r1).coderIdle c

/-- Write outputs 0 to n-1 (R356). -/
def State.writeOut (s : State) (h : HostIn) (c : Nat) (r : SvcReq) (src : State) (n : Nat) : State :=
  (upTo n).foldl (fun t i => match src.coded h c r i with
    | some b => t.unitStore r.func r.secure (c / 4) (r.outAt i) b
    | none => t) s

/-- The operation of coder c meets a refused or failing block b (R357, R358, R362): it waits for its confirmation while a second coder is in service. -/
def State.coderStop (s : State) (h : HostIn) (c : Nat) (o : RunOp) (b : Nat) : State :=
  let r := o.req
  if s.secondCoder r.secure c && !o.confirmed.any (fun x => x.1 = b) then s
  else
    let n := if r.early then b else 0
    let s1 := ((s.writeOut h c r s n).coderCount c r.op b r.secure).coderCount c (2 + r.op) 1 r.secure
    if r.op = 0 then s1.coderEnd c r stNoFit b b b b else s1.coderFail c o stCheckFail 0 b n

/-- The end of the running operation of coder c (R356-R366): the first poisoned, late, refused or failing block decides. -/
def State.coderRunEnd (s : State) (h : HostIn) (c : Nat) (o : RunOp) : State :=
  let r := o.req
  match s.firstPoison h c r, s.firstBad h c r with
  | some (i, st), bad =>
    match bad.filter (fun b => b < i) with
    | some b => s.coderStop h c o b
    | none =>
      let addr := match h.timeout with | some t => t % 2 ^ 32 | none => 0
      let n := if r.early then i else 0
      ((s.writeOut h c r s n).coderCount c r.op i r.secure).coderFail c o st (if st = stTimeout then addr else 0) 0 n
  | none, some b => s.coderStop h c o b
  | none, none =>
    let n := r.blocks
    let done := if r.op = 0 then n else r.len
    ((s.writeOut h c r s n).coderCount c r.op n r.secure).coderEnd c r stOk done 0 done 0xFFFFFFFF

/-- CODER_OPERATION_END (R356-R366). -/
def execCoderOperationEnd (c : UnitId) (host : HostIn) (s : State) : Host.Outcome State Fault Refusal :=
  .next (s.when (s.live && !(s.coder c.val).retired) (fun t => match (t.coder c.val).run with
    | none => t
    | some o =>
      if o.fail.isSome then t
      else
        let n := if o.req.op = 0 then o.req.len else galSize o.req.ratio * o.req.blocks
        let t1 := t.unitFetch host o.req.func o.req.secure (c.val / 4) none o.req.src n
        let t2 := if o.req.op = 0 then t1.coderInjected c.val o.req.secure else t1
        match (t2.coder c.val).run with
        | none => t2
        | some o1 => t2.coderRunEnd host c.val o1))

/-- GALLEY_SCRUB_COMPLETE: the bytes written are zero, the result record and the status follow (R363, R365). -/
def execGalleyScrubComplete (c : UnitId) (s : State) : Host.Outcome State Fault Refusal :=
  .next (s.when s.on (fun t => match (t.coder c.val).run with
    | none => t
    | some o => match o.fail with
      | none => t
      | some f =>
        let t1 := (t.scrub o (c.val / 4)).coderCount c.val 5 o.sectors o.req.secure
        let index := if f.1.toNat = stCheckFail then f.2.2.toNat else 0xFFFFFFFF
        t1.coderEnd c.val o.req f.1.toNat f.2.1.toNat f.2.2.toNat 0 index))

/-- GAL_CNT_CLEAR (Table 12.10). -/
def execGalCntClear (w : Who) (val : W32) (s : State) : Host.Outcome State Fault Refusal :=
  .next (s.when (s.whoOk w && val.getLsbD 0) (fun t =>
    (upTo 64).foldl (fun z c => z.updCoder c (fun x => { x with cnt := [] })) t))

/-- The coder operations that `sel` names end with a scrub (R38, R363, R386): queued ones leave, running ones go to their scrub. -/
def State.endCoderOps (s : State) (sel : SvcReq → Bool) (st : Nat) : State :=
  (upTo 64).foldl (fun t c =>
    let gone := (t.coder c).queue.filter sel
    let t1 := (t.updCoder c (fun y => { y with queue := y.queue.filter (fun r => !sel r) })).cutCoder c sel st 0
    gone.foldl (fun u r => u.svcDone r st 0 0) t1) s

end Sys2Proof.Machine
end

