-- ==== Sys2Proof/Machine/Ports.lean ====
section
/-! DEFINITION. Host ports: clocks, training, loss, reset, configuration, DOE and SPDM (R31-R37, R54-R58, R65, R392, R447, R452, R464, R472), and Function Level Reset (R38). -/

namespace Sys2Proof.Machine

/-! ## Function Level Reset (R37, R38, R330, R363) -/

/-- Indices of the entries of function f that are in use. -/
def State.entriesOf (s : State) (f : Nat) : List Nat :=
  (s.tly.entries.filter (fun e => e.2.func.toNat = f && e.2.state != .free)).map (fun e => e.1)

/-- One entry under a Function Level Reset: POSTED and CONSUMED set; open work is aborted, a commit ends silently (R38). -/
def State.flrEntry (s : State) (i : Nat) : State :=
  let e := s.entry i
  let s1 := s.setEntry i { e with posted := true, consumed := true, state := if e.state == .committed then .complete else e.state }
  if e.state.pre then s1.abortEntry i stAborted 0 false else s1.freeCheck i

/-- The queues, commands, events and MSI-X copies of a function go to their reset values (R38). -/
def State.flrRegs (s : State) (f : Nat) : State :=
  let s1 := s.setQm (fun q => { q with
    queues := q.queues.filter (fun e => e.1 / 9 != f), cmds := q.cmds.filter (fun c => c.func != f) })
  let s2 := s1.updFn f (fun x => { x with event := 0, credits := 0, flrBusy := true })
  (upTo 2).foldl (fun t p => t.updPort p (fun x => { x with msix := x.msix.filter (fun e => e.1 / 16 != f) })) s2

/-- A Function Level Reset of VFn, FUNC f (R38): its effects up to the scrubs. -/
def State.flr (s : State) (f : Nat) : State :=
  let es := s.entriesOf f
  let n := es.countP (fun i => (s.entry i).state == .committed)
  let s1 := s.flrRegs f
  let s2 := es.foldl State.flrEntry s1
  let s3 := s2.updFn f (fun x => { x with flrLog := sat32 x.flrLog n })
  let s4 := (upTo 16).foldl (fun t k => t.eraseSlot (keyIndex f false k)) s3
  s4.endCoderOps (fun r => r.func = f && !r.secure) stAborted

/-- The erases and scrubs of the function's work are done. -/
def State.flrQuiet (s : State) (f : Nat) : Bool :=
  (upTo 16).all (fun k => !s.slotBusy (keyIndex f false k)) &&
    (upTo 64).all (fun c => match (s.coder c).run with | some o => !(o.req.func = f && !o.req.secure && o.fail.isSome) | none => true)

/-- FUNCTION_LEVEL_RESET (R38). -/
def execFunctionLevelReset (p : PortId) (v : VfId) (s : State) : Host.Outcome State Fault Refusal :=
  .next (s.when (s.on && (s.port p.val).answering && s.reach p.val (v.val + 1)) (fun t => t.flr (v.val + 1)))

/-- FLR_COMPLETE (R38). -/
def execFlrComplete (v : VfId) (s : State) : Host.Outcome State Fault Refusal :=
  .next (s.when ((s.fn (v.val + 1)).flrBusy && s.flrQuiet (v.val + 1)) (fun t => t.updFn (v.val + 1) (fun x => { x with flrBusy := false })))

/-! ## VF Enable (R37) -/

/-- After a change of ports or of VF Enable from state `old`: queues move, PORT_CHANGE is set, tenants enabled nowhere are reset (R37, R54-R58). -/
def State.pathsChanged (s old : State) (lost : Option Nat) : State :=
  let s1 := (s.rePortAll lost).pathEvents old
  (upTo 257).foldl (fun t f => if f ≠ 0 && old.fnEnabled f && !t.fnEnabled f then t.flr f else t) s1

/-- VF_ENABLE_WRITE: a configuration write of VF Enable and NumVFs of PFp; TotalVFs is 256 (R36, R37). A NumVFs above TotalVFs is cut to 256, since the manual gives such a write no effect (DESIGN CHOICE, log 89). -/
def execVfEnableWrite (p : PortId) (enable : Bool) (numVfs : W16) (s : State) : Host.Outcome State Fault Refusal :=
  .next (s.when (s.on && (s.port p.val).up && (s.port p.val).answering) (fun t =>
    (t.updPort p.val (fun x => { x with vfEnable := enable, numVfs := BitVec.ofNat 16 (min numVfs.toNat 256) })).pathsChanged t none))

/-! ## Loss and reset of a port (R55-R58, R452) -/

/-- The completion of a discarded admin command is logged and its credit returns (R452). -/
def State.discardAdmin (s : State) (f op : Nat) (cmdId : W16) : State :=
  (s.repF uHost 0x02 f (fields [(0, op), (16, cmdId.toNat)])).updFn f (fun x => { x with credits := x.credits - 1 })

/-- The due completions of a queue that belong to admin commands. -/
def adminDues (x : Queue) : List Due :=
  x.due.filter (fun d => d.credit)

/-- The opcode of the command a due completion ends; IDENTIFY's 0 where the packet has left the QM. -/
def State.opOf (s : State) (h : Nat) : Nat := match s.cmd h with | some c => c.opcode | none => 0

/-- Queue q of a PF is disabled by the reset of its port: entries' completions are kept, those of admin commands are discarded (R44, R452). -/
def State.pfQueueReset (s : State) (f q : Nat) : State :=
  let x := s.queue f q
  let gone := adminDues x
  let s1 := s.updQueue f q (fun y => { y with
    enable := false, state := .disabled, posted := [], unsig := 0, due := y.due.filter (fun d => !d.credit),
    live := y.live.filter (fun l => !((s.qm.cmds.any (fun c => c.handle = l.handle && isAdmin c.opcode)) || gone.any (fun d => d.handle = l.handle))) })
  let s2 := x.posted.foldl State.consume s1
  gone.foldl (fun t d => t.discardAdmin f (s.opOf d.handle) d.cmdId) s2

/-- The PF's admin commands still in the complex lose their completions (R452, R74). -/
def State.pfAdminReset (s : State) (f : Nat) : State :=
  let gone := s.qm.cmds.filter (fun c => c.func = f && isAdmin c.opcode)
  gone.foldl (fun t c =>
    let t1 := (t.dropCmd c.handle).discardAdmin f c.opcode c.cmdId
    match c.stage with
    | .entry i => (t1.updEntry i (fun e => { e with posted := true, consumed := true })).freeCheck i
    | _ => t1) s

/-- The port reset of R452. -/
def State.portReset (s : State) (p : Nat) : State :=
  let f := pfOf p
  let s1 := s.updPort p (fun x => { x with vfEnable := false, numVfs := 0, msix := [], spdm := 0, sessions := [], ideKeys := [] })
  let s2 := (upTo 9).foldl (fun t q => t.pfQueueReset f q) s1
  s2.pfAdminReset f

/-- Port p is lost: its F3, failover, PORT_CHANGE, host requests again through the other port (R55-R58); `reset`: with the port reset of R452; `down`: the link goes down. -/
def State.losePort (s : State) (p : Nat) (reset down : Bool) : State :=
  let was := (s.port p).up
  let s1 := s.updPort p (fun x => { x with
    up := false, speed := if down then 0 else x.speed, width := if down then 0 else x.width, trained := x.trained && !down })
  let s2 := if was then s1.rep0 uHost 0x32 p else s1
  let s3 := if reset then s2.portReset p else s2
  let s4 := s3.pathsChanged s (some p)
  if was then (s4.dropHostLines p).hostReissue else s4

/-- PORT_LOSS (R55): data-link-down, hot reset or link disable, surprise removal, each a port reset (Table 16.1); also of a link that stands while viral keeps its port lost (R65). -/
def execPortLoss (p : PortId) (_cause : LossCause) (s : State) : Host.Outcome State Fault Refusal :=
  .next (s.when (s.on && ((s.port p.val).up || (s.port p.val).speed != 0)) (fun t => t.losePort p.val true true))

/-- VIRAL_RECEIVED (R65): the port is lost and logged as F3. -/
def execViralReceived (p : PortId) (s : State) : Host.Outcome State Fault Refusal :=
  .next (s.when (s.on && (s.port p.val).up) (fun t => (t.updPort p.val (fun x => { x with viral := true })).losePort p.val false false))

/-- PERST_ASSERT (R452, R472). -/
def execPerstAssert (p : PortId) (s : State) : Host.Outcome State Fault Refusal :=
  let s1 := s.updPort p.val (fun x => { x with perst := true })
  .next (if s.on && !(s.port p.val).perst then (s1.updPort p.val (fun x => { x with trainDue := none })).losePort p.val true true else s1)

/-- PERST_DEASSERT: link training begins within 20 ms (R447). -/
def execPerstDeassert (p : PortId) (s : State) : Host.Outcome State Fault Refusal :=
  .next (s.updPort p.val (fun x => { x with
    perst := false, trainDue := if s.on && x.perst && x.refclk then some (s.tick + ms 20) else x.trainDue }))

/-- REFCLK_RETURN (R464): training begins within 20 ms while PERST_N is deasserted. -/
def execRefclkReturn (p : PortId) (s : State) : Host.Outcome State Fault Refusal :=
  .next (s.updPort p.val (fun x => { x with
    refclk := true, trainDue := if s.on && !x.refclk && !x.perst then some (s.tick + ms 20) else x.trainDue }))

/-- PORT_TRAINING_END (R31): CXL at 8 GT/s or above, or LINK_FAULT. -/
def execPortTrainingEnd (p : PortId) (cxl : Bool) (speed width : BitVec 4) (s : State) : Host.Outcome State Fault Refusal :=
  let x := s.port p.val
  .next (s.when (s.on && x.refclk && !x.perst && !x.up) (fun t =>
    if cxl && 3 ≤ speed.toNat && speed.toNat ≤ 5 then
      t.updPort p.val (fun y => { y with linkFault := false, trained := true, trainDue := none, speed := speed, width := width })
    else
      let t1 := t.updPort p.val (fun y => { y with linkFault := true, trained := false, trainDue := none, speed := speed, width := width })
      t1.rep0 uHost 0x32 p.val))

/-- PORT_UP (R54, R58, R65): a trained port comes up; queues move and kept completions may be posted. -/
def execPortUp (p : PortId) (s : State) : Host.Outcome State Fault Refusal :=
  let x := s.port p.val
  .next (s.when (s.on && x.trained && !x.up && x.refclk && !x.perst && !x.linkFault) (fun t =>
    ((t.updPort p.val (fun y => { y with up := true, viral := false })).pathsChanged t none).hostReissue))

/-- The rows of Table 2.1, numbered from 0, whose features a port has: all but row 6, ATS, PASID and PRI, which are absent from configuration space (R32). The numbers are the model's (DESIGN CHOICE, log 90). -/
def portFeatures : List Nat := [0, 1, 2, 3, 4, 5, 7, 8, 9, 10, 11, 12, 13]

/-- What a configuration read of port p returns (R32, R36): its features; or TotalVFs, InitialVFs, First VF Offset, VF Stride, NumVFs and VF Enable. -/
def State.cfgRead (s : State) (p : Nat) (item : CfgItem) : List Nat :=
  match item with
  | .capabilities => portFeatures
  | .sriov => [256, 256, 1, 1, (s.port p).numVfs.toNat, b2n (s.port p).vfEnable]
  | .other => []

/-- CONFIG_REQUEST (R32, R36, R447). -/
def execConfigRequest (r : ConfigRead) (s : State) : Host.Outcome State Fault Refusal :=
  let p := r.port
  let item := r.item
  let x := s.port p.val
  .next (s.when (s.on && x.up) (fun t =>
    if x.answering then t.emit (.config p false (t.cfgRead p.val item))
    else if x.waitCfg then
      (t.updPort p.val (fun y => { y with waitCfg := false, answering := true })).emit (.config p false (t.cfgRead p.val item))
    else t.emit (.config p true [])))

/-! ## The DOE mailbox (R33-R35) -/

/-- The mailbox of port p answers. -/
def State.doeOk (s : State) (p : Nat) : Bool := s.on && (s.port p).up && (s.port p).answering

/-- An answer of the mailbox of port p: at most 1,024 doublewords (R33). -/
def State.doeAns (s : State) (p : PortId) (kind : Nat) (bytes : List Byte) : State := s.emit (.doe p kind (bytes.take 4096))

/-- The object types of R33: vendor and type; numbers from the PCIe and CXL specifications (PRESUMED, log 25). -/
def doeTypes : List (Nat × Nat) := [(0x0001, 0), (0x0001, 1), (0x0001, 2), (0x1E98, 2)]

/-- DOE_DISCOVERY: vendor, type and next index of the indexed object type (R33, log 25). -/
def execDoeDiscovery (p : PortId) (index : Byte) (s : State) : Host.Outcome State Fault Refusal :=
  let t := doeTypes.getD index.toNat (0xFFFF, 0)
  let nxt := if index.toNat + 1 < 4 then index.toNat + 1 else 0
  .next (s.when (s.doeOk p.val) (fun z => z.doeAns p 0 (leBytes t.1 2 ++ leBytes t.2 1 ++ leBytes nxt 1)))

/-- DOE_UNSUPPORTED_OBJECT: a DOE error; the mailbox stays usable (R33). -/
def execDoeUnsupportedObject (p : PortId) (vendor : W16) (type : Byte) (s : State) : Host.Outcome State Fault Refusal :=
  .next (s.when (s.doeOk p.val && !doeTypes.contains (vendor.toNat, type.toNat)) (fun z => z.doeAns p 1 []))

/-- Bandwidth in MB/s at the trained speed and width: 28 GB/s at x8 and 32 GT/s (R35). -/
def Port.bandwidth (x : Port) : Nat := 28000 * (if x.speed = 5 then 4 else if x.speed = 4 then 2 else 1) * x.width.toNat / 32

/-- CDAT_TABLE_ACCESS: the exposed range, read and write latency in ns, read and write bandwidth in MB/s, eight bytes each (R35, log 25). -/
def execCdatTableAccess (p : PortId) (_entry : W16) (s : State) : Host.Outcome State Fault Refusal :=
  let base := (s.lnd.watermark.toNat * 0x200000 + 0xFFFFFFF) / 0x10000000 * 0x10000000
  let bw := (s.port p.val).bandwidth
  .next (s.when (s.doeOk p.val) (fun z =>
    z.doeAns p 2 ([base, 0xFC0000000 - base, 320, 320, bw, bw].flatMap (fun v => leBytes v 8))))

/-! ## SPDM (R34, R392) -/

/-- An SPDM error answer: Busy 3, InvalidRequest 1, UnexpectedRequest 4 (codes of DSP0274, PRESUMED, log 25). -/
def State.spdmErr (s : State) (p : PortId) (code : Nat) : State := s.doeAns p 0x7F (leBytes code 1)

/-- An SPDM answer whose bytes the manual takes from outside standards (free value, log 10). -/
def State.spdmAns (s : State) (p : PortId) (kind : Nat) : State :=
  { s.doeAns p kind (Config.spdmBytes kind p.val s.fresh) with fresh := s.fresh + 1 }

/-- The MP answers a request that needs the connection state `need`: Busy while it does not run (R392). -/
def State.spdm (s : State) (p : PortId) (need : Nat) (f : State → State) : State :=
  s.when (s.doeOk p.val) (fun t =>
    if t.mp.run ≠ 0 then t.spdmErr p 3
    else if (t.port p.val).spdm < need then t.spdmErr p 4
    else f t)

/-- GET_VERSION starts the connection (R392). -/
def execGetVersion (p : PortId) (s : State) : Host.Outcome State Fault Refusal :=
  .next (s.spdm p 0 (fun t => (t.updPort p.val (fun x => { x with spdm := 1 })).spdmAns p 0x04))

/-- GET_CAPABILITIES (R392). -/
def execGetCapabilities (p : PortId) (s : State) : Host.Outcome State Fault Refusal :=
  .next (s.spdm p 1 (fun t => (t.updPort p.val (fun x => { x with spdm := max x.spdm 2 })).spdmAns p 0x61))

/-- NEGOTIATE_ALGORITHMS: only SHA-384, ECDSA P-384, ECDHE secp384r1 and AES-256-GCM (R392). -/
def execNegotiateAlgorithms (p : PortId) (hash asym dhe aead : Bool) (s : State) : Host.Outcome State Fault Refusal :=
  .next (s.spdm p 2 (fun t =>
    if hash && asym && dhe && aead then (t.updPort p.val (fun x => { x with spdm := 3 })).spdmAns p 0x63 else t.spdmErr p 1))

/-- Certificate slot 1 exists once the owner key is installed (R392). -/
def State.certSlot (s : State) (slot : Nat) : Bool := slot = 0 || (slot = 1 && s.deck.ownerKey.isSome)

/-- GET_DIGESTS (R392). -/
def execGetDigests (p : PortId) (s : State) : Host.Outcome State Fault Refusal := .next (s.spdm p 3 (fun t => t.spdmAns p 0x01))

/-- GET_CERTIFICATE: the portion asked for of the chain in the slot, within one object (R33, R392). -/
def execGetCertificate (p : PortId) (slot : BitVec 4) (off len : W16) (s : State) : Host.Outcome State Fault Refusal :=
  .next (s.spdm p 3 (fun t =>
    if t.certSlot slot.toNat then t.doeAns p 0x02 (((Config.certChain slot.toNat).drop off.toNat).take len.toNat) else t.spdmErr p 1))

/-- CHALLENGE (R392). -/
def execChallenge (p : PortId) (slot : BitVec 4) (_nonce : BitVec 256) (s : State) : Host.Outcome State Fault Refusal :=
  .next (s.spdm p 3 (fun t => if t.certSlot slot.toNat then t.spdmAns p 0x03 else t.spdmErr p 1))

/-- The bytes of measurement register i. -/
def State.measBytes (s : State) (i : Nat) : List Byte := leBytes (Sp.look s.tru.meas 0 i).toNat 48

/-- GET_MEASUREMENTS: index n returns M(n-1), 0xFF all 32 (R392). -/
def execGetMeasurements (p : PortId) (index : Byte) (s : State) : Host.Outcome State Fault Refusal :=
  .next (s.spdm p 3 (fun t =>
    if 1 ≤ index.toNat && index.toNat ≤ 32 then t.doeAns p 0x60 (t.measBytes (index.toNat - 1))
    else if index = 0xFF then t.doeAns p 0x60 ((upTo 32).flatMap t.measBytes)
    else t.spdmErr p 1))

/-- KEY_EXCHANGE starts a secured session (R392); its number is the draw's. -/
def execKeyExchange (p : PortId) (slot : BitVec 4) (_exchange : BitVec 768) (s : State) : Host.Outcome State Fault Refusal :=
  .next (s.spdm p 3 (fun t =>
    if t.certSlot slot.toNat then
      (t.updPort p.val (fun x => { x with sessions := x.sessions ++ [⟨BitVec.ofNat 32 t.fresh, false, t.tick, 0⟩] })).spdmAns p 0x64
    else t.spdmErr p 1))

/-- Change the session of a number. -/
def Port.updSession (x : Port) (i : W32) (f : Session → Session) : Port :=
  { x with sessions := x.sessions.map (fun z => if z.id = i then f z else z) }

/-- Session i of port p in the given state of establishment. -/
def State.session (s : State) (p : Nat) (i : W32) (est : Bool) : Bool := (s.port p).sessions.any (fun z => z.id = i && z.established == est)

/-- FINISH completes session establishment (R392); a verification that fails ends the session. -/
def execFinish (p : PortId) (session : W32) (verify : Bool) (s : State) : Host.Outcome State Fault Refusal :=
  .next (s.spdm p 3 (fun t =>
    if !t.session p.val session false then t.spdmErr p 1
    else if verify then (t.updPort p.val (fun x => x.updSession session (fun z => { z with established := true }))).spdmAns p 0x65
    else (t.updPort p.val (fun x => { x with sessions := x.sessions.filter (fun z => z.id != session) })).spdmErr p 1))

/-- HEARTBEAT keeps a session alive (R392). -/
def execHeartbeat (p : PortId) (session : W32) (s : State) : Host.Outcome State Fault Refusal :=
  .next (s.spdm p 3 (fun t =>
    if t.session p.val session true then (t.updPort p.val (fun x => x.updSession session (fun z => { z with alive := s.tick }))).spdmAns p 0x68
    else t.spdmErr p 1))

/-- KEY_UPDATE updates the session keys (R392). -/
def execKeyUpdate (p : PortId) (session : W32) (s : State) : Host.Outcome State Fault Refusal :=
  .next (s.spdm p 3 (fun t =>
    if t.session p.val session true then (t.updPort p.val (fun x => x.updSession session (fun z => { z with keyGen := z.keyGen + 1 }))).spdmAns p 0x69
    else t.spdmErr p 1))

/-- END_SESSION ends a session (R392). -/
def execEndSession (p : PortId) (session : W32) (s : State) : Host.Outcome State Fault Refusal :=
  .next (s.spdm p 3 (fun t =>
    if t.session p.val session true then (t.updPort p.val (fun x => { x with sessions := x.sessions.filter (fun z => z.id != session) })).spdmAns p 0x6C
    else t.spdmErr p 1))

/-- Streams of a kind that a port carries (Table 2.1): one link stream and four selective streams of CXL.io, one CXL.cachemem. -/
def ideStreams : IdeKind → Nat
  | .ioLink => 1
  | .ioSelective => 4
  | .cacheMem => 1

/-- The IDE keys after one more: a sub-stream of a stream has one key, and each kind its own streams (Table 2.1). -/
def ideKeysWith (ks : List IdeKey) (k : IdeKey) : Option (List IdeKey) :=
  let new := ks.filter (fun x => !(x.kind == k.kind && x.stream = k.stream && x.sub = k.sub)) ++ [k]
  if (((new.filter (fun x => x.kind == k.kind)).map (fun x => x.stream)).eraseDups).length ≤ ideStreams k.kind then some new else none

/-- IDE_KEY_MANAGEMENT over an established session (R34): the key is held in the HPU. -/
def execIdeKeyManagement (p : PortId) (session : W32) (stream : IdeStream) (sub : BitVec 4) (key : BitVec 256) (s : State) : Host.Outcome State Fault Refusal :=
  .next (s.spdm p 3 (fun t =>
    if t.session p.val session true then
      match ideKeysWith (t.port p.val).ideKeys ⟨stream.kind, stream.index, sub, key⟩ with
      | some ks => (t.updPort p.val (fun x => { x with ideKeys := ks })).spdmAns p 0x6A
      | none => t.spdmErr p 1
    else t.spdmErr p 1))

end Sys2Proof.Machine
end

