-- ==== Sys2Proof/Machine/Fetch.lean ====
section
/-! DEFINITION. The path of a command: fetch and its checks, transactions, allocation, ABORT, RESUME, QUERY (R46, R63, R66-R86, R90, R106, R107, R404, R419). -/

namespace Sys2Proof.Machine

/-! ## Checks (Table 3.2) -/

/-- A check that may fail: whether it holds, the status and RESULT0 of its failure. -/
abbrev Chk := Bool × Nat × Nat

/-- The first check of a list that fails (R75). -/
def failAt : List Chk → Option (Nat × Nat)
  | [] => none
  | (ok, st, r0) :: r => if ok then failAt r else some (st, r0)

/-- An enumerated field at byte `off` (step 6). -/
def chkEnum (ok : Bool) (off : Nat) : Chk := (ok, stInvalid, off)
/-- A designator at byte `off` (step 7). -/
def chkDes (ok : Bool) (off : Nat) : Chk := (ok, stNotPermitted, off)

/-- INDEX of the blaze, 0 while it is empty (R404). -/
def State.blazeIndex (s : State) : Nat := match s.flt.blaze with | some r => r.index.toNat | none => 0

/-- A whole-module self-test runs (R419). -/
def State.wholeTest (s : State) : Bool := s.underTest 0xFFFF

/-- Opcodes of Table 3.3 outside the service range. -/
def opcodes : List Nat :=
  [0x00, 0x01, 0x02, 0x03, 0x10, 0x11, 0x12, 0x13, 0x14, 0x15, 0x20, 0x21, 0x22, 0x30, 0x31, 0x32, 0x33, 0x34, 0x35, 0x40, 0x41, 0x42] ++
  [0x50, 0x51, 0x52, 0x60, 0x61, 0x62, 0x63, 0x70, 0x71, 0x72, 0x80, 0x81, 0x82, 0x83]

/-- Opcodes issued by a PF only (Table 3.3). -/
def pfOnly : List Nat := [0x02, 0x03, 0x40, 0x41, 0x51, 0x52, 0x61, 0x62, 0x63, 0x71, 0x80, 0x81, 0x82]

/-- The lifecycle states that Table 13.4 allows full self-test, raw block mode and service opcodes in. -/
def lcService (l : Lc) : Bool := l == .manufacture || l == .service

/-- OPCODE is assigned to function f in the current lifecycle state (R77, R388). -/
def State.assigned (s : State) (f op : Nat) : Bool :=
  if 0xF0 ≤ op then isPf f && lcService s.deck.lc
  else opcodes.contains op && (s.deck.lc != .endState || op = 0x00 || op = 0x60 || op = 0x72)

/-- The admin credits of a function (R72). -/
def creditsOf (f : Nat) : Nat := if isPf f then 256 else 32

/-- The retry hint of a BUSY completion in µs (R73): the rest of a lone restart, 10,000 while halted, else the MP's estimate (free value, log 13). -/
def State.busyHint (s : State) : Nat :=
  if s.mp.run = 1 then clampN 1 1000000 (40000 - (s.tick - s.mp.restartAt) / 100)
  else if s.mp.run = 2 then 10000
  else clampN 1 1000000 (Config.busyEstimate s.fresh).toNat

/-- Steps 2 to 4 of Table 3.2 (R67, R71, R77, R78). -/
def State.steps24 (s : State) (f q : Nat) (pkt : Sector) : Option (Nat × Nat) :=
  let op := pkN pkt 0 1
  let ex := pkN pkt 1 1 % 2 = 1
  failAt [
    chkEnum (s.assigned f op) 0,
    chkDes (isPf f || !pfOnly.contains op) 0,
    chkDes (!(0x10 ≤ op && op < 0x20 && isPf f && q = 0)) 0,
    chkDes (!ex || (s.fn f).expert) 1,
    chkDes (ex || !(op = 0x52 || op = 0x62)) 1]

/-- The grave stop answers a command that passed steps 1-4 with DEVICE_FAULT (Table 14.5); IDENTIFY and FAULT_READ are answered. -/
def State.graveStops (s : State) (op : Nat) : Bool := s.flt.grave && op ≠ 0x00 && op ≠ 0x60

/-- Steps 1 to 5, the grave stop and the whole-module self-test: status, RESULT0 and whether the answer is a BUSY estimate; none: admitted (Table 3.2, R404, R419). -/
def State.fetchCheck (s : State) (f q slot : Nat) (pkt : Sector) (poison : Bool) : Option (Nat × Nat) :=
  let op := pkN pkt 0 1
  if poison then some (stPoisoned, slot)
  else match s.steps24 f q pkt with
    | some x => some x
    | none =>
      if s.graveStops op then some (stDeviceFault, s.blazeIndex)
      else if s.wholeTest && !isAdmin op then some (stNotReady, 0)
      else if s.wholeTest && op ≠ 0x00 && op ≠ 0x60 && op ≠ 0x50 then some (stBusy, s.busyHint)
      else if isAdmin op && (creditsOf f ≤ (s.fn f).credits || (s.mp.run ≠ 0 && !s.flt.grave)) then some (stBusy, s.busyHint)
      else none

/-! ## Fetching (R42, R46, R54, R66) -/

/-- Position of a queue in the round: both PF admin queues first, then every pair (R46). -/
def roundPos (f q : Nat) : Nat :=
  let k := if f = 0x101 then 257 else f
  if isPf f then (if q = 0 then (if f = 0 then 0 else 1) else 2 + 8 * k + (q - 1)) else 2 + 8 * k + q

/-- The queue has a command to fetch and its function may fetch. -/
def State.fetchable (s : State) (f q : Nat) : Bool :=
  let x := s.queue f q
  x.state == .running && x.sqHead != x.sqTail && !(s.fn f).suspend && !(s.fn f).flrBusy

/-- The queue the QM visits next (R46). -/
def State.nextFetch (s : State) : Option (Nat × Nat) :=
  ((s.qm.queues.map (fun e => (e.1 / 9, e.1 % 9))).filter (fun k => s.fetchable k.1 k.2)).foldl
    (fun (acc : Option (Nat × Nat)) (k : Nat × Nat) => match acc with
      | none => some k
      | some b => if (roundPos k.1 k.2 + 2066 - s.qm.rr) % 2066 < (roundPos b.1 b.2 + 2066 - s.qm.rr) % 2066 then some k else some b) none

/-- The QM reads the next submission entry of queue (f, q) through its active port (R42). The read and its answer are one command, so none is outstanding when a port is lost (R56, log 19). -/
def State.readSq (s : State) (f q : Nat) : State :=
  let x := s.queue f q
  s.emit (.hostRead (if x.activePort then 1 else 0) (x.sqBase.toNat + 64 * x.sqHead.toNat) 64)

/-- The QM takes the packet of queue (f, q)'s next slot (R46, R66, R75). -/
def State.fetch (s : State) (f q : Nat) (pkt : Sector) (poison : Bool) : State :=
  let x := s.queue f q
  let slot := x.sqHead
  let op := pkN pkt 0 1
  let h := s.qm.nextHandle
  let id : W16 := if poison then 0xFFFF else BitVec.ofNat 16 (pkN pkt 2 2)
  let named : W32 := if !poison && op / 16 = 2 then BitVec.ofNat 32 (pkN pkt 4 4) else 0
  let head : BitVec 12 := if slot.toNat + 1 = x.size then 0 else slot + 1
  let s1 := s.updQueue f q (fun y => { y with sqHead := head, live := y.live ++ [⟨h, slot, id, named⟩] })
  let s2 := s1.setQm (fun m => { m with nextHandle := h + 1, rr := (roundPos f q + 1) % 2066 })
  match s.fetchCheck f q slot.toNat pkt poison with
  | some (st, r0) =>
    let s3 := if st = stBusy && s.mp.run = 0 then { s2 with fresh := s2.fresh + 1 } else s2
    s3.addDue f q ⟨.direct (BitVec.ofNat 8 st) named (BitVec.ofNat 32 r0) 0, id, false, h, false, s.tick⟩
  | none =>
    let s3 := s2.setQm (fun m => { m with cmds := m.cmds ++ [⟨h, f, q, slot, pkt, .checked, false⟩] })
    if isAdmin op then s3.updFn f (fun y => { y with credits := y.credits + 1 }) else s3

/-- COMMAND_FETCH (R42, R46, R63, R66-R78, R404, R419): the packet that the read of the next submission entry returned. -/
def execCommandFetch (pkt : Sector) (poison : Bool) (s : State) : Host.Outcome State Fault Refusal :=
  .next (s.when (s.on && !s.start.quiesce && !s.start.warm) (fun t => match t.nextFetch with
    | some (f, q) => (t.readSq f q).fetch f q pkt poison
    | none => t))

/-! ## Handing on (R46, R68) -/

/-- Commands are handed on in ring order; an admin command is handed to the MP as it is fetched, so a busy MP holds back later admin commands alone (R23, R46, R71); a fenced one waits until every earlier completion is posted (R68). -/
def State.nextUp (s : State) (c : Cmd) : Bool :=
  s.qm.cmds.all (fun d => !(d.func = c.func && d.q = c.q && d.handle < c.handle &&
    ((d.stage == .checked && (!isAdmin d.opcode || isAdmin c.opcode)) || d.stage == .alloc))) &&
    (!c.fence || (s.queue c.func c.q).live.all (fun l => c.handle ≤ l.handle))

/-- The command of handle h that waits for its own row, with opcode op. -/
def State.turn (s : State) (h op : Nat) : Option Cmd :=
  match s.cmd h with
  | some c => if c.stage == .checked && c.opcode = op && s.nextUp c then some c else none
  | none => none

/-- A refusal: TID 0, or the TID that a command of class 0x2_ named (R94). -/
def State.refuse (s : State) (c : Cmd) (st r0 : Nat) : State :=
  s.finish c st (if c.opcode / 16 = 2 then pkN c.pkt 4 4 else 0) r0 0

/-- A command takes effect unless the grave stop has come (R404). -/
def State.runCmd (s : State) (h op : Nat) (f : State → Cmd → State) : State :=
  s.when (s.on && !s.start.warm && !s.start.ready) (fun t => match t.turn h op with
    | none => t
    | some c => if t.graveStops op then t.refuse c stDeviceFault t.blazeIndex else f t c)

/-- An admin command, which the MP executes while it runs (R71, R74). -/
def State.runAdmin (s : State) (h op : Nat) (f : State → Cmd → State) : State :=
  s.when (s.mp.run = 0 || s.flt.grave) (fun t => t.runCmd h op f)

/-- Run checks, then the effect (R75). -/
def State.checkedRun (s : State) (c : Cmd) (l : List Chk) (f : State → State) : State :=
  match failAt l with
  | some (st, r0) => s.refuse c st r0
  | none => f s

/-- Set the stage of a command. -/
def State.stage (s : State) (c : Cmd) (g : CmdStage) : State := s.putCmd { c with stage := g }

/-- The command completes with OK. -/
def State.okay (s : State) (c : Cmd) (r0 r1 : Nat) : State := s.finish c stOk 0 r0 r1

/-! ## Objects a command names -/

/-- Group g is in use and f may name it (R79). -/
def State.groupOk (s : State) (f g : Nat) : Bool :=
  g < 1024 && (s.group g).valid && (isPf f || (s.group g).func.toNat = f)

/-- The function an image is bound to, 0 for the PFs; none: unbound (R209). -/
def State.bindOf (s : State) (h : Nat) : Option Nat :=
  match Sp.look s.mp.binds 0 h with
  | 0 => none
  | n + 1 => some n

/-- The image of handle h, empty while a load of it writes (R208). -/
def State.img (s : State) (h : Nat) : Option Img :=
  match s.mp.load with
  | some (k, _, _) => if k = h then none else Sp.look s.deck.images none h
  | none => Sp.look s.deck.images none h

/-- The image of handle h if it is bound to f (R209). -/
def State.imgFor (s : State) (f h : Nat) : Option Img :=
  match s.bindOf h with
  | some 0 => if isPf f then s.img h else none
  | some n => if n = f then s.img h else none
  | none => none

/-- Cluster c has a logical engine of a world in service (R24, R258). -/
def State.clHas (s : State) (sec : Bool) (c : Nat) : Bool :=
  (upTo 8).any (fun i => s.leSlot (8 * c + i) < 9 && s.secBlock (8 * c + i) == sec)

/-- The cluster of a RUN with no group (R24). -/
def State.runCluster (s : State) (f : Nat) : Option Nat := ((upTo 16).map (fun k => (f + k) % 16)).find? (fun c => s.clHas false c)

/-- Every logical engine of cluster c is out of service (R258). -/
def State.clDead (s : State) (c : Nat) : Bool := (upTo 8).all (fun i => 9 ≤ s.leSlot (8 * c + i))

/-- The owning cluster of a transaction command (R24). -/
def State.txCluster (s : State) (c : Cmd) : Option Nat :=
  let ga := pkN c.pkt 8 2
  if c.opcode = 0x15 && ga = 0xFFFF then s.runCluster c.func else some (s.group ga).owner.toNat

/-! ## Transactions, steps 6-8 (R79, R80, R209, R334, R483) -/

/-- The largest LENGTH of a transaction opcode (Table 3.4). -/
def txMax (op : Nat) : Nat := if op = 0x13 || op = 0x14 then 65536 else 16777216

/-- GROUP_A to GROUP_C of a transaction (R79, R80). -/
def State.groupChecks (s : State) (c : Cmd) : List Chk :=
  let a := pkN c.pkt 8 2
  let b := pkN c.pkt 10 2
  let d := pkN c.pkt 12 2
  [chkDes ((c.opcode = 0x15 && a = 0xFFFF) || s.groupOk c.func a) 8] ++
  (if c.opcode = 0x12 then
    [chkDes (b ≠ 0xFFFF && b ≠ a && s.groupOk c.func b) 10,
     chkDes (d = 0xFFFF || (d ≠ a && d ≠ b && s.groupOk c.func d)) 12]
  else [])

/-- Streaming output: HOLD_OUTPUT = 0 of an expert form (R69). -/
def Cmd.streams (c : Cmd) : Bool := c.expert && !c.hold

/-- SVC (Table 3.4). -/
def Cmd.svc (c : Cmd) : Nat := pkN c.pkt 14 1

/-- A READ with an expand or unseal service in held form, of more bytes than held output accepts (R69). -/
def tooHeld (c : Cmd) : Bool := c.opcode = 0x11 && c.svc % 8 ≠ 0 && !c.streams && 65536 < pkN c.pkt 32 4

/-- The addresses and lengths of opcodes 0x10-0x14 (R69, R483, Table 3.4), in the order of their offsets (log 26). -/
def State.dataChecks (s : State) (c : Cmd) : List Chk :=
  let n := pkN c.pkt 32 4
  let r := pkN c.pkt 36 4
  let k := (s.txCluster c).getD 0
  [chkDes (rangeOk k (pkN c.pkt 16 8) (max n 1)) 16,
   chkDes (c.opcode ≠ 0x14 || r = 0 || rangeOk k (pkN c.pkt 24 8) r) 24,
   chkDes (1 ≤ n && n ≤ txMax c.opcode && !tooHeld c) 32,
   chkDes (c.opcode ≠ 0x14 || r ≤ 65536) 36]

/-- IMAGE and ENTRY of a RUN (R209). -/
def State.runChecks (s : State) (c : Cmd) : List Chk :=
  let i := s.imgFor c.func (pkN c.pkt 10 2)
  [chkDes i.isSome 10, chkDes (pkN c.pkt 12 2 < (match i with | some x => x.entries.length | none => 0)) 12]

/-- The cluster whose engines are all out of service refuses a new transaction (R258). -/
def State.deadCheck (s : State) (c : Cmd) : Chk :=
  match s.txCluster c with
  | some k => (!s.clDead k, stDeviceFault, s.recIndex (fun r => r.kind = 0x30 && r.detail.toNat / 8 = k))
  | none => (false, stDeviceFault, s.recIndex (fun r => r.kind = 0x30))

/-- Step 8 of the expert form: ACK_TIMEOUT and PRIORITY clamped and counted (R67, R76). -/
def State.tune (s : State) (c : Cmd) : State × Cmd :=
  if c.expert then
    let t := pkN c.pkt 56 4
    let p := pkN c.pkt 60 1
    let t1 := clampN 10 100000 t
    let p1 := min p 3
    let n := clamped t t1 + clamped p p1
    (s.clampFn c.func n,
      { c with pkt := BitVec.ofNat 512 (putBits (putBits c.pkt.toNat 448 32 t1) 480 8 p1), clamped := n ≠ 0 })
  else (s, c)

/-- The command asks for a sealed transaction (SVC bit 2). -/
def sealedTx (c : Cmd) : Bool := 0x10 ≤ c.opcode && c.opcode ≤ 0x15 && bitsOf c.svc 2 1 = 1

/-- The key slot of a sealed transaction, or of no use. -/
def txKey (c : Cmd) : Nat := keyIndex c.func false (pkN c.pkt 15 1 % 16)

/-- The key slot of a sealed transaction is loaded and may draw (R332, R334). -/
def State.keyChecks (s : State) (c : Cmd) : List Chk :=
  [chkDes (!sealedTx c || (s.slot (txKey c)).type != 0) 15, chkDes (!sealedTx c || (s.slot (txKey c)).invoc != BitVec.allOnes 40) 28]

/-- A transaction command passes to step 9 (R75, R79). -/
def State.transaction (s : State) (c : Cmd) : State :=
  s.checkedRun c (s.groupChecks c ++ (if c.opcode = 0x15 then s.runChecks c else s.dataChecks c) ++ s.keyChecks c ++ [s.deadCheck c]) (fun t =>
    let (t1, c1) := t.tune c
    t1.putCmd { c1 with stage := .alloc })

/-- WRITE (R79). -/
def execWrite (h : Nat) (s : State) : Host.Outcome State Fault Refusal := .next (s.runCmd h 0x10 State.transaction)
/-- READ (R79). -/
def execRead (h : Nat) (s : State) : Host.Outcome State Fault Refusal := .next (s.runCmd h 0x11 State.transaction)
/-- MIRROR_WRITE (R80). -/
def execMirrorWrite (h : Nat) (s : State) : Host.Outcome State Fault Refusal := .next (s.runCmd h 0x12 State.transaction)
/-- SEND (R79). -/
def execSend (h : Nat) (s : State) : Host.Outcome State Fault Refusal := .next (s.runCmd h 0x13 State.transaction)
/-- EXCHANGE (R79, R81). -/
def execExchange (h : Nat) (s : State) : Host.Outcome State Fault Refusal := .next (s.runCmd h 0x14 State.transaction)
/-- RUN (R79, R209). -/
def execRun (h : Nat) (s : State) : Host.Outcome State Fault Refusal := .next (s.runCmd h 0x15 State.transaction)

/-! ## Allocation (R48, R106, R107, R127, R332, R334, R382) -/

/-- REQ_MASK set at allocation (Table 4.2). -/
def reqMaskOf (c : Cmd) : BitVec 3 :=
  if c.opcode = 0x70 || (c.opcode = 0x15 && pkN c.pkt 8 2 = 0xFFFF) then 0
  else if c.opcode = 0x12 then (if pkN c.pkt 12 2 = 0xFFFF then 3 else 7)
  else 1

/-- The entry's QPAIR: the queue pair's number (Table 4.2). -/
def qpairOf (f q : Nat) : Nat := if isPf f then q - 1 else q

/-- The entry that an allocation fills (Table 4.2, Table 4.4). -/
def newEntry (c : Cmd) (g : BitVec 12) : Entry :=
  let mir := c.opcode = 0x12
  let m := reqMaskOf c
  { Entry.free g with
    state := .opened, func := if c.opcode = 0x70 then 0x1FF else BitVec.ofNat 9 c.func
    qpair := BitVec.ofNat 3 (qpairOf c.func c.q), slot := c.slot, cmdId := c.cmdId
    prio := if c.opcode = 0x70 || !c.expert then 1 else BitVec.ofNat 2 (pkN c.pkt 60 1), opc := BitVec.ofNat 3 (c.opcode - 0x10)
    groupA := if m = 0 then 0 else BitVec.ofNat 10 (pkN c.pkt 8 2)
    groupB := if mir then BitVec.ofNat 10 (pkN c.pkt 10 2) else 0
    groupC := if mir && m = 7 then BitVec.ofNat 10 (pkN c.pkt 12 2) else 0
    reqMask := m }

/-- The dispatch word (Table 6.9). -/
def dispatchWord (c : Cmd) (tid : W32) : W64 :=
  BitVec.ofNat 64 (fields [(0, tid.toNat), (32, c.func), (41, qpairOf c.func c.q % 8), (44, c.slot.toNat), (56, (c.opcode - 0x10) % 8),
    (59, b2n c.expert)])

/-- The work record of an allocation (R196, R382). -/
def workRec (c : Cmd) (tid : W32) (iv : BitVec 96) (gen : BitVec 24) : WorkRec :=
  { word := dispatchWord c tid, pkt := c.pkt, iv := iv, gen := gen
    image := if c.opcode = 0x15 then pkN c.pkt 10 2 else if c.opcode = 0x70 then 257 else 256
    entry := if c.opcode = 0x15 then pkN c.pkt 12 2 else if c.opcode = 0x70 then pkN c.pkt 8 2 else c.opcode - 0x10
    gate := c.opcode = 0x70 }

/-- Checks at allocation: the key of a sealed transaction as it stands now (R334), a cluster that has died meanwhile (R258), then Table 4.1. -/
def State.allocChecks (s : State) (c : Cmd) : List Chk :=
  let sec := c.opcode = 0x70
  s.keyChecks c ++ (if sec then [] else [s.deadCheck c]) ++
  [(sec || s.inUse c.func < (s.fn c.func).tallyLimit.toNat, stQuota, 0),
   (s.prioCount < s.tly.prioCap.toNat, stQuota, 1),
   (s.anyFree sec, stQuota, 2)]

/-- Entry i is allocated to command c (R105, R107, R136, Table 4.4). -/
def State.allocate (s : State) (c : Cmd) (i : Nat) : State :=
  let g := s.allocGen i
  let tid := tidOf i g
  let draw := if sealedTx c then s.drawIv (txKey c) else (s, none)
  let s1 := (draw.1.takeIndex i).setEntry i (newEntry c g)
  let w := workRec c tid (draw.2.getD 0) (s.slot (txKey c)).gen
  let s2 := (s1.setQm (fun q => { q with work := Sp.put q.work none i (some w) })).setTly (fun y => { y with
    decided := y.decided.filter (fun d => d.1 != tid) })
  let s3 := s2.updQueue c.func c.q (fun x => { x with live := x.live.map (fun l => if l.handle = c.handle then { l with tid := tid } else l) })
  (upTo 3).foldl (fun t k => t.updFlow i k (fun _ => { Flow.init with tid := tid })) (s3.stage c (.entry i))

/-- ENTRY_ALLOCATE (Table 4.1): refused, allocated, or waiting at the QM. -/
def execEntryAllocate (h : Nat) (s : State) : Host.Outcome State Fault Refusal :=
  .next (s.when (s.live && !s.tly.stopped) (fun t => match t.cmd h with
    | none => t
    | some c =>
      if !(c.stage == .alloc && t.nextUp c) || t.guardHolds then t
      else match failAt (t.allocChecks c) with
        | some (st, r0) => t.refuse c st r0
        | none => match t.pickIndex (c.opcode = 0x70) with
          | some i => t.allocate c i
          | none => t))

/-! ## Tally control (R83-R86, R112, R119, R120) -/

/-- TID t names a live entry of function f (R83). -/
def State.owned (s : State) (f : Nat) (t : W32) : Bool := s.tidLive t && (s.entry (tidIdx t)).func.toNat = f

/-- The live transaction that the triple of an ABORT names (R83); one fetched from another queue that has no entry yet is none (DESIGN CHOICE, log 92). -/
def State.byTriple (s : State) (f : Nat) (pkt : Sector) : Option Nat :=
  (s.tly.entries.find? (fun e => e.2.state != .free && !e.2.consumed && e.2.func.toNat = f && e.2.qpair.toNat = pkN pkt 10 1 &&
    e.2.slot.toNat = pkN pkt 12 2 && e.2.cmdId.toNat = pkN pkt 8 2)).map (fun e => e.1)

/-- The index an ABORT names (R83). -/
def State.abortTarget (s : State) (c : Cmd) : Option Nat :=
  let t : W32 := BitVec.ofNat 32 (pkN c.pkt 4 4)
  if t = 0 then s.byTriple c.func c.pkt else if s.owned c.func t then some (tidIdx t) else none

/-- ABORT takes the lock of the entry at i (Table 3.6). -/
def State.abortAt (s : State) (c : Cmd) (i : Nat) : State :=
  let e := s.entry i
  let tid := s.tidAt i
  let c1 := { c with pkt := BitVec.ofNat 512 (putBits c.pkt.toNat 32 32 tid.toNat) }
  match e.state with
  | .committed => s.finish c1 stCommitted tid.toNat 0 0
  | .complete => s.finish c1 stCommitted tid.toNat 0 0
  | .aborted => if e.posted then s.finish c1 stAborted tid.toNat 0 0 else s.putCmd { c1 with stage := .aborting i stAborted }
  | _ => (s.abortEntry i stAborted 0 false).putCmd { c1 with stage := .aborting i stOk }

/-- ABORT (R83, R84, R119). -/
def execAbort (h : Nat) (s : State) : Host.Outcome State Fault Refusal :=
  .next (s.runCmd h 0x20 (fun t c => match t.abortTarget c with
    | some i => t.abortAt c i
    | none => t.refuse c stNotPermitted 0))

/-- The group a RESUME puts into slot g: a replacement of the expert form, or the one held (R85). -/
def resumeGroup (c : Cmd) (e : Entry) (g : Nat) : Nat :=
  let n := pkN c.pkt (8 + 2 * g) 2
  if c.expert && n ≠ 0xFFFF then n else e.grp g

/-- Slot g of the entry, replaced by this command, equals another group of the entry (R85). -/
def resumeDup (c : Cmd) (e : Entry) (g : Nat) : Bool :=
  c.expert && e.names g && pkN c.pkt (8 + 2 * g) 2 ≠ 0xFFFF &&
    (upTo 3).any (fun k => k ≠ g && e.names k && resumeGroup c e k = resumeGroup c e g)

/-- The checks of RESUME: TID, replacement groups, duplicates (R83, R85). A replacing field of a slot that the entry does not name is checked, and written, as the others are (DESIGN CHOICE, log 93). -/
def State.resumeChecks (s : State) (c : Cmd) (e : Entry) : List Chk :=
  (upTo 3).map (fun g => let n := pkN c.pkt (8 + 2 * g) 2; chkDes (!c.expert || n = 0xFFFF || s.groupOk c.func n) (8 + 2 * g)) ++
    [chkDes (!resumeDup c e 2) 12, chkDes (!resumeDup c e 1) 10, chkDes (!resumeDup c e 0) 8]

/-- RESUME returns a HELD entry to ACTIVE (R85, R112); a replaced slot starts its stream again. -/
def State.resumeAt (s : State) (c : Cmd) (i : Nat) : State :=
  let e := s.entry i
  let rep := fun (g : Nat) => c.expert && pkN c.pkt (8 + 2 * g) 2 ≠ 0xFFFF
  let e1 := { e with
    state := .active, lostMask := 0, interimSent := false
    groupA := BitVec.ofNat 10 (resumeGroup c e 0), groupB := BitVec.ofNat 10 (resumeGroup c e 1), groupC := BitVec.ofNat 10 (resumeGroup c e 2) }
  let e2 := (upTo 3).foldl (fun (x : Entry) (g : Nat) => if rep g then x.setSel g 0 else x) e1
  let s1 := s.setEntry i e2
  (upTo 3).foldl (fun t g => t.updFlow i g (fun f => if rep g then { Flow.init with tid := s.tidAt i } else { f with stopped := false, stopKind := 0, resends := 0, txNext := 0 })) s1

/-- RESUME (R83, R85, R112). -/
def execResume (h : Nat) (s : State) : Host.Outcome State Fault Refusal :=
  .next (s.runCmd h 0x21 (fun t c =>
    let tid : W32 := BitVec.ofNat 32 (pkN c.pkt 4 4)
    let i := tidIdx tid
    let e := t.entry i
    if !t.owned c.func tid then t.refuse c stNotPermitted 0
    else t.checkedRun c (t.resumeChecks c e ++ [chkDes (e.state == .held) 1]) (fun u =>
      (u.resumeAt c i).finish c stOk tid.toNat 0 0)))

/-- QUERY (R83, R86, R120). -/
def execQuery (h : Nat) (s : State) : Host.Outcome State Fault Refusal :=
  .next (s.runCmd h 0x22 (fun t c =>
    let tid : W32 := BitVec.ofNat 32 (pkN c.pkt 4 4)
    let e := t.entry (tidIdx tid)
    if !t.owned c.func tid then t.refuse c stNotPermitted 0
    else t.finish c (if e.stale then 0x10 else stOk) tid.toNat e.q0 e.q1))

end Sys2Proof.Machine
end

