-- ==== Sys2Proof/Machine/Services.lean ====
section
/-! DEFINITION. Data-service commands: COMPRESS to KEY_ERASE (R69, R87-R89, R326-R333, R342, R354, R361). -/

namespace Sys2Proof.Machine

/-! ## Fields of Table 3.7 -/

def Cmd.src (c : Cmd) : Nat := pkN c.pkt 8 8
def Cmd.dst (c : Cmd) : Nat := pkN c.pkt 16 8
def Cmd.count (c : Cmd) : Nat := pkN c.pkt 24 4
def Cmd.select (c : Cmd) : Nat := pkN c.pkt 28 1
/-- MODE: 0 in the basic form, but for KEY_LOAD (Table 3.7). -/
def Cmd.mode (c : Cmd) : Nat := if c.expert || c.opcode = 0x34 then pkN c.pkt 29 1 else 0
/-- The ranges a to a+n-1 and b to b+m-1 overlap. -/
def overlap (a n b m : Nat) : Bool := a < b + m && b < a + n

/-- A request of a host command (Table 3.7). A command has no engine and so no cluster of its own: its own-cluster addresses name the scratch of C00, as its checks read them, whichever unit serves it (DESIGN CHOICE, log 85). -/
def hostReq (c : Cmd) (op len : Nat) : SvcReq :=
  { op := op, src := canon 0 c.src, dst := canon 0 c.dst, res := 0, aad := 0, aadLen := 0, len := len, ratio := 0, stream := false
    slot := 0, expGen := 0, iv := 0, ivKind := 0, tag := 0, func := c.func, secure := false, engine := none, tid := 0, handle := c.handle }

/-! ## COMPRESS and EXPAND (R88, R354, R361) -/

/-- Source and destination bytes of a galley command. -/
def galSpan (c : Cmd) : Nat × Nat :=
  let g := galSize c.select * c.count
  if c.opcode = 0x30 then (4096 * c.count, g) else (g, 4096 * c.count)

/-- The checks of COMPRESS and EXPAND: the ranges are measured by COUNT and SELECT, so those come first (R361, R483, log 26). -/
def State.galChecks (s : State) (c : Cmd) : List Chk :=
  let (n, m) := galSpan c
  let held := c.opcode = 0x31 && !c.streams && 16 < c.count
  [chkDes (1 ≤ c.select && c.select ≤ 3) 28, chkDes (1 ≤ c.count && c.count ≤ 256 && !held) 24,
   chkDes (s.rangePerm c.func false 0 c.src n false) 8,
   chkDes (s.rangePerm c.func false 0 c.dst m true && !overlap (canon 0 c.src) n (canon 0 c.dst) m) 16]

/-- A galley command goes to the coder with the fewest queued bytes (R354). -/
def State.galCommand (s : State) (c : Cmd) : State :=
  s.checkedRun c (s.galChecks c) (fun t =>
    match t.hostCoder false with
    | some k => (t.stage c .running).toCoder k
        { hostReq c (if c.opcode = 0x30 then 0 else 1) (4096 * c.count) with ratio := c.select, stream := c.streams }
    | none => t.refuse c stDeviceFault (t.recIndex (fun r => r.kind = 0x33 && 0x200 ≤ r.source.toNat)))

/-- COMPRESS (R88, R361). -/
def execCompress (h : Nat) (s : State) : Host.Outcome State Fault Refusal := .next (s.runCmd h 0x30 State.galCommand)
/-- EXPAND (R88, R361). -/
def execExpand (h : Nat) (s : State) : Host.Outcome State Fault Refusal := .next (s.runCmd h 0x31 State.galCommand)

/-! ## SEAL and UNSEAL (R89, R332, R333, R338, R342) -/

/-- Step 6 and the raw block mode of SEAL and UNSEAL (R89, R342); a mode not available is told before the designators of step 7 (DESIGN CHOICE, log 94). -/
def State.modeChecks (s : State) (c : Cmd) : List Chk :=
  [chkEnum (c.mode ≤ 1) 29, (c.mode = 0 || lcService s.deck.lc, stMode, 0)]

/-- Bytes of the source and the destination of a cipher command (R87, R333). -/
def cphSpan (c : Cmd) : Nat × Nat :=
  if c.mode = 1 then (c.count, c.count)
  else if c.opcode = 0x32 then (c.count, if pkN c.pkt 44 12 = 0 then c.count + 28 else c.count + 16)
  else (c.count + 16, c.count)

/-- The designators of SEAL and UNSEAL (R69, R87, R342, Table 11.6): COUNT first, which measures SRC and DST, then in the order of their offsets, the range of AAD before AAD_LEN (log 26). -/
def State.cphChecks (s : State) (c : Cmd) : List Chk :=
  let (n, m) := cphSpan c
  let raw := c.mode = 1
  let held := c.opcode = 0x33 && !raw && !c.streams && 65536 < c.count
  let k := keyIndex c.func false c.select
  let aadLen := pkN c.pkt 40 4
  [chkDes (1 ≤ c.count && c.count ≤ 16777216 && !held && (!raw || c.count % 16 = 0)) 24,
   chkDes (s.rangePerm c.func false 0 c.src n false) 8, chkDes (s.rangePerm c.func false 0 c.dst m true) 16,
   chkDes (c.select < 16 && (s.slot k).type != 0 && !(!raw && c.opcode = 0x32 && pkN c.pkt 44 12 = 0 && (s.slot k).invoc == BitVec.allOnes 40)) 28,
   chkDes (raw || s.rangePerm c.func false 0 (pkN c.pkt 32 8) aadLen false) 32, chkDes (raw || aadLen ≤ 65536) 40]

/-- A cipher command goes to the group with the fewest queued bytes; SEAL with an IV of zeros draws one (R332, R333, R343). -/
def State.cphCommand (s : State) (c : Cmd) : State :=
  s.checkedRun c (s.modeChecks c ++ s.cphChecks c) (fun t =>
    let gen := c.mode = 0 && c.opcode = 0x32 && pkN c.pkt 44 12 = 0
    let draw := if gen then t.drawIv (keyIndex c.func false c.select) else (t, some (BitVec.ofNat 96 (pkN c.pkt 44 12)))
    let op := (if c.mode = 1 then 2 else 0) + (if c.opcode = 0x32 then 0 else 1)
    let r := { hostReq c op c.count with
      aad := if c.mode = 1 then 0 else canon 0 (pkN c.pkt 32 8), aadLen := if c.mode = 1 then 0 else pkN c.pkt 40 4
      stream := c.streams, slot := c.select, iv := draw.2.getD 0, ivKind := if gen then 1 else 0 }
    match draw.1.hostGrp false with
    | some g => (draw.1.stage c .running).toGrp g r
    | none => draw.1.refuse c stDeviceFault (t.recIndex (fun r => r.kind = 0x33 && r.source.toNat < 0x200)))

/-- SEAL (R333). -/
def execSeal (h : Nat) (s : State) : Host.Outcome State Fault Refusal := .next (s.runCmd h 0x32 State.cphCommand)
/-- UNSEAL (R333). -/
def execUnseal (h : Nat) (s : State) : Host.Outcome State Fault Refusal := .next (s.runCmd h 0x33 State.cphCommand)

/-! ## KEY_LOAD and KEY_ERASE (R326-R329) -/

/-- The key record checks: CRC, zero bytes (R327, Table 11.3). -/
def keyRecordOk (mode : Nat) (r : List Byte) : Bool :=
  crc32c (r.take 32) = BitVec.ofNat 32 (leNat ((r.drop 32).take 4)) && (r.drop 36).all (fun b => b = 0) &&
    (mode = 1 || ((r.drop 16).take 16).all (fun b => b = 0))

/-- The check bits an armed key-store injection inverts in the slot just loaded (Table 14.6). -/
def State.keyBad (s : State) : Nat := if s.armed uKeys 0xFF then popc 8 (s.injMaskOf uKeys) else 0

/-- The slot is loaded with the record: GEN advances, INVOC is 0 (R326). -/
def State.loadSlot (s : State) (i mode : Nat) (r : List Byte) : State :=
  let s1 := s.setSlot i ⟨if mode = 1 then 2 else 1, BitVec.ofNat 256 (leNat (r.take 32)), keySucc (s.slot i).gen, 0, s.keyBad⟩
  if s.armed uKeys 0xFF then s1.fire uKeys else s1

/-- KEY_LOAD (R326-R328); the host answers the read of the record. -/
def execKeyLoad (h : Nat) (host : HostIn) (s : State) : Host.Outcome State Fault Refusal :=
  .next (s.runCmd h 0x34 (fun t c =>
    t.checkedRun c [chkEnum (c.mode ≤ 1) 29, chkDes (t.rangePerm c.func false 0 c.src 64 false) 8, chkDes (c.select < 16) 28] (fun u0 =>
      let u := u0.unitFetch host c.func false 0 none c.src 64
      let rd := u.unitRead host c.func false 0 c.src 64
      let i := keyIndex c.func false c.select
      match rd.2.2 with
      | some a => u.refuse c stTimeout (a % 2 ^ 32)
      | none =>
        if rd.2.1 then u.refuse c stPoisoned 0
        else if !keyRecordOk c.mode rd.1 then u.refuse c stNotPermitted 8
        else
          let v := u.loadSlot i c.mode rd.1
          v.okay c (v.slot i).gen.toNat 0)))

/-- KEY_ERASE (R326, R329): it completes at once, or with the last scrub. -/
def execKeyErase (h : Nat) (s : State) : Host.Outcome State Fault Refusal :=
  .next (s.runCmd h 0x35 (fun t c =>
    t.checkedRun c [chkDes (c.select < 16) 28] (fun u =>
      let i := keyIndex c.func false c.select
      let v := u.eraseSlot i
      if v.slotBusy i then v.stage c .running else v.okay c (v.slot i).gen.toNat 0)))

end Sys2Proof.Machine
end

