-- ==== Sys2Proof/Machine/Admin.lean ====
section
/-! DEFINITION. Admin commands (Table 3.8): identity, logs, quotas, images, power, banks, faults, injection, self-test, gateway calls, hand-over, measurements, groups, links, service opcodes. -/

namespace Sys2Proof.Machine

/-- An item of Table 16.4 has changed and waits for the configuration record (R449). -/
def State.cfgChanged (s : State) : State := s.setMp (fun m => { m with cfgDirty := true })

/-! ## IDENTIFY, GET_LOG, SET_QUOTA, SET_EXPERT -/

/-- Lifecycle codes (TRU_LC.STATE, Table 13.7). -/
def Lc.code : Lc → Nat
  | .manufacture => 0 | .provision => 1 | .field => 2 | .service => 3 | .endState => 4

/-- IDENTIFY (Table 3.8). -/
def execIdentify (h : Nat) (s : State) : Host.Outcome State Fault Refusal :=
  .next (s.runAdmin h 0x00 (fun t c =>
    let sel := pkN c.pkt 8 1
    t.checkedRun c [chkEnum (sel ≤ 3) 8] (fun u =>
      if sel = 0 then u.okay c 0x9256 Config.siliconRevision.toNat
      else if sel = 1 then u.okay c (u.fn c.func).maxQp.toNat (u.fn c.func).tallyLimit.toNat
      else if sel = 2 then u.okay c u.deck.lc.code (b2n (u.fn c.func).expert)
      else u.okay c Config.mpFirmwareVersion.toNat 0)))

/-- The retained records a function may read, oldest first (R401). -/
def State.recordsFor (s : State) (f : Nat) : List Rec :=
  if isPf f then s.flt.log else s.flt.log.filter (fun r => r.func.toNat = f && !r.secure)

/-- Their bytes; a PF reads SECURE records masked (R401). -/
def State.recordBytes (s : State) (f : Nat) : List Byte := (s.recordsFor f).flatMap (fun r => r.bytes (isPf f))

/-- QM_FN_CLAMP as the function itself reads it (R49). -/
def State.clampSeen (s : State) (f : Nat) : Nat := if isPf f || (s.fn f).expert then (s.fn f).clamp.toNat else 0

/-- The bytes GET_LOG writes and its RESULT1 (Table 3.8). -/
def State.logBytes (s : State) (f id n : Nat) : List Byte × Nat :=
  if id = 0 then ((s.recordBytes f).take (n / 32 * 32), s.flt.lost.toNat)
  else if id = 1 then (leBytes (s.clampSeen f) 4, 0)
  else (leBytes (s.fn f).flrLog.toNat 4, 0)

/-- GET_LOG (Table 3.8, R401). -/
def execGetLog (h : Nat) (s : State) : Host.Outcome State Fault Refusal :=
  .next (s.runAdmin h 0x01 (fun t c =>
    let id := pkN c.pkt 16 1
    let n := pkN c.pkt 20 4
    let a := pkN c.pkt 8 8
    t.checkedRun c [chkEnum (id ≤ 2) 16, chkDes (t.rangePerm c.func false 0 a (max n 1) true) 8, chkDes (64 ≤ n && n ≤ 65536) 20] (fun u =>
      let l := u.logBytes c.func id n
      (u.unitStore c.func false 0 a l.1).okay c l.1.length l.2)))

/-- MAX_QP and TALLY_LIMIT of function f take clamped values; QUOTA_CHANGE is set where one changes (Tables 2.6, 2.9). -/
def State.setQuotaRegs (s : State) (f limit qp : Nat) : State :=
  let l : BitVec 21 := BitVec.ofNat 21 (min limit 1048576)
  let q : BitVec 4 := BitVec.ofNat 4 (min qp 8)
  let x := s.fn f
  if x.tallyLimit = l && x.maxQp = q then s
  else ((s.updFn f (fun y => { y with tallyLimit := l, maxQp := q })).setEvent f 1).cfgChanged

/-- SET_QUOTA (Tables 2.6, 3.8); the clamps count for the issuing PF (R76). -/
def execSetQuota (h : Nat) (s : State) : Host.Outcome State Fault Refusal :=
  .next (s.runAdmin h 0x02 (fun t c =>
    let f := pkN c.pkt 8 2
    let l := pkN c.pkt 12 4
    let q := pkN c.pkt 16 1
    t.checkedRun c [chkDes (1 ≤ f && f ≤ 256) 8] (fun u =>
      let n := clamped l (min l 1048576) + clamped q (min q 8)
      ((u.clampFn c.func n).setQuotaRegs f l q).okay { c with clamped := n ≠ 0 } 0 0)))

/-- EXPERT of function f (Tables 2.5, 2.9). -/
def State.setExpertReg (s : State) (f : Nat) (v : Bool) : State :=
  if (s.fn f).expert == v then s else ((s.updFn f (fun y => { y with expert := v })).setEvent f 2).cfgChanged

/-- SET_EXPERT (Table 3.8). -/
def execSetExpert (h : Nat) (s : State) : Host.Outcome State Fault Refusal :=
  .next (s.runAdmin h 0x03 (fun t c =>
    let f := pkN c.pkt 8 2
    let v := pkN c.pkt 10 1
    t.checkedRun c [chkEnum (v ≤ 1) 10, chkDes (1 ≤ f && f ≤ 256) 8] (fun u => (u.setExpertReg f (v = 1)).okay c 0 0)))

/-! ## Images (R208, R209, R390) -/

/-- The ENTRY word (Table 6.4). -/
def wordEntry : BitVec 14 := 0x3FD2

/-- 16-bit words of a byte list. -/
def words16 : List Byte → List Nat
  | a :: b :: r => (a.toNat + 256 * b.toNat) :: words16 r
  | _ => []

/-- The image a file encodes, if every check of R208 and R390 passes; `secOk`: SECURE is allowed; limits in words. -/
def parseImage (f : List Byte) (secOk : Bool) (pgm pgmNext : Nat) (sigOk : Bool) : Option Img :=
  let g := fun (o n : Nat) => leNat ((f.drop o).take n)
  let flags := g 6 1
  let base := g 8 2
  let nw := g 10 2
  let ne := g 12 2
  let trap := g 14 2
  let body := words16 ((f.drop 64).take (2 * ne + 2 * nw))
  let ents := body.take ne
  let ws := body.drop ne
  let sec : Bool := bitsOf flags 1 1 = 1
  let ok : Bool := g 0 4 = 0x544E5849 && g 4 2 = 1 && flags < 4 && g 7 1 = 0 && ((f.drop 16).take 48).all (fun b => b = 0) &&
    base ≤ 0x6FFF && 1 ≤ nw && nw ≤ 28672 && 1 ≤ ne && ne ≤ 4096 && (trap = 0xFFFF || trap < ne) &&
    f.length = 64 + 2 * ne + 2 * nw + 96 && ws.all (fun w => w < 2 ^ 14) && ents.all (fun e => e < nw && ws.getD e 0 = wordEntry.toNat) &&
    (!sec || secOk) && (if sec then base + nw ≤ pgmNext * 1024 else pgm * 1024 ≤ base) && base + nw ≤ 0x7000 && sigOk
  if ok then some ⟨flags % 2 = 1, sec, BitVec.ofNat 15 base, ents, BitVec.ofNat 16 trap, ws.map (BitVec.ofNat 14), f⟩ else none

/-- The signature of an image file verifies with the owner key (R208, R390; free value, log 10). -/
def State.imageSig (s : State) (f : List Byte) : Bool :=
  Config.signatureOk 1 (s.deck.ownerKey.getD []) (f.take (f.length - 96)) (f.drop (f.length - 96))

/-- The words of two images share an address. -/
def Img.meets (a b : Img) : Bool := a.base.toNat < b.base.toNat + b.words.length && b.base.toNat < a.base.toNat + a.words.length

/-- The image holds program word address a. -/
def Img.holds (x : Img) (a : Nat) : Bool := x.base.toNat ≤ a && a < x.base.toNat + x.words.length

/-- A dispatched program, or an entry that is not FREE, uses image h; `sel` limits the functions (R208, R209). -/
def State.imageUsed (s : State) (h : Nat) (x : Img) (sel : Nat → Bool) : Bool :=
  s.tly.entries.any (fun e => e.2.state != .free && sel e.2.func.toNat && e.2.opc = 5 &&
    (match Sp.look s.qm.work none e.1 with
      | some w => w.image = h
      | none => e.2.ckptValid && x.holds e.2.ckptPc.toNat)) ||
  s.eng.les.any (fun e => e.2.running && e.2.image = h && sel (s.entry (tidIdx e.2.tid)).func.toNat)

/-- The handles that a load of image x under handle h empties (R208). -/
def State.replaced (s : State) (h : Nat) (x : Img) : List Nat :=
  s.deck.images.filterMap (fun e => match e.2 with
    | some y => if e.1 = h || y.meets x then some e.1 else none
    | none => none)

/-- Program words of an image leave the program memories (R184, R208). -/
def State.dropWords (s : State) (x : Img) : State :=
  s.setEng (fun e => { e with prog := Sp.clear e.prog x.base.toNat (x.base.toNat + x.words.length) })

/-- Handles are emptied, with their bindings and words (R208). -/
def State.emptyHandles (s : State) (l : List Nat) : State :=
  l.foldl (fun t k =>
    let t1 := match Sp.look t.deck.images none k with | some y => t.dropWords y | none => t
    (t1.setDeck (fun d => { d with images := Sp.put d.images none k none, order := d.order.filter (fun j => j ≠ k) })).setMp
      (fun m => { m with binds := Sp.put m.binds 0 k 0 })) s

/-- IMAGE_LOAD up to the start of its load (R208, R390). -/
def State.imageLoad (s : State) (c : Cmd) (host : HostIn) : State :=
  let a := pkN c.pkt 8 8
  let n := pkN c.pkt 16 4
  let k := pkN c.pkt 20 2
  let claimed : Bool := match s.mp.load with | some (j, _, _) => j == k | none => false
  s.checkedRun c [chkDes (s.rangePerm c.func false 0 a (max n 1) false) 8, chkDes (64 ≤ n && n ≤ 131072) 16, chkDes (k ≤ 255 && !claimed) 20] (fun t0 =>
    let t := t0.unitFetch host c.func false 0 none a n
    let rd := t.unitRead host c.func false 0 a n
    match rd.2.2 with
    | some x => t.refuse c stTimeout (x % 2 ^ 32)
    | none =>
      if rd.2.1 then t.refuse c stPoisoned 0
      else match parseImage rd.1 (t.deck.lc == .provision || t.deck.lc == .service) t.tru.wm.pgm.toNat t.deck.wmNext.pgm.toNat (t.imageSig rd.1) with
        | none => t.refuse c stDenied 0
        | some x =>
          if x.secure then
            (t.stage c .running).setMp (fun m => { m with load := some (k, x, c.handle), undo := [], undoOrder := t.deck.order })
          else
            let gone := t.replaced k x
            if gone.any (fun j => match Sp.look t.deck.images none j with | some y => t.imageUsed j y (fun _ => true) | none => false) then
              t.refuse c stNotPermitted 20
            else (((t.emptyHandles gone).setMp (fun m => { m with
                binds := Sp.put m.binds 0 k 0, load := some (k, x, c.handle), undoOrder := t.deck.order
                undo := gone.filterMap (fun j => (Sp.look t.deck.images none j).map (fun y => (j, y, Sp.look t.mp.binds 0 j))) })).stage c .running).cfgChanged)

/-- IMAGE_LOAD (R208); one load writes at a time (R74, log 27). -/
def execImageLoad (h : Nat) (host : HostIn) (s : State) : Host.Outcome State Fault Refusal :=
  .next (s.runAdmin h 0x40 (fun t c =>
    let other : Bool := match t.mp.load with | some (j, _, _) => j != pkN c.pkt 20 2 | none => false
    if other then t else t.imageLoad c host))

/-- Write an image's words into program memory (R208). -/
def State.putWords (s : State) (x : Img) : State :=
  let put := fun (p : Sp (BitVec 14)) (w : Nat × BitVec 14) => Sp.put p 0x3FFE (x.base.toNat + w.1) w.2
  s.setEng (fun e => { e with prog := ((upTo x.words.length).zip x.words).foldl put e.prog })

/-- An IMAGE_LOAD that the MP has not finished has no effect: the images it had emptied, their words and bindings return (R74, R208). -/
def State.loadUndo (s : State) : State :=
  let back := fun (t : State) (x : Nat × Img × Nat) =>
    ((t.putWords x.2.1).setDeck (fun d => { d with images := Sp.put d.images none x.1 (some x.2.1) })).setMp (fun m => { m with binds := Sp.put m.binds 0 x.1 x.2.2 })
  ((s.mp.undo.foldl back s).setDeck (fun d => { d with order := s.mp.undoOrder })).setMp (fun m => { m with load := none, undo := [], undoOrder := [] })

/-- M := SHA-384(M ‖ SHA-384(data)) (R391). -/
def State.extend (s : State) (i : Nat) (data : List Byte) : State :=
  let m := leBytes (Sp.look s.tru.meas 0 i).toNat 48
  let v := sha384 (natsOf m ++ sha384 (natsOf data))
  s.setTru (fun t => { t with meas := Sp.put t.meas 0 i (BitVec.ofNat 384 (leNat (bytesOf v))) })

/-- IMAGE_LOAD_COMPLETE (R208, R390, R391): the image is in the Deck and in every program memory; a secure image waits for the next module reset. -/
def execImageLoadComplete (s : State) : Host.Outcome State Fault Refusal :=
  .next (s.when (s.live && !s.pwr.stop && s.mp.run = 0) (fun t => match t.mp.load with
    | none => t
    | some (k, x, h) =>
      let t1 := t.setMp (fun m => { m with load := none, undo := [], undoOrder := [] })
      let t2 :=
        if x.secure then t1.setDeck (fun d => { d with secImage := some x })
        else ((t1.putWords x).setDeck (fun d => { d with images := Sp.put d.images none k (some x), order := d.order ++ [k] })).extend 6 x.raw
      t2.finishH h stOk k 0))

/-- Functions that a binding number names: 0 both PFs. -/
def bindSel (n : Option Nat) (f : Nat) : Bool := match n with | none => false | some 0 => isPf f | some m => m = f

/-- IMAGE_BIND (R209). -/
def execImageBind (h : Nat) (s : State) : Host.Outcome State Fault Refusal :=
  .next (s.runAdmin h 0x41 (fun t c =>
    let k := pkN c.pkt 8 2
    let f := pkN c.pkt 10 2
    let used := match t.img k with
      | some x => t.imageUsed k x (fun g => bindSel (t.bindOf k) g || bindSel (some f) g)
      | none => false
    t.checkedRun c [chkDes (k ≤ 255 && (t.img k).isSome) 8, chkDes (f ≤ 256 && !used) 10] (fun u =>
      ((u.setMp (fun m => { m with binds := Sp.put m.binds 0 k (f + 1) })).cfgChanged).okay c 0 0)))

/-- IMAGE_INFO (R209). -/
def execImageInfo (h : Nat) (s : State) : Host.Outcome State Fault Refusal :=
  .next (s.runAdmin h 0x42 (fun t c =>
    let k := pkN c.pkt 8 2
    match (if isPf c.func then (if k ≤ 255 then t.img k else none) else t.imgFor c.func k) with
    | some x => t.okay c x.words.length (b2n x.forerunner + 2 * b2n x.secure)
    | none => t.refuse c stNotPermitted 8))

/-! ## Power and banks (R285, R417, R432) -/

/-- POWER_STATUS (R432). -/
def execPowerStatus (h : Nat) (s : State) : Host.Outcome State Fault Refusal :=
  .next (s.runAdmin h 0x50 (fun t c => t.okay c t.pwr.d.toNat t.pwr.envelope.toNat))

/-- SET_ENVELOPE (Table 3.8, R432): 350-650 W, rounded down to a multiple of 5. -/
def execSetEnvelope (h : Nat) (s : State) : Host.Outcome State Fault Refusal :=
  .next (s.runAdmin h 0x51 (fun t c =>
    let w := pkN c.pkt 8 4
    let v := clampN 350 650 w / 5 * 5
    let n := clamped w v
    (((t.clampFn c.func n).setPwr (fun p => { p with envelope := BitVec.ofNat 10 v })).cfgChanged).okay { c with clamped := n ≠ 0 } 0 0))

/-- A background bank test that meets a BANK_STATE is abandoned (R418): one remap, the spare is OFF again; it counts neither way. -/
def State.abandonBankTest (s : State) (c b : Nat) : State :=
  match (s.memCl c).test with
  | some x =>
    if x.bank = b || x.spare = some b then
      let s1 := (s.updMem c (fun m => { m with test := none, remap := Sp.put m.remap x.bank x.bank x.bank, remapAt := x.spare.map (fun _ => (x.bank, s.tick)) })).releaseGrant 8
        (whoTest (uBank c x.bank))
      match x.spare with | some p => s1.zeroBank c p | none => s1
    else s
  | none => s

/-- A BANK_STATE that has passed its checks: a background test of the bank is abandoned (R418), and the change, under the cluster's MEMORY grant (R427), and the command wait for its completion (R285). -/
def State.bankRequest (s : State) (c : Cmd) (k b v : Nat) : State :=
  (((s.abandonBankTest k b).updMem k (fun m => { m with bankWait := m.bankWait ++ [(b, BitVec.ofNat 2 v, c.handle)] })).memTake k).stage c .running

/-- BANK_STATE (R285, R373, R377, R417, R418). -/
def execBankState (h : Nat) (s : State) : Host.Outcome State Fault Refusal :=
  .next (s.runAdmin h 0x52 (fun t c =>
    let k := pkN c.pkt 8 1
    let b := pkN c.pkt 9 1
    let v := pkN c.pkt 10 1
    t.checkedRun c [chkEnum (v ≤ 2) 10, chkDes (k ≤ 15) 8, chkDes (b ≤ 15) 9] (fun u =>
      if u.secBlock (0x300 + k) then (u.refuse377 c.func (uBank k b)).refuse c stDenied 0
      else if v = 0 && (u.memCl k).bankBad.contains b then
        u.refuse c stDeviceFault (u.recIndex (fun r => r.kind = 0x28 && r.source.toNat = uBank k b))
      else u.bankRequest c k b v)))

/-! ## Faults (R401, R406, R407) -/

/-- The blaze as a function reads it (R401). -/
def State.blazeFor (s : State) (f : Nat) : Option Rec :=
  match s.flt.blaze with
  | some r => if isPf f || (r.func.toNat = f && !r.secure) then some r else none
  | none => none

/-- FAULT_READ (R401). -/
def execFaultRead (h : Nat) (s : State) : Host.Outcome State Fault Refusal :=
  .next (s.runAdmin h 0x60 (fun t c =>
    let a := pkN c.pkt 8 8
    let sc := pkN c.pkt 16 1
    t.checkedRun c [chkEnum (sc ≤ 1) 16, chkDes (t.rangePerm c.func false 0 a (if sc = 0 then 32 else 32768) true) 8] (fun u =>
      if sc = 0 then
        match u.blazeFor c.func with
        | some r => (u.unitStore c.func false 0 a (r.bytes (isPf c.func))).okay c 1 0
        | none => u.okay c 0 0
      else
        (u.unitStore c.func false 0 a (u.recordBytes c.func)).okay c (u.recordsFor c.func).length u.flt.lost.toNat)))

/-- Exit mode and quiet period of class k (R406). -/
def State.setExit (s : State) (k : Nat) (hold : Bool) (q : Nat) : State :=
  (s.setFlt (fun f => { f with
    hold := BitVec.ofNat 3 (putBits f.hold.toNat (k - 1) 1 (b2n hold)), quiet := Sp.put f.quiet 10 k (BitVec.ofNat 12 q) })).cfgChanged

/-- FAULT_MODE (R406, R407). -/
def execFaultMode (h : Nat) (s : State) : Host.Outcome State Fault Refusal :=
  .next (s.runAdmin h 0x61 (fun t c =>
    let k := pkN c.pkt 8 1
    let x := pkN c.pkt 9 1
    let q := pkN c.pkt 12 4
    let q1 := clampN 1 3600 q
    t.checkedRun c [chkEnum (1 ≤ k && k ≤ 3) 8, chkEnum (x ≤ 1) 9] (fun u =>
      ((u.clampFn c.func (clamped q q1)).setExit k (x = 1) q1).okay { c with clamped := q ≠ q1 } 0 0)))

/-! ## Injection and self-test (R396, R410-R419) -/

/-- A designator of Table 14.2, without the whole module. -/
def isUnit (u : Nat) : Bool :=
  (0x100 ≤ u && u ≤ 0x13F) || (0x200 ≤ u && u ≤ 0x23F) || (0x1000 ≤ u && u ≤ 0x108F) || (0x1100 ≤ u && u ≤ 0x11FF) ||
    (0x1200 ≤ u && u ≤ 0x120F) || (0x1300 ≤ u && u ≤ 0x130F) || (0x1400 ≤ u && u ≤ 0x14FF) || (0x1500 ≤ u && u ≤ 0x1503) || (0x1600 ≤ u && u ≤ 0x1605)

/-- Mask bits Table 14.6 uses for a unit. -/
def injUsed (u : Nat) : Nat :=
  if 0x1000 ≤ u && u ≤ 0x108F then 0x10301
  else if (0x1100 ≤ u && u ≤ 0x120F) || u = uKeys then 0xFF
  else if (0x1400 ≤ u && u ≤ 0x14FF) || (0x1500 ≤ u && u ≤ 0x1503) then 0xFFFFFFFF
  else 1

/-- The mask is acceptable for the unit (R411): a used bit, no more than two check bits of one word (symbols of a Landing sector), one row of Table 14.6 (DEDUCED, log 28). -/
def injMaskOk (u m0 : Nat) : Bool :=
  let m := m0 &&& injUsed u
  m ≠ 0 &&
  (if 0x1000 ≤ u && u ≤ 0x108F then (m = 1 || m = 0x10000 || (m &&& 0x10001) = 0)
   else if 0x1500 ≤ u && u ≤ 0x1503 then symbols m ≤ 2
   else popc 32 m ≤ 2)

/-- The unit is retired (R412). -/
def State.unitRetired (s : State) (u : Nat) : Bool :=
  if 0x1000 ≤ u && u ≤ 0x108F then (s.pe (u - 0x1000)).role == .retired
  else if 0x100 ≤ u && u ≤ 0x13F then (s.grp (u - 0x100)).retired
  else if 0x200 ≤ u && u ≤ 0x23F then (s.coder (u - 0x200)).retired
  else false

/-- The checks of an injection by a PF (R411, R412). -/
def injChecks (s : State) (u m : Nat) : List Chk :=
  [chkDes (isUnit u && u ≠ uTally && u ≠ uDeck && u ≠ uHost && u ≠ uTru && !s.flt.inj.any (fun j => j.unit.toNat = u) && !s.unitRetired u) 8,
   chkDes (injMaskOk u m) 12]

/-- Arm an inversion (R410). -/
def State.arm (s : State) (u m : Nat) (h : Option Nat) : State :=
  s.setFlt (fun f => { f with inj := f.inj ++ [⟨BitVec.ofNat 16 u, BitVec.ofNat 32 (m &&& injUsed u), h, s.tick, false, 0, f.injSeq⟩] })

/-- INJECT (R410-R412). -/
def execInject (h : Nat) (s : State) : Host.Outcome State Fault Refusal :=
  .next (s.runAdmin h 0x62 (fun t c =>
    let u := pkN c.pkt 8 2
    let m := pkN c.pkt 12 4
    t.checkedRun c (injChecks t u m) (fun v =>
      if v.secUnit u then (v.refuse377 c.func u).refuse c stDenied 0
      else (v.arm u m (some c.handle)).stage c .running)))

/-- The physical engine of cluster c that holds the spare role (R15, R250). -/
def State.spareOf (s : State) (c : Nat) : Option Nat := ((upTo 9).map (fun k => 9 * c + k)).find? (fun n => (s.pe n).role == .spare)

/-- The spare serves as referee or migration target of an engine of its cluster (R250, R415). -/
def State.spareServes (s : State) (c : Nat) : Bool :=
  (upTo 9).any (fun k => (s.pe (9 * c + k)).referee || (s.pe (9 * c + k)).migrating)

/-- How R415 tests bank b of cluster c: none: skipped; some none: in place; some (some p): by remap to spare p. -/
def State.bankPlan (s : State) (c b : Nat) : Option (Option Nat) :=
  let m := s.memCl c
  if m.bankBad.contains b || m.serving b ≠ b then none
  else if s.bankState c b = 2 then some none
  else if s.bankState c b = 0 then
    match (upTo 16).find? (fun p => p ≠ b && s.bankState c p = 2 && !m.bankBad.contains p) with
    | some p => some (some p)
    | none => none
  else none

/-- No background test runs in cluster c (R415). -/
def State.testFree (s : State) (c : Nat) : Bool := (s.memCl c).test.isNone && (s.memCl c).engTest.isNone

/-- A bank test begins (R416): copying, under the cluster's MEMORY grant (R427), or testing in place. -/
def State.startBankTest (s : State) (c b : Nat) (p : Option Nat) (h : Option Nat) : State :=
  let s1 := s.updMem c (fun m => { m with test := some ⟨b, p, if p.isSome then 1 else 2, false, h⟩ })
  if p.isSome then s1.memTake c else s1

/-- SELFTEST of scope 0 (R419): the unit may be tested. -/
def State.bgTestable (s : State) (u : Nat) : Bool :=
  if 0x1100 ≤ u && u ≤ 0x11FF then (s.bankPlan ((u - 0x1100) / 16) ((u - 0x1100) % 16)).isSome
  else if 0x1000 ≤ u && u ≤ 0x108F then s.spareOf ((u - 0x1000) / 9) = some (u - 0x1000) && !s.spareServes ((u - 0x1000) / 9)
  else false

/-- SELFTEST of scope 0 starts at once under its TEST grant, or waits for the grant or for the test of the cluster that runs (R419, R429). -/
def State.bgSelftest (s : State) (c : Cmd) (u : Nat) : State :=
  let s0 := s.stage c .running
  let s1 := s0.askGrant 8 1 (whoTest u)
  if !s1.hasGrant 8 (whoTest u) then s1
  else if u < 0x1100 then
    let k := (u - 0x1000) / 9
    if s1.testFree k then s1.updMem k (fun m => { m with engTest := some (some c.handle) }) else s1
  else
    let k := (u - 0x1100) / 16
    let b := (u - 0x1100) % 16
    if s1.testFree k then match s1.bankPlan k b with | some p => s1.startBankTest k b p (some c.handle) | none => s1 else s1

/-- The precondition of a full self-test (Table 14.9). -/
def State.fullTestable (s : State) (u : Nat) : Bool :=
  if 0x1000 ≤ u && u ≤ 0x108F then (s.pe (u - 0x1000)).role != .active
  else if 0x1100 ≤ u && u ≤ 0x11FF then s.bankState ((u - 0x1100) / 16) ((u - 0x1100) % 16) = 2
  else if 0x1200 ≤ u && u ≤ 0x120F then (s.memCl (u - 0x1200)).l2State = 0
  else if 0x1400 ≤ u && u ≤ 0x14FF then !(s.link (u - 0x1400)).cfg.enable
  else if u = 0xFFFF then
    s.tly.entries.all (fun e => e.2.state == .free) && s.qm.queues.all (fun q => !q.2.enable || (isPf (q.1 / 9) && q.1 % 9 = 0))
  else (0x100 ≤ u && u ≤ 0x13F) || (0x200 ≤ u && u ≤ 0x23F)

/-- SELFTEST (R377, R414, R419); MODE_NOT_AVAILABLE is decided before the precondition of the unit (DESIGN CHOICE, log 94). -/
def execSelftest (h : Nat) (s : State) : Host.Outcome State Fault Refusal :=
  .next (s.runAdmin h 0x63 (fun t c =>
    let sc := pkN c.pkt 8 1
    let u := pkN c.pkt 9 2
    t.checkedRun c [chkEnum (sc = 0 || (sc = 1 && c.expert)) 8, chkDes (isUnit u || (sc = 1 && u = 0xFFFF)) 9,
        (sc = 0 || lcService t.deck.lc, stMode, 0)] (fun v =>
      if v.secUnit u then (v.refuse377 c.func u).refuse c stDenied 0
      else if sc = 0 then v.checkedRun c [chkDes (v.bgTestable u) 9] (fun w => w.bgSelftest c u)
      else v.checkedRun c [chkDes (v.fullTestable u && !v.underTest u) 9] (fun w =>
        (w.stage c .running).setFlt (fun f => { f with selftests := f.selftests ++ [(BitVec.ofNat 16 u, c.handle)] })))))

/-! ## Worlds (R378-R382, R391) -/

/-- A secure-owned logical engine is in service (R382). -/
def State.secEngines (s : State) : Bool := (upTo 16).any (fun c => s.clHas true c)

/-- GATEWAY_CALL (R382): it goes to step 9. -/
def execGatewayCall (h : Nat) (s : State) : Host.Outcome State Fault Refusal :=
  .next (s.runAdmin h 0x70 (fun t c =>
    t.checkedRun c [(t.tru.secState = 1, stDenied, 0), chkDes (pkN c.pkt 8 2 < t.tru.gates.toNat) 8,
      (t.secEngines, stDeviceFault, t.recIndex (fun r => r.kind = 0x30))] (fun u => u.stage c .alloc)))

/-- A dynamic block of Table 13.2. -/
def isDynamic (d : Nat) : Bool := d < 0x80 || (0x100 ≤ d && d < 0x140) || (0x200 ≤ d && d < 0x240) || (0x300 ≤ d && d < 0x310)

/-- HANDOVER (R378-R380). -/
def execHandover (h : Nat) (s : State) : Host.Outcome State Fault Refusal :=
  .next (s.runAdmin h 0x71 (fun t c =>
    let d := pkN c.pkt 8 2
    let dir := pkN c.pkt 10 1
    let scr := t.tru.wm.scr.toNat
    let lone : Bool := !(0x300 ≤ d && d < 0x310) || d - 0x300 + (if dir = 0 then 1 else 0) = scr
    t.checkedRun c [chkEnum (dir ≤ 1) 10, chkDes (isDynamic d || (0x400 ≤ d && d ≤ 0x403)) 8, (isDynamic d, stDenied, 0), chkDes lone 8] (fun u =>
      if u.secBlock d == (dir = 1) then u.okay c 0 0
      else if dir = 1 && u.tru.secState ≠ 1 then u.refuse c stDenied 0
      else (u.stage c .running).setTru (fun x => { x with pending := x.pending ++ [⟨BitVec.ofNat 16 d, dir = 1, dir = 1, c.handle, u.tick⟩] }))))

/-- MEASURE_GET (R391). -/
def execMeasureGet (h : Nat) (s : State) : Host.Outcome State Fault Refusal :=
  .next (s.runAdmin h 0x72 (fun t c =>
    let i := pkN c.pkt 8 1
    let a := pkN c.pkt 16 8
    t.checkedRun c [chkDes (i ≤ 31) 8, chkDes (t.rangePerm c.func false 0 a 48 true) 16] (fun u =>
      (u.unitStore c.func false 0 a (u.measBytes i)).okay c 0 0)))

/-! ## Groups and links (R24, R160, R170) -/

/-- Field j of the four link fields of GROUP_CREATE. -/
def linkField (c : Cmd) (j : Nat) : Nat := pkN c.pkt (10 + 2 * j) 2

/-- Link field j is acceptable: a link once, serving no group of another partner (R160). -/
def State.linkOk (s : State) (c : Cmd) (j : Nat) : Bool :=
  let l := linkField c j
  l = 0xFFFF || (l < 256 && (upTo j).all (fun k => linkField c k ≠ l) &&
    s.ch.groups.all (fun g => !g.2.has l || g.2.partner.toNat = pkN c.pkt 18 2))

/-- A slot of CH_GRP_LINKS (Table 5.17). -/
def slotOf (v : Nat) : BitVec 9 := if v = 0xFFFF then 0 else BitVec.ofNat 9 (0x100 + v)

/-- The group that GROUP_CREATE makes (R24, R160). -/
def newGroup (c : Cmd) : Group :=
  let used := ((upTo 4).map (linkField c)).filter (fun l => l ≠ 0xFFFF)
  let low := used.foldl min 0xFFFF
  { valid := true, owner := BitVec.ofNat 4 (if c.expert then pkN c.pkt 20 1 else low / 16), func := 0x1FF
    partner := BitVec.ofNat 16 (pkN c.pkt 18 2), s0 := slotOf (linkField c 0), s1 := slotOf (linkField c 1)
    s2 := slotOf (linkField c 2), s3 := slotOf (linkField c 3) }

/-- GROUP_CREATE (R160). -/
def execGroupCreate (h : Nat) (s : State) : Host.Outcome State Fault Refusal :=
  .next (s.runAdmin h 0x80 (fun t c =>
    let g := pkN c.pkt 8 2
    t.checkedRun c ([chkDes (g ≤ 1023 && !(t.group g).valid) 8] ++ (upTo 4).map (fun j => chkDes (t.linkOk c j) (10 + 2 * j)) ++
        [chkDes ((upTo 4).any (fun j => linkField c j ≠ 0xFFFF)) 10, chkDes (!c.expert || pkN c.pkt 20 1 ≤ 15) 20]) (fun u =>
      ((u.setGroup g (newGroup c)).cfgChanged).okay c 0 0)))

/-- An entry that is not FREE names group g (Table 3.8). -/
def State.groupUsed (s : State) (g : Nat) : Bool := s.tly.entries.any (fun e => e.2.state != .free && e.2.namesGroup g)

/-- GROUP_DELETE (Table 3.8). -/
def execGroupDelete (h : Nat) (s : State) : Host.Outcome State Fault Refusal :=
  .next (s.runAdmin h 0x81 (fun t c =>
    let g := pkN c.pkt 8 2
    t.checkedRun c [chkDes (g ≤ 1023 && (t.group g).valid && !t.groupUsed g) 8] (fun u =>
      ((u.setGroup g Group.init).cfgChanged).okay c 0 0)))

/-- GROUP_ASSIGN (Table 3.8): function 0 assigns to both PFs. -/
def execGroupAssign (h : Nat) (s : State) : Host.Outcome State Fault Refusal :=
  .next (s.runAdmin h 0x82 (fun t c =>
    let g := pkN c.pkt 8 2
    let f := pkN c.pkt 10 2
    t.checkedRun c [chkDes (g ≤ 1023 && (t.group g).valid) 8, chkDes (f ≤ 256) 10] (fun u =>
      ((u.setGroup g { u.group g with func := BitVec.ofNat 9 f }).cfgChanged).okay c 0 0)))

/-- Link state codes (Table 5.6). -/
def LState.code : LState → Nat
  | .disabled => 0 | .training => 1 | .probing => 2 | .up => 3 | .down => 4

/-- CH_LINK_STATUS (Table 5.15). -/
def State.linkStatus (s : State) (l : Nat) : Nat :=
  let x := s.link l
  fields [(0, x.state.code), (4, x.downCause.toNat), (8, b2n x.miswire), (9, b2n (s.ch.lref.getLsbD (l / 16) && s.monitored)), (10, b2n x.blockLock),
    (11, b2n x.fecLock), (16, x.seen.toNat)]

/-- LINK_STATUS (Table 3.8, R170). -/
def execLinkStatus (h : Nat) (s : State) : Host.Outcome State Fault Refusal :=
  .next (s.runAdmin h 0x83 (fun t c =>
    let l := pkN c.pkt 8 2
    t.checkedRun c [chkDes (l ≤ 255 && (isPf c.func || t.ch.groups.any (fun g => g.2.has l && g.2.func.toNat = c.func))) 8] (fun u =>
      u.okay c (u.linkStatus l) (Sp.look (u.link l).cnt 0 0).toNat)))

/-! ## Service opcodes (R77, R240, R389) -/

/-- A service operation with an effect the manual names (R77, Table 13.5, R240). -/
def State.serviceEffect (s : State) (c : Cmd) (op : ServiceOp) : State :=
  match op with
  | .toProvision =>
    if s.deck.lc == .manufacture then (s.setDeck (fun d => { d with lcNext := some .provision })).okay c 0 0
    else (s.repF uTru 0x02 c.func 0x280010).refuse c stNotPermitted 0
  | .toEnd =>
    if s.deck.lc == .manufacture then (s.setDeck (fun d => { d with lcNext := some .endState })).okay c 0 0
    else (s.repF uTru 0x02 c.func 0x280010).refuse c stNotPermitted 0
  | .patch f => (s.setDeck (fun d => { d with patch := some f })).okay c 0 0
  | .other => s

/-- SERVICE_OPCODE (R77): a service operation that the manual does not publish is refused by name. -/
def execServiceOpcode (h : Nat) (op : ServiceOp) (s : State) : Host.Outcome State Fault Refusal :=
  match s.cmd h with
  | none => .next s
  | some c =>
    if 0xF0 ≤ c.opcode && c.stage == .checked && s.nextUp c && s.on && !s.pwr.stop && s.mp.run = 0 && !s.flt.grave then
      if op = .other then .refused .unpublishedService else .next (s.serviceEffect c op)
    else .next s

end Sys2Proof.Machine
end

