-- ==== Sys2Proof/Machine/Tally.lean ====
section
/-! DEFINITION. The Tally's timers, notes, checkpoints, restore and resolution of in-doubt TIDs (R106, R117, R126-R138, R383). -/

namespace Sys2Proof.Machine

/-! ## Holds, guard, notes (R106, R117, R127, R129) -/

/-- REUSE_HOLD_EXPIRY (R106): the reuse hold of a freed index has elapsed. -/
def execReuseHoldExpiry (i : TlyIx) (s : State) : Host.Outcome State Fault Refusal :=
  .next (s.when (s.on && s.tly.freed.any (fun x => x.1 = i.val && x.2.1 ≤ s.tick && !x.2.2)) (fun t =>
    t.setTly (fun y => { y with freed := y.freed.map (fun x => if x.1 = i.val then (x.1, x.2.1, true) else x) })))

/-- The start of the last completed checkpoint is 1,000 × REUSE_HOLD or more ago (R127). -/
def State.guardDue (s : State) : Bool := s.tly.lastCkpt + 1000 * us s.tly.reuseHold.toNat ≤ s.tick

/-- CHECKPOINT_GUARD_EXPIRY (R127). -/
def execCheckpointGuardExpiry (s : State) : Host.Outcome State Fault Refusal :=
  .next (s.when (s.on && s.start.loaded && !s.tly.guard && s.guardDue) (fun t => t.setTly (fun y => { y with guard := true })))

/-- ABORT_NOTE_DELAY_EXPIRY (R117): 200 µs after entry to ABORTED with an outcome still pending. -/
def execAbortNoteDelayExpiry (i : TlyIx) (s : State) : Host.Outcome State Fault Refusal :=
  let due := Sp.look s.tly.noteDue 0 i.val
  .next (s.when (s.live && !s.tly.stopped && due ≠ 0 && due ≤ s.tick) (fun t =>
    let t1 := t.setTly (fun y => { y with noteDue := Sp.put y.noteDue 0 i.val 0 })
    if (t.entry i.val).state = TState.aborted ∧ (t.entry i.val).outPend ≠ 0 then t1.addNote i.val false else t1))

/-- Notes in the ring (R123, Table 4.8). -/
def State.notesUsed (s : State) : Nat := s.deck.notes.countP (fun n => n.written)

/-- The note of index i that waits for the Deck. -/
def State.waitingNote (s : State) (i : Nat) : Option Note := s.deck.notes.find? (fun n => !n.written && tidIdx n.tid = i)

/-- The note is in the Deck: NOTED is set, and the final completion may fall due (R116, R117). -/
def State.writeNote (s : State) (n : Note) : State :=
  let i := tidIdx n.tid
  let s1 := s.setDeck (fun d => { d with notes := d.notes.map (fun x => if x = n then { x with written := true } else x) })
  if s1.tidLive n.tid then (s1.updEntry i (fun e => { e with noted := true })).dueCheck i else s1

/-- NOTE_WRITTEN (R117): it waits while the ring is full or the supply monitor stops Deck writes. -/
def execNoteWritten (i : TlyIx) (s : State) : Host.Outcome State Fault Refusal :=
  .next (s.when (s.live && !s.tly.stopped && !s.pwr.stop && s.notesUsed < 65536) (fun t =>
    match t.waitingNote i.val with
    | some n => t.writeNote n
    | none => t))

/-! ## Checkpoints (R126, R127) -/

/-- SEQ of an image, 0 for none. -/
def imgSeq : Option Image → Nat
  | some i => i.seq
  | none => 0

/-- The checkpoint reads the next n entries in index order, each by one entry operation, as they now stand (R126, log 29). -/
def State.ckptRead (s : State) (r : CkptRun) (n : Nat) : CkptRun :=
  let now := s.image .checkpoint false
  let top := min 1048576 (r.pos + n)
  let due := fun (i : Nat) => r.pos ≤ i && i < top
  { r with
    pos := top
    image := { r.image with gens := r.image.gens ++ now.gens.filter (fun x => due x.1), entries := r.image.entries ++ now.entries.filter (fun x => due x.1) } }

/-- A TICK passes (log 2): a running checkpoint reads some entries, unless it pauses (R126, R436). -/
def State.tock (s : State) : State :=
  let t := { s with tick := s.tick + 1 }
  match s.tly.ckpt with
  | some r =>
    if s.live && !s.tly.stopped && !s.pwr.stop then
      t.setTly (fun y => { y with ckpt := some (s.ckptRead r (Config.ckptPace r.image.seq (s.tick - r.began))) })
    else t
  | none => t

/-- A checkpoint starts: it takes the next SEQ, and no entry has been read (R126). -/
def State.ckptStart (s : State) : State :=
  let run : CkptRun := ⟨imgSeq s.deck.ckptB < imgSeq s.deck.ckptA, s.tick, 0, { s.image .checkpoint false with gens := [], entries := [] }⟩
  (s.setTly (fun y => { y with ckpt := some run, nextCkpt := s.tick + ms y.ckptPeriod.toNat })).setDeck (fun d => { d with seq := d.seq + 1 })

/-- A checkpoint completes: the rest of the entries is read, its header is written, CKPT_COUNT advances, the guard ends, and the commit notes whose entries had become FREE before it began are freed (R117, R126, R127). -/
def State.ckptEnd (s : State) (r : CkptRun) : State :=
  let im := (s.ckptRead r 1048576).image
  let keep := fun (n : Note) => match n.freedAt with | some t => !(n.commit && t < r.began) | none => true
  (s.setTly (fun y => { y with ckpt := none, ckptCount := (y.ckptCount + 1) % 65536, lastCkpt := r.began, guard := false })).setDeck (fun d =>
    { d with
      ckptA := if r.toB then d.ckptA else some im
      ckptB := if r.toB then some im else d.ckptB
      notes := d.notes.filter keep })

/-- CHECKPOINT_START (R126). -/
def execCheckpointStart (s : State) : Host.Outcome State Fault Refusal :=
  .next (s.when (s.live && !s.tly.stopped && s.isReady && s.tly.ckpt.isNone && s.tly.nextCkpt ≤ s.tick) State.ckptStart)

/-- CHECKPOINT_COMPLETE (R126): not while the supply monitor stops Deck writes. -/
def execCheckpointComplete (s : State) : Host.Outcome State Fault Refusal :=
  .next (s.when (s.live && !s.tly.stopped && !s.pwr.stop) (fun t => match t.tly.ckpt with
    | some r => t.ckptEnd r
    | none => t))

/-! ## Restore records (R132, R138) -/

/-- A restore record joins the log, or waits behind those that wait (R132, R138). -/
def State.addRec (s : State) (r : RRec) : State :=
  s.setTly (fun y => if y.rlogWait.isEmpty && y.rlog.length < 131072 then { y with rlog := y.rlog ++ [r] } else { y with rlogWait := y.rlogWait ++ [r] })

/-- The log has no room: decisions wait (R138). -/
def State.rlogFull (s : State) : Bool := !s.tly.rlogWait.isEmpty || 131072 ≤ s.tly.rlog.length

/-- A restore record of a TID (Table 4.16). -/
def State.record (s : State) (t : W32) (f : BitVec 9) (kind status r0 r1 : Nat) : State :=
  s.addRec ⟨t, f, BitVec.ofNat 8 kind, BitVec.ofNat 8 status, BitVec.ofNat 32 r0, BitVec.ofNat 32 r1⟩

/-! ## Resolution (R133-R135, Table 4.15) -/

/-- What a decision rests on: the note, the recorded state, the reports (Table 4.15). None: row 6. -/
def State.verdict (s : State) (d : InDoubt) : Option Bool :=
  let live := s.tidLive d.tid
  let st := (s.entry (tidIdx d.tid)).state
  let code := fun (g : Nat) => (d.reports.find? (fun r => r.1 = g)).map (fun r => r.2)
  if s.hasNote d.tid false || (live && st == .aborted) then some false
  else if (live && (st == .committed || st == .complete)) || s.hasNote d.tid true || d.reports.any (fun r => r.2 = 1) then some true
  else if d.reports.any (fun r => r.2 = 2) then some false
  else if !d.groups.isEmpty && d.groups.all (fun g => code g = some 3) then some true
  else if d.groups.isEmpty || d.groups.any (fun g => code g = some 4 || code g = some 5) then some false
  else none

/-- The groups of an entry reported acknowledged (R135): DATA_COMPLETE or the commit outcome. -/
def ackedSlots (e : Entry) (d : InDoubt) : Nat :=
  fields ((upTo 3).map (fun g => (g, b2n (e.names g && d.reports.any (fun r => r.1 = e.grp g && (r.2 = 3 || r.2 = 1))))))

/-- The decision of a TID without an entry (R135): outcome frames without an OUT_PEND bit, restore record KIND 5 or 6. -/
def State.decideLost (s : State) (d : InDoubt) (commit : Bool) : State :=
  let s1 := s.setTly (fun y => { y with decided := y.decided ++ [(d.tid, commit)] })
  let s2 := (d.groups.zip (upTo d.groups.length)).foldl (fun (t : State) (x : Nat × Nat) =>
    t.addMsg ⟨d.tid, x.2, BitVec.ofNat 10 x.1, d.func, if commit then 8 else 9, 0, t.tick, false, false⟩ 0) s1
  s2.record d.tid d.func (if commit then 5 else 6) 0 0 0

/-- The decision of a STALE entry (R135, R383). -/
def State.decideStale (s : State) (d : InDoubt) (commit : Bool) : State :=
  let i := tidIdx d.tid
  let sec := s.secIdx i
  let acked := ackedSlots (s.entry i) d
  let s1 := s.updEntry i (fun e => { e with stale := false, outPend := e.reqMask, posted := sec, consumed := sec })
  if commit then
    let s2 := (s1.updEntry i (fun e => { e with noted := e.noted || s.hasNote d.tid true })).commitEntry i 0 (BitVec.ofNat 32 (acked <<< 16))
    let s3 := if sec then (s2.updEntry i (fun e => { e with state := .complete })).freeCheck i else s2
    s3.record d.tid d.func 3 stOk 0 (acked <<< 16)
  else
    let s2 := (s1.updEntry i (fun e => { e with noted := e.noted || s.hasNote d.tid false })).abortEntry i stAborted 0 false
    s2.record d.tid d.func 4 stAborted 0 0

/-- Decide a TID in doubt as soon as a row applies and the log has room (R134, R138). -/
def State.resolve (s : State) (t : W32) : State :=
  match s.tly.inDoubt.find? (fun d => d.tid = t) with
  | none => s
  | some d =>
    if s.rlogFull || s.tly.stopped then s
    else match s.verdict d with
      | none => s
      | some c =>
        let s1 := s.setTly (fun y => { y with
          inDoubt := y.inDoubt.filter (fun x => x.tid != t), outMsgs := y.outMsgs.filter (fun m => !(m.tid = t && m.type = 7)) })
        if s.tidLive t then s1.decideStale d c else s1.decideLost d c

/-- Every TID in doubt that can be decided (R134). -/
def State.resolveAll (s : State) : State := (s.tly.inDoubt.map (fun d => d.tid)).foldl State.resolve s

/-- A partner's report about a TID (R134, R165): kept for a TID in doubt; a TID of an open window joins them with the report's group list and TENANT. -/
def State.partnerReport (s : State) (t : W32) (group code : Nat) (glist : List Nat) (tenant : BitVec 9) : State :=
  let known := s.tly.inDoubt.any (fun d => d.tid = t)
  let fresh := !known && s.inWindow t && !s.tly.decided.any (fun d => d.1 = t)
  if !known && !fresh then s
  else
    let s1 := if known then s else s.setTly (fun y => { y with
      inDoubt := y.inDoubt ++ [⟨t, glist.filter (fun g => g ≠ 0xFFFF), tenant, [], s.tick, false⟩] })
    let s2 := s1.setTly (fun y => { y with
      inDoubt := y.inDoubt.map (fun d => if d.tid = t then { d with reports := (group, code) :: d.reports.filter (fun r => r.1 ≠ group) } else d) })
    let s3 := s2.setDeck (fun d => { d with doubt := d.doubt.map (fun w => { w with lastReport := s.tick }) })
    s3.resolve t

/-- RESOLVE_WAIT_EXPIRY (R134): logged once, and the decision goes on waiting. -/
def execResolveWaitExpiry (tid : W32) (s : State) : Host.Outcome State Fault Refusal :=
  .next (s.when (s.on && s.tly.inDoubt.any (fun d => d.tid = tid && !d.logged && d.since + ms s.tly.resolveWait.toNat ≤ s.tick)) (fun t =>
    match t.tly.inDoubt.find? (fun d => d.tid = tid) with
    | none => t
    | some d =>
      (t.setTly (fun y => { y with inDoubt := y.inDoubt.map (fun x => if x.tid = tid then { x with logged := true } else x) })).repT
        uTally 0x06 tid d.func.toNat 0 false (d.func = 0x1FF)))

/-- Indices a table withholds. -/
def Doubt.withheld (d : Doubt) : Nat :=
  d.wins.countP (fun w => w.2.withheld) + (if d.base.withheld then 1048576 - d.wins.length else 0)

/-- The doubt table may close (R137). -/
def State.mayClose (s : State) (d : Doubt) : Bool :=
  s.tly.inDoubt.isEmpty && d.lastReport + ms s.tly.resolveWait.toNat ≤ s.tick && d.since + 2 * ms s.ch.frameLife.toNat ≤ s.tick &&
    s.ch.groups.all (fun g => !g.2.valid || d.groupsSeen.contains g.1)

/-- DOUBT_TABLE_CLOSE (R137): the indices it withheld are looked for again (R107). -/
def execDoubtTableClose (s : State) : Host.Outcome State Fault Refusal :=
  .next (s.when (s.live && !s.pwr.stop && (match s.deck.doubt with | some d => s.mayClose d | none => false)) (fun t =>
    (t.setDeck (fun d => { d with doubt := none })).setTly (fun y => { y with
      virgin := if (t.deck.doubt.map Doubt.withheld).getD 0 = 0 then y.virgin else [] })))

/-- TLY_RLOG_NEXT (R138): the current record goes; one that waits is made, and decisions that waited are taken. -/
def State.rlogNext (s : State) : State :=
  let s1 := s.setTly (fun y =>
    let l := y.rlog.drop 1
    if l.length < 131072 then { y with rlog := l ++ y.rlogWait.take 1, rlogWait := y.rlogWait.drop 1 } else { y with rlog := l })
  s1.resolveAll

/-- TLY_RLOG_NEXT (R138). -/
def execTlyRlogNext (p : PortId) (val : W32) (s : State) : Host.Outcome State Fault Refusal :=
  .next (s.when (s.whoOk (.pf p) && val.getLsbD 0) State.rlogNext)

/-! ## Doubt windows (R136, R137) -/

/-- The window of one index after a checkpoint restore: a new one, or the earlier one extended; longer than 3,072 generations: kept as it was, and withheld. -/
def stretch (old : Option Window) (g : BitVec 12) : Window :=
  match old with
  | none => ⟨g, genPlus g 1024, false⟩
  | some w => if w.withheld || 3072 < genDist w.w g + 1024 then { w with withheld := true } else ⟨w.w, genPlus g 1024, false⟩

/-- The doubt table a checkpoint restore writes (R137). -/
def formDoubt (old : Option Doubt) (im : Image) (now : Nat) : Doubt :=
  let base := stretch (old.map (fun d => d.base)) im.base
  let keys := im.gens.map (fun g => g.1) ++ (match old with | some d => d.wins.map (fun w => w.1) | none => [])
  { wins := keys.foldl (fun (a : Sp Window) (i : Nat) =>
      Sp.put a base i (stretch (old.map (fun d => d.win i)) (Sp.look im.gens im.base i))) []
    base := base, since := now, lastReport := now, groupsSeen := [] }

/-! ## Restore (R130-R132, R136, R383, Table 4.14) -/

/-- The entries an image holds; after a checkpoint every FREE index goes on 1,024 generations later and every entry is STALE (R130, R133, R136). -/
def State.load (s : State) (im : Image) (stale : Bool) : State :=
  let step := fun (g : BitVec 12) => if stale then genPlus g 1024 else g
  let s1 := s.setTly (fun y => { y with entries := [], genBase := step im.base, freed := [], virgin := [], jumpGen := [] })
  let s2 := im.gens.foldl (fun (t : State) (g : Nat × BitVec 12) => t.setEntry g.1 (Entry.free (step g.2))) s1
  im.entries.foldl (fun (t : State) (e : Nat × Entry) =>
    let t1 := t.setEntry e.1 { e.2 with stale := e.2.stale || stale }
    if stale then t1.setTly (fun y => { y with jumpGen := Sp.put y.jumpGen 0 e.1 (genPlus e.2.gen 1024) }) else t1) s2

/-- NOTED holds for an entry whose note is in the Deck; a written note whose TID no entry holds counts as that of an entry that has become FREE (R117, DEDUCED, log 30). -/
def State.loadNotes (s : State) : State :=
  let s1 := s.setDeck (fun d => { d with
    notes := (d.notes.filter (fun n => n.written)).map (fun n => { n with freedAt := if n.commit && !s.tidLive n.tid then some s.tick else none, gone := false }) })
  s1.deck.notes.foldl (fun (t : State) (n : Note) =>
    if t.tidLive n.tid then t.updEntry (tidIdx n.tid) (fun e => { e with noted := true }) else t) s1

/-- A secure-partition entry after a full or priority image (R383). -/
def State.settleSecure (s : State) (i : Nat) : State :=
  let e := s.entry i
  let done := fun (t : State) => t.updEntry i (fun x => { x with posted := true, consumed := true })
  match e.state with
  | .committed =>
    (((done s).updEntry i (fun x => { x with state := .complete })).record (s.tidAt i) e.func 1 stOk e.result0.toNat e.result1.toNat |>.sendOutcome i 8).freeCheck i
  | .complete => ((done s).record (s.tidAt i) e.func 1 stOk e.result0.toNat e.result1.toNat |>.sendOutcome i 8).freeCheck i
  | .aborted =>
    let s1 := (done s).record (s.tidAt i) e.func 2 (bitsOf e.result1.toNat 0 8) e.result0.toNat 0 |>.sendOutcome i 9
    (if e.outPend ≠ 0 ∧ !e.noted then s1.addNote i false else s1).freeCheck i
  | .free => s
  | _ => (done s).abortEntry i stDeviceFault 0 false

/-- A normal entry after a full or priority image (Table 4.14). -/
def State.settleEntry (s : State) (i : Nat) : State :=
  let e := s.entry i
  let t := s.tidAt i
  match e.state with
  | .free => s
  | .committed =>
    let s1 := (s.record t e.func 1 stOk e.result0.toNat e.result1.toNat).sendOutcome i 8
    (if e.reqMask = 0 ∧ !e.noted then s1.addNote i true else s1).dueCheck i
  | .complete => ((s.updEntry i (fun x => { x with consumed := true })).sendOutcome i 8).freeCheck i
  | .aborted =>
    let s1 := if e.posted then s.updEntry i (fun x => { x with consumed := true })
      else s.record t e.func 2 (bitsOf e.result1.toNat 0 8) e.result0.toNat 0
    let s2 := s1.sendOutcome i 9
    let s3 := if e.outPend ≠ 0 ∧ !e.noted then s2.addNote i false else s2
    (s3.dueCheck i).freeCheck i
  | _ =>
    let h := { e with state := .held, interimSent := false }
    ((s.setEntry i h).record t e.func 0 stPathLost h.q0 h.q1).dueEntry i (.interim (BitVec.ofNat 8 stPathLost) i)

/-- The entry at i is in doubt: questions go to its groups (R133, R134). -/
def State.doubtEntry (s : State) (i : Nat) : State :=
  let e := s.entry i
  let named := (upTo 3).filter (fun g => e.names g)
  let s1 := s.setTly (fun y => { y with
    inDoubt := y.inDoubt ++ [⟨s.tidAt i, named.map e.grp, e.func, [], s.tick, false⟩] })
  named.foldl (fun (t : State) (g : Nat) => t.addMsg ⟨s.tidAt i, g, BitVec.ofNat 10 (e.grp g), e.func, 7, e.sel g, t.tick, false, false⟩ (e.sel g)) s1

/-- A STALE entry after a checkpoint restore (R133, R383): the interim completion falls due for its queue, and the entry is in doubt. -/
def State.settleStale (s : State) (i : Nat) : State :=
  (if s.secIdx i then s else s.dueEntry i (.interim 0x10 i)).doubtEntry i

/-- Indices of the entries in use, in index order. -/
def State.usedIdx (s : State) : List Nat := (s.tly.entries.filter (fun e => e.2.state != .free)).map (fun e => e.1)

/-- Settling after a full or priority image; an entry recorded STALE before commit or abort stays in doubt (Table 4.14, DEDUCED, log 31). -/
def State.settleAll (s : State) : State :=
  s.usedIdx.foldl (fun (t : State) (i : Nat) =>
    let e := t.entry i
    let t0 := t.updEntry i (fun x => { x with stale := x.stale && x.state.pre && !t.secIdx i })
    let t1 := if t0.secIdx i then t0.settleSecure i else t0.settleEntry i
    if e.stale && e.state.pre && !t0.secIdx i then t1.doubtEntry i else t1) s

/-- The newer valid checkpoint (R130). -/
def Deck.newerCkpt (d : Deck) : Option Image := if imgSeq d.ckptA < imgSeq d.ckptB then d.ckptB else d.ckptA

/-- The Skid image that R130 loads. -/
def Deck.goodSkid (d : Deck) : Option Image :=
  match d.skid with
  | some k => if !k.stale && (d.newerCkpt.isNone || imgSeq d.newerCkpt < k.seq) then some k else none
  | none => none

/-- A checkpoint restore (R130, R133, R137). -/
def State.restoreStale (s : State) (im : Image) : State :=
  let d := formDoubt s.deck.doubt im s.tick
  let s1 := ((s.load im true).loadNotes).setDeck (fun x => { x with doubt := some d, seq := x.seq + 1, skid := none })
  let s2 := if d.withheld = 0 then s1 else s1.rep0 uTally 0x36 d.withheld
  let s3 := s2.setTly (fun y => { y with image := 3, blank := false })
  (s3.usedIdx.foldl State.settleStale s3).resolveAll

/-- Restore from a Skid image, or with a blank Deck (R130, R131). -/
def State.restoreSkid (s : State) (im : Option Image) : State :=
  let s0 := match im with | some k => s.load k false | none => s
  let s1 := s0.loadNotes.setDeck (fun x => { x with
    doubt := x.doubt.map (fun d => { d with since := s.tick, lastReport := s.tick, groupsSeen := [] }), skid := none })
  let code : BitVec 2 := match im with | some k => (if k.kind = ImgKind.full then 1 else 2) | none => 0
  (s1.setTly (fun y => { y with image := code, blank := im.isNone })).settleAll.resolveAll

/-- The Tally restore of phase H (R130). -/
def State.restore (s : State) : State :=
  let s1 := s.setTly (fun y => { y with restore := 2 })
  match s.deck.goodSkid with
  | some k => s1.restoreSkid (some k)
  | none => match s.deck.newerCkpt with
    | some c => s1.restoreStale c
    | none => s1.restoreSkid none

/-- TLY_STATUS.RESTORE (Table 4.10). -/
def State.restoreCode (s : State) : Nat := if 2 ≤ s.tly.restore.toNat && !s.tly.inDoubt.isEmpty then 3 else s.tly.restore.toNat

end Sys2Proof.Machine
end

