-- ==== Sys2Proof/Machine/Links.lean ====
section
/-! DEFINITION. Channel links and the Huzout protocol (R139-R170): link states, probes, credits, replay, data and acknowledgements, outcomes, questions. -/

namespace Sys2Proof.Machine

/-! ## Frames (R143, R151, Table 5.7, Table 5.8) -/

/-- Sequenced types (Table 5.3). -/
def isSeq (f : Frame) : Bool := f.type = 1 || f.type = 7 || f.type = 8 || f.type = 9

/-- The header as a number, byte 0 lowest (Table 5.2): version 1, the payload's length, and zero fields. -/
def frameHead (f : Frame) : Nat :=
  fields [(0, f.type.toNat), (4, 1), (8, f.flags.toNat), (16, f.payload.length), (32, f.partner.toNat), (48, f.group.toNat), (58, f.tenant.toNat),
    (67, f.lseq.toNat), (80, f.tid.toNat), (112, f.seq.toNat)]

/-- The bytes of a frame: header, payload, CRC-32C trailer (R143, R144); `flip`: trailer bits that an injection inverts (Table 14.6). -/
def frameBytes (f : Frame) (flip : W32) : List Byte :=
  let b := leBytes (frameHead f) 16 ++ f.payload
  b ++ leBytes (crc32c b ^^^ flip).toNat 4

/-- Byte k of a payload. -/
def framePl (f : Frame) (k : Nat) : Byte := f.payload.getD k 0

/-- Step 2 of Table 5.5 but for VERSION and the zero fields of the header: an assigned TYPE, a LENGTH that it allows (Table 5.3, R154), flag bits and payload bytes that are zero by Tables 5.4, 5.7, 5.8 and 5.10. -/
def frameAllowed (f : Frame) : Bool :=
  let n := f.payload.length
  let t := f.type.toNat
  !f.flags.getLsbD 7 && (!f.flags.getLsbD 6 || (t = 2 && !f.flags.getLsbD 3)) &&
  (if t = 1 then n ≤ 4096 && (1 ≤ n || (f.seq = 1 && f.flags.getLsbD 0))
   else if t = 2 || t = 8 || t = 9 then n = 0
   else if t = 3 then n = 8 && framePl f 1 = 0 && framePl f 6 = 0 && framePl f 7 = 0
   else if t = 4 then n = 8 && framePl f 6 = 0 && framePl f 7 = 0
   else if t = 5 then n = 16 && framePl f 11 = 0 && framePl f 14 = 0 && framePl f 15 = 0
   else if t = 6 then n = 16 && framePl f 11 = 0
   else if t = 7 then n = 0 || (n = 8 && framePl f 1 = 0)
   else false)

/-- What the bytes of a received frame are (Table 5.5): a step-1 failure; a step-2 failure, with the LSEQ of a sequenced frame; a frame. -/
inductive RxFrame where
  | broken
  | bad (lseq : Option (BitVec 10))
  | frame (f : Frame)
deriving DecidableEq, Repr

/-- Steps 1 and 2 on the bytes of a frame whose framing is intact (R143, R144, R147). -/
def readFrame (bs : List Byte) : RxFrame :=
  let h := leNat (bs.take 16)
  let n := bitsOf h 16 13
  let b := bs.take (16 + n)
  let f : Frame :=
    { type := BitVec.ofNat 4 h, flags := BitVec.ofNat 8 (bitsOf h 8 8), partner := BitVec.ofNat 16 (bitsOf h 32 16), group := BitVec.ofNat 10 (bitsOf h 48 10)
      tenant := BitVec.ofNat 9 (bitsOf h 58 9), lseq := BitVec.ofNat 10 (bitsOf h 67 10), tid := BitVec.ofNat 32 (bitsOf h 80 32)
      seq := BitVec.ofNat 16 (bitsOf h 112 16), payload := b.drop 16 }
  if bs.length ≠ 20 + n || leBytes (crc32c b).toNat 4 ≠ bs.drop (16 + n) then .broken
  else if bitsOf h 4 4 = 1 && bitsOf h 29 3 = 0 && bitsOf h 77 3 = 0 && frameAllowed f then .frame f
  else .bad (if isSeq f then some f.lseq else none)

/-- Data units a DATA frame consumes (R151). -/
def frameUnits (f : Frame) : Nat := (20 + f.payload.length + 255) / 256

/-- The partner ID of the groups that include link l; a link in no group has that of its last PROBE (R149, DEDUCED, log 32). -/
def State.linkPartner (s : State) (l : Nat) : W16 :=
  match (s.ch.groups.map (fun g => g.2)).find? (fun g => g.has l) with
  | some g => g.partner
  | none => (s.link l).seen

/-- Link l is in some group. -/
def State.grouped (s : State) (l : Nat) : Bool := s.ch.groups.any (fun g => g.2.has l)

/-- A frame with TID 0 (Table 5.2). -/
def State.bareFrame (s : State) (l type flags : Nat) (pl : List Byte) : Frame :=
  ⟨BitVec.ofNat 4 type, BitVec.ofNat 8 flags, s.linkPartner l, 0, 0, 0, 0, 0, pl⟩

/-- Count n events of counter j of link l (Table 5.12). -/
def State.cntLink (s : State) (l j n : Nat) : State :=
  s.updLink l (fun x => { x with cnt := Sp.put x.cnt 0 j (sat32 (Sp.look x.cnt 0 j) n) })

/-- A frame leaves on link l; an injection inverts bits of its trailer. -/
def State.wire (s : State) (l : Nat) (f : Frame) (flip : W32) : State := (s.emit (.frame l (frameBytes f flip))).cntLink l 10 1

/-- The limits this end advertises now: 128 data units and 32 control credits beyond what it has received (R151). -/
def Link.dataAdv (x : Link) : W16 := 128 + x.rxData
def Link.ctrlAdv (x : Link) : W16 := 32 + x.rxCtrl

/-- A CREDIT or an IDLE has reported. -/
def Link.reported (x : Link) (now : Nat) : Link :=
  { x with advData := x.dataAdv, advCtrl := x.ctrlAdv, unreported := none, lastReport := now }

/-- The PROBE payload (Table 5.7). -/
def State.probeBytes (s : State) (l : Nat) : List Byte :=
  leBytes s.deck.epoch.toNat 4 ++ leBytes s.ch.moduleId.toNat 2 ++ leBytes 1 2 ++ leBytes l 2 ++ leBytes (b2n (s.link l).cfg.fec) 2 ++
    leBytes 128 2 ++ leBytes 32 2

/-- STATE of an IDLE: starting until the ports go ready, restoring while TIDs are in doubt, else ready (R448). -/
def State.idleState (s : State) : Nat := if !s.isReady then 0 else if s.tly.inDoubt.isEmpty then 1 else 2

/-- The IDLE payload (Table 5.7). -/
def State.idleBytes (s : State) (l : Nat) : List Byte :=
  let x := s.link l
  leBytes s.deck.epoch.toNat 4 ++ leBytes x.dataAdv.toNat 2 ++ leBytes x.ctrlAdv.toNat 2 ++ leBytes x.rxLseq.toNat 2 ++
    leBytes s.idleState 2 ++ leBytes s.tly.ckptCount 2 ++ leBytes 0 2

def State.sendProbe (s : State) (l : Nat) (reply : Bool) : State := s.wire l (s.bareFrame l 6 (if reply then 4 else 0) (s.probeBytes l)) 0

def State.sendIdle (s : State) (l : Nat) : State :=
  (s.wire l (s.bareFrame l 5 0 (s.idleBytes l)) 0).updLink l (fun x => x.reported s.tick)

/-- A CREDIT (Table 5.8). -/
def State.sendCredit (s : State) (l : Nat) : State :=
  let x := s.link l
  (s.wire l (s.bareFrame l 4 0 (leBytes x.dataAdv.toNat 2 ++ leBytes x.ctrlAdv.toNat 2 ++ leBytes x.rxLseq.toNat 2 ++ leBytes 0 2)) 0).updLink l
    (fun y => y.reported s.tick)

/-- A link NAK, at most one per gap until the expected LSEQ arrives or REPLAY_TIMEOUT elapses (R152). -/
def State.sendNak (s : State) (l : Nat) : State :=
  let x := s.link l
  let may : Bool := match x.nakSent with | none => true | some t => t + us x.cfg.replayTimeout.toNat ≤ s.tick
  if may then
    ((s.wire l (s.bareFrame l 3 0 (leBytes 0 2 ++ leBytes x.rxLseq.toNat 2 ++ leBytes 0 4)) 0).cntLink l 4 1).updLink l
      (fun y => { y with nakSent := some s.tick })
  else s

/-- The F0 of KIND 0x05, at most one per link per second (R147, R149). -/
def State.badLog (s : State) (l : Nat) : State :=
  let may : Bool := match (s.link l).f0At with | none => true | some t => t + secs 1 ≤ s.tick
  if may then (s.updLink l (fun y => { y with f0At := some s.tick })).rep0 (uLink l) 0x05 l else s

/-- A frame is discarded as bad (Table 5.5). -/
def State.badFrame (s : State) (l : Nat) : State := (s.cntLink l 9 1).badLog l

/-! ## Sending again (R156, R158, R162) -/

/-- The link that LINK_SEL names for slot g of the entry at i. -/
def State.selLink (s : State) (i g : Nat) : Option Nat := (s.group ((s.entry i).grp g)).linkAt ((s.entry i).sel g)

/-- Frames of a TID and group leave the queue of a link. -/
def State.pull (s : State) (l : Nat) (t : W32) (grp : Nat) : State :=
  s.updLink l (fun x => { x with dataQ := x.dataQ.filter (fun q => !(q.f.tid = t && q.f.group.toNat = grp)) })

/-- Put stored frames of slot g of the entry at i on link l again, those sent before with RESENT, counted (R158, R162). -/
def State.putAgain (s : State) (i l : Nat) (fs : List Stored) : State :=
  let n := fs.countP (fun x => x.sent)
  let s1 := fs.foldl (fun (t : State) (x : Stored) =>
    t.queueBuilt l ⟨{ x.f with flags := if x.sent then x.f.flags ||| 0x10 else x.f.flags }, x.built⟩) s
  (s1.cntLink l 6 n).updEntry i (fun e => { e with resent := sat16 e.resent n })

/-- All stored frames of slot g go to the link in slot k of the group. -/
def State.moveFlow (s : State) (i g k l : Nat) : State :=
  let t := s.tidAt i
  let grp := (s.entry i).grp g
  let s1 := match s.selLink i g with | some o => s.pull o t grp | none => s
  let s2 := s1.updEntry i (fun e => e.setSel g k)
  let f := s2.flow i g
  if f.stopped || f.pausedTo.isSome then s2
  else (s2.putAgain i l f.stored).updFlow i g (fun x => { x with stored := x.stored.map (fun y => { y with since := s.tick }) })

/-- The entry at i may still send and receive data. -/
def State.flowLive (s : State) (i : Nat) : Bool := (s.entry i).state == .active || (s.entry i).state == .held

/-- CH stops sending the TID to the group and posts an event (R158, R159). -/
def State.stopFlow (s : State) (i g kind val : Nat) : State :=
  let t := s.tidAt i
  let s1 := match s.selLink i g with | some o => s.pull o t ((s.entry i).grp g) | none => s
  (s1.updFlow i g (fun f => { f with stopped := true, stopKind := kind, pausedTo := none })).postEvent t kind g val

/-- Send every stored frame again on the next UP link, or stop after RESEND_LIMIT (R158). -/
def State.resendFlow (s : State) (i g : Nat) : State :=
  let e := s.entry i
  let grp := e.grp g
  let lim := (s.link ((s.selLink i g).getD 0)).cfg.resendLimit.toNat
  if lim ≤ (s.flow i g).resends then s.stopFlow i g 2 0
  else match s.nextLink grp (e.sel g) with
    | none => s
    | some x =>
      (s.updFlow i g (fun f => { f with resends := f.resends + 1, pausedTo := none })).moveFlow i g x.1 x.2

/-! ## Link states (R148, R149, R162, R163) -/

/-- A message whose link is lost goes to another UP link of its group, RESENT counted, or waits (R162). -/
def State.moveMsg (s : State) (l : Nat) (m : OutMsg) : State :=
  if m.sent && (s.group m.group.toNat).linkAt m.link = some l then
    match s.pickLink m.group.toNat with
    | some x =>
      let s1 := (s.sendMsg m x.1 x.2).cntLink x.2 6 1
      if s.tidLive m.tid then s1.updEntry (tidIdx m.tid) (fun e => { e with resent := sat16 e.resent 1 }) else s1
    | none => s.setTly (fun y => { y with outMsgs := y.outMsgs.map (fun x => if x = m then { x with sent := false } else x) })
  else s

/-- Answers that a lost link has not delivered go to another UP link of the group named, or are kept until one is UP (R162, R165). -/
def State.moveReplies (s : State) (fs : List Queued) : State :=
  fs.foldl (fun (t : State) (q : Queued) =>
    if q.f.type = 7 ∧ q.f.flags.getLsbD 2 then
      match t.pickLink q.f.group.toNat with
      | some x => t.queueBuilt x.2 q
      | none => t.setCh (fun c => { c with replies := c.replies ++ [q] })
    else t) s

/-- What a lost link carried for slot g of the entry at i (R162). -/
def State.lossEntry (s : State) (l i g : Nat) : State :=
  let e := s.entry i
  if !(e.names g && (s.group (e.grp g)).has l && (s.flowLive i || e.state == .opened)) then s
  else match s.pickLink (e.grp g) with
    | some x => if s.selLink i g = some l then s.moveFlow i g x.1 x.2 else s
    | none => if e.ackMask.getLsbD g || e.state == .opened then s else s.loseGroup i g l

/-- The entry at i waits for its abort note and has a pending group that no link serves: the note is due at once (R117). -/
def State.noteNow (s : State) (i : Nat) : State :=
  let e := s.entry i
  if e.state == .aborted && e.outPend != 0 && Sp.look s.tly.noteDue 0 i ≠ 0 && s.pendNoLink i then
    (s.setTly (fun y => { y with noteDue := Sp.put y.noteDue 0 i 0 })).addNote i false
  else s

/-- Link l is lost: its queues empty, entries and messages move or wait, and abort notes that now cannot wait are due (R117, R162). -/
def State.linkLoss (s : State) (l : Nat) : State :=
  let old := s.link l
  let s1 := s.updLink l (fun x => { x with dataQ := [], ctrlQ := [], sent := [] })
  let s2 := s1.usedIdx.foldl (fun (t : State) (i : Nat) => (upTo 3).foldl (fun (u : State) (g : Nat) => u.lossEntry l i g) t) s1
  let s3 := s2.tly.outMsgs.foldl (fun (t : State) (m : OutMsg) => t.moveMsg l m) s2
  (s3.usedIdx.foldl State.noteNow s3).moveReplies (old.sent.map (fun x => ⟨x.f, x.built⟩) ++ old.ctrlQ)

/-- The LINK grant of link l's cluster is released when its last link returns to DISABLED (Table 15.2). -/
def State.linkGrant (s : State) (l : Nat) : State :=
  if (upTo 16).all (fun k => (s.link (l / 16 * 16 + k)).state == .disabled) then s.releaseGrant 6 (whoLink (l / 16)) else s

/-- A link in service or coming up goes to DOWN or DISABLED with a cause; UP to DOWN is an F2 (R148). -/
def State.linkTo (s : State) (l : Nat) (st : LState) (cause : Nat) : State :=
  let was := (s.link l).state
  let s1 := s.updLink l (fun x => { x with state := st, downCause := BitVec.ofNat 4 cause, entered := s.tick, blockLock := false, fecLock := false })
  let s2 := if was = LState.up ∧ st = LState.down then s1.rep0 (uLink l) 0x23 cause else s1
  (if was = LState.up then s2.linkLoss l else s2).linkGrant l

/-- LREF of link l's cluster is present (R17). -/
def State.lrefOk (s : State) (l : Nat) : Bool := s.ch.lref.getLsbD (l / 16)

/-- A link begins training (R148). -/
def State.train (s : State) (l : Nat) : State :=
  s.updLink l (fun x => { x with
    state := .training, entered := s.tick, blockLock := false, fecLock := false, gotReply := false, sentReply := false })

/-- DISABLED to TRAINING when ENABLE is 1 and LREF is present, under the LINK grant of its cluster, which its reserve always holds; never in END (R148, R388, R428, Table 15.2). -/
def State.tryTrain (s : State) (l : Nat) : State :=
  let x := s.link l
  if x.state = LState.disabled ∧ x.cfg.enable ∧ s.lrefOk l ∧ s.deck.lc ≠ .endState then (s.askGrant 6 2 (whoLink (l / 16))).train l else s

/-- Stored frames of slot g of an OPEN entry whose link was lost go on link l, now UP (R162, R163). -/
def State.serveFlow (s : State) (l i g : Nat) : State :=
  let e := s.entry i
  if e.names g && e.state == .opened && !(s.flow i g).stored.isEmpty && !((s.selLink i g).any s.linkUp) then
    match (s.upLinks (e.grp g)).find? (fun x => x.2 = l) with
    | some x => s.moveFlow i g x.1 x.2
    | none => s
  else s

/-- What had no link goes on link l, now UP, of its group: messages, answers, stored frames (R162, R163, R165). -/
def State.serve (s : State) (l : Nat) : State :=
  let s1 := s.tly.outMsgs.foldl (fun (t : State) (m : OutMsg) =>
    match (t.upLinks m.group.toNat).find? (fun x => x.2 = l) with
    | some x => if m.sent then t else t.sendMsg m x.1 x.2
    | none => t) s
  let s2 := (s1.setCh (fun c => { c with replies := [] })).moveReplies s1.ch.replies
  s2.usedIdx.foldl (fun (t : State) (i : Nat) => (upTo 3).foldl (fun (u : State) (g : Nat) => u.serveFlow l i g) t) s2

/-- The path groups with this link have had a link UP since the restore (R137). -/
def State.groupsUp (s : State) (l : Nat) : State :=
  let gs := (s.ch.groups.filter (fun g => g.2.has l)).map (fun g => g.1)
  s.setDeck (fun d => { d with doubt := d.doubt.map (fun w => { w with groupsSeen := w.groupsSeen ++ gs.filter (fun g => !w.groupsSeen.contains g) }) })

/-- Link l goes UP: LSEQ and the credit counters start at 0 (R149). -/
def State.toUp (s : State) (l : Nat) : State :=
  let s1 := s.updLink l (fun x => { x with
    state := .up, downCause := 0, entered := s.tick, lastRx := s.tick, lastReport := s.tick, unreported := none, nakSent := none,
    txLseq := 0, ackLseq := 0, rxLseq := 0, dataUsed := 0, ctrlUsed := 0, advData := 128, advCtrl := 32, rxData := 0, rxCtrl := 0,
    replays := 0, sent := [], rxOther := false })
  (s1.groupsUp l).serve l

/-! ## Configuration rows (Table 5.14) -/

/-- The fields of CH_LINK_CFG with their clamps, and the number clamped. -/
def linkFields (old : LinkCfg) (v : Nat) : LinkCfg × Nat :=
  let at1 := bitsOf v 45 17
  let at2 := clampN 10 100000 at1
  let rl1 := bitsOf v 36 4
  let rl2 := max 1 rl1
  let pl1 := bitsOf v 32 4
  let pl2 := max 1 pl1
  let si1 := bitsOf v 16 12
  let si2 := clampN 200 3000 si1
  let rt1 := bitsOf v 8 8
  let rt2 := max 20 rt1
  (⟨BitVec.ofNat 17 at2, BitVec.ofNat 4 rl2, BitVec.ofNat 4 pl2, BitVec.ofNat 12 si2, BitVec.ofNat 8 rt2,
      if old.enable then old.fec else bitsOf v 2 1 = 1, bitsOf v 0 1 = 1⟩,
    clamped at1 at2 + clamped rl1 rl2 + clamped pl1 pl2 + clamped si1 si2 + clamped rt1 rt2)

/-- BAR0 offset of a register of link l's window (R170, Table 1.1). -/
def chOff (l r : Nat) : Nat := 0x300000 + 0x2000 * l + r

/-- A write of CH_LINK_CFG (Table 5.14, R148). -/
def State.linkCfgWrite (s : State) (f l : Nat) (val : W64) : State :=
  let old := (s.link l).cfg
  let r := linkFields old val.toNat
  let s1 := (s.updLink l (fun x => { x with cfg := r.1 })).clampFn f r.2
  let s2 := if old.enable ∧ old.fec ≠ val.getLsbD 2 then s1.repF (uLink l) 0x02 f (chOff l 0) else s1
  let s3 :=
    if old.enable ∧ !r.1.enable then s2.linkTo l .disabled 6
    else if !old.enable ∧ r.1.enable then s2.tryTrain l
    else s2
  s3.setMp (fun m => { m with cfgDirty := true })

/-- LINK_ENABLE (R148). -/
def execLinkEnable (p : PortId) (l : LinkId) (val : W64) (s : State) : Host.Outcome State Fault Refusal :=
  .next (s.when (s.whoOk (.pf p) && val.getLsbD 0 && !(s.link l.val).cfg.enable) (fun t => t.linkCfgWrite (pfOf p.val) l.val val))

/-- LINK_DISABLE (R148). -/
def execLinkDisable (p : PortId) (l : LinkId) (val : W64) (s : State) : Host.Outcome State Fault Refusal :=
  .next (s.when (s.whoOk (.pf p) && !val.getLsbD 0 && (s.link l.val).cfg.enable) (fun t => t.linkCfgWrite (pfOf p.val) l.val val))

/-- TRAINING_COMPLETE (R148): training done, block lock and, with FEC on, FEC lock. -/
def execTrainingComplete (l : LinkId) (s : State) : Host.Outcome State Fault Refusal :=
  .next (s.when (s.live && (s.link l.val).state == .training) (fun t =>
    t.updLink l.val (fun x => { x with
      state := .probing, entered := t.tick, lastProbe := 0, blockLock := true, fecLock := x.cfg.fec, gotReply := false, sentReply := false })))

/-- TRAINING_LIMIT_EXPIRY (R148): 500 ms. -/
def execTrainingLimitExpiry (l : LinkId) (s : State) : Host.Outcome State Fault Refusal :=
  .next (s.when (s.live && (s.link l.val).state == .training && (s.link l.val).entered + ms 500 ≤ s.tick) (fun t => t.linkTo l.val .down 7))

/-- PROBING_LIMIT_EXPIRY (R148): 100 ms. -/
def execProbingLimitExpiry (l : LinkId) (s : State) : Host.Outcome State Fault Refusal :=
  .next (s.when (s.live && (s.link l.val).state == .probing && (s.link l.val).entered + ms 100 ≤ s.tick) (fun t => t.linkTo l.val .down 7))

/-- PROBE_INTERVAL (R149): a PROBE every 1 ms in PROBING. -/
def execProbeInterval (l : LinkId) (s : State) : Host.Outcome State Fault Refusal :=
  let x := s.link l.val
  .next (s.when (s.live && x.state == .probing && (x.lastProbe = 0 || x.lastProbe + ms 1 ≤ s.tick)) (fun t =>
    (t.sendProbe l.val false).updLink l.val (fun y => { y with lastProbe := t.tick })))

/-- DOWN_HOLD_EXPIRY (R148): 10 ms, with ENABLE 1 and LREF present. -/
def execDownHoldExpiry (l : LinkId) (s : State) : Host.Outcome State Fault Refusal :=
  let x := s.link l.val
  .next (s.when (s.live && x.state == .down && x.entered + ms 10 ≤ s.tick && x.cfg.enable && s.lrefOk l.val) (fun t => t.train l.val))

/-- LOCK_LOSS (R148): block or FEC lock lost for 100 TICKs. -/
def execLockLoss (l : LinkId) (s : State) : Host.Outcome State Fault Refusal :=
  .next (s.when (s.live && (s.link l.val).state == .up) (fun t => t.linkTo l.val .down 1))

/-- LINK_SILENCE_EXPIRY (R148). -/
def execLinkSilenceExpiry (l : LinkId) (s : State) : Host.Outcome State Fault Refusal :=
  let x := s.link l.val
  .next (s.when (s.live && x.state == .up && x.lastRx + us x.cfg.silence.toNat ≤ s.tick) (fun t => t.linkTo l.val .down 2))

/-- LREF_LOSS (R17, R148, R163): the sixteen links of the cluster, in link order. -/
def execLrefLoss (c : ClId) (s : State) : Host.Outcome State Fault Refusal :=
  .next (s.when (s.ch.lref.getLsbD c.val) (fun t =>
    let t1 := t.setCh (fun x => { x with lref := x.lref &&& ~~~(BitVec.ofNat 16 (1 <<< c.val)) })
    (upTo 16).foldl (fun (u : State) (k : Nat) =>
      if u.live && u.linkUp (16 * c.val + k) then u.linkTo (16 * c.val + k) .down 4 else u) t1))

/-- LREF_RETURN (R17, R148): links left DISABLED with ENABLE 1 begin training; those DOWN wait for their hold. -/
def execLrefReturn (c : ClId) (s : State) : Host.Outcome State Fault Refusal :=
  .next (s.when (!s.ch.lref.getLsbD c.val) (fun t =>
    let t1 := t.setCh (fun x => { x with lref := x.lref ||| BitVec.ofNat 16 (1 <<< c.val) })
    if t1.live then (upTo 16).foldl (fun (u : State) (k : Nat) => u.tryTrain (16 * c.val + k)) t1 else t1))

/-! ## Receive checks (R147, Table 5.5) -/

/-- A sequenced frame is accepted at the link layer: LSEQ and credits consumed, a CREDIT when a report is due (R151, R152). -/
def State.takeSeq (s : State) (l : Nat) (f : Frame) : State :=
  let s1 := s.updLink l (fun x => { x with
    rxLseq := x.rxLseq + 1, nakSent := none, unreported := match x.unreported with | some t => some t | none => some s.tick,
    rxData := if f.type = 1 then x.rxData + BitVec.ofNat 16 (frameUnits f) else x.rxData,
    rxCtrl := if f.type = 1 then x.rxCtrl else x.rxCtrl + 1 })
  let x := s1.link l
  if 16 ≤ (x.dataAdv - x.advData).toNat || 4 ≤ (x.ctrlAdv - x.advCtrl).toNat then s1.sendCredit l else s1

/-- The frame stays within the credits advertised (step 5). -/
def Link.within (x : Link) (f : Frame) : Bool :=
  if f.type = 1 then frameUnits f ≤ (x.advData - x.rxData).toNat else 1 ≤ (x.advCtrl - x.rxCtrl).toNat

/-- A frame fails step 2: counted and logged; the LSEQ of a sequenced one is consumed (Table 5.5). -/
def State.fail2 (s : State) (l : Nat) (lseq : Option (BitVec 10)) : State :=
  (if lseq = some (s.link l).rxLseq then s.updLink l (fun x => { x with rxLseq := x.rxLseq + 1, nakSent := none }) else s).badFrame l

/-- Steps 2 to 5 of Table 5.5 on an UP link, then the frame's own handling. -/
def State.rx (s : State) (l : Nat) (f : Frame) (k : State → State) : State :=
  let s1 := (s.cntLink l 11 1).updLink l (fun x => { x with lastRx := s.tick, rxOther := x.rxOther || f.type ≠ 6 })
  let x := s1.link l
  if !frameAllowed f then s1.fail2 l (if isSeq f then some f.lseq else none)
  else if f.partner ≠ s1.linkPartner l then s1.badFrame l
  else if isSeq f then
    if f.lseq = x.rxLseq then
      if x.within f then k (s1.takeSeq l f)
      else (s1.updLink l (fun y => { y with rxLseq := y.rxLseq + 1, nakSent := none })).badFrame l
    else if (f.lseq - x.rxLseq).toNat < 512 then s1.sendNak l
    else s1
  else k s1

/-- A frame row acts on an UP link of a module in service with a frame of its type. -/
def State.rxRow (s : State) (l type : Nat) (f : Frame) (k : State → State) : State :=
  s.when (s.live && s.linkUp l && f.type.toNat = type) (fun t => t.rx l f k)

/-- The link belongs to a group whose partner ID equals that of GROUP (step 6). -/
def State.linkOkFor (s : State) (l : Nat) (f : Frame) : Bool :=
  (s.group f.group.toNat).valid && s.grouped l && s.linkPartner l = (s.group f.group.toNat).partner

/-- Step 6 for DATA, ACK and NAK frames: link, generation, group (Table 5.5). -/
def State.rxTid (s : State) (l : Nat) (f : Frame) (k : State → Nat → Nat → State) : State :=
  if !s.linkOkFor l f then s.badFrame l
  else if !s.tidLive f.tid then s.cntLink l 0 1
  else match (s.entry (tidIdx f.tid)).slotOf f.group.toNat with
    | none => s.badFrame l
    | some g => k s (tidIdx f.tid) g

/-! ## Reply data (R146, R155, R156, R201) -/

/-- CH records slot g in ACK_MASK while the entry is ACTIVE or HELD, and tells the engine; a repeated acknowledgement changes nothing (R113, R156, R199). -/
def State.recordAck (s : State) (i g : Nat) : State :=
  if s.flowLive i && !(s.entry i).ackMask.getLsbD g then
    (s.updEntry i (fun e => { e with ackMask := e.ackMask ||| BitVec.ofNat 3 (1 <<< g) })).postEvent (s.tidAt i) 1 g 0
  else s

/-- The ACK that answers a DATA frame (R155). -/
def State.answerData (s : State) (l i g : Nat) (f : Frame) (gap : Bool) : State :=
  let fl := s.flow i g
  let a : Frame :=
    { f with
      type := 2, flags := BitVec.ofNat 8 (b2n fl.rxLast + 64 * b2n gap), lseq := 0, seq := fl.rxNext - 1, payload := [] }
  s.wire l a 0

/-- The payload of an accepted reply frame goes to the reply buffer, truncated at its size (R146, R201). -/
def State.replyBytes (s : State) (i g : Nat) (f : Frame) : State :=
  let fl := s.flow i g
  let e := s.entry i
  let c := e.engine.toNat / 8
  match fl.buf with
  | none => s
  | some (a, size) =>
    let bs := f.payload.take (size - fl.rxBytes)
    s.unitPut e.func.toNat (e.func = 0x1FF) c (a + fl.rxBytes) bs (f.flags.getLsbD 5)

/-- An accepted reply frame (R155, R156, R201). -/
def State.acceptData (s : State) (i g : Nat) (f : Frame) : State :=
  let last := f.flags.getLsbD 0
  let s1 := (s.replyBytes i g f).updFlow i g (fun x => { x with
    rxNext := x.rxNext + 1, rxLast := x.rxLast || last, rxBytes := x.rxBytes + f.payload.length })
  if last then
    let s2 := s1.postEvent f.tid 4 g (s1.flow i g).rxBytes
    if (s1.flow i g).expectReply then s2.recordAck i g else s2
  else s1

/-- The entry's opcode has replies that may be empty: EXCHANGE and RUN (R154). -/
def Entry.emptyReply (e : Entry) : Bool := e.opc = 4 || e.opc = 5

/-- DATA_FRAME (R146, R154-R156): an empty reply to another opcode fails as a LENGTH that is not allowed; GAP only ahead of sequence. -/
def execDataFrame (l : LinkId) (f : Frame) (s : State) : Host.Outcome State Fault Refusal :=
  .next (s.rxRow l.val 1 f (fun t => t.rxTid l.val f (fun u i g =>
    let fl := u.flow i g
    if f.payload.isEmpty && !(u.entry i).emptyReply then u.badFrame l.val
    else if f.seq.toNat < fl.rxNext.toNat then (u.cntLink l.val 1 1).answerData l.val i g f false
    else if fl.rxNext.toNat < f.seq.toNat then (u.cntLink l.val 2 1).answerData l.val i g f true
    else if !fl.rxLast && u.flowLive i then (u.acceptData i g f).answerData l.val i g f false
    else u.answerData l.val i g f false)))

/-! ## Acknowledgements (R113, R115, R156, R164) -/

/-- An ACK to outbound data frees frames, sends again after a gap, and records the group (R156). -/
def State.dataAck (s : State) (i g : Nat) (f : Frame) : State :=
  if !s.flowLive i then s
  else
    let fl := s.flow i g
    let q := f.seq.toNat
    let done := fun (x : Stored) => q ≠ 0xFFFF && x.f.seq.toNat ≤ q
    let rest := fl.stored.filter (fun x => !done x)
    let moved := rest.length < fl.stored.length
    let s1 := s.updFlow i g (fun x => { x with stored := rest, resends := if moved then 0 else x.resends })
    let s2 :=
      if f.flags.getLsbD 6 && !fl.stopped && fl.pausedTo.isNone then
        match s1.selLink i g with
        | some l =>
          if s1.linkUp l then
            ((s1.pull l f.tid f.group.toNat).putAgain i l rest).updFlow i g (fun x => { x with stored := rest.map (fun y => { y with since := s.tick }) })
          else s1
        | none => s1
      else s1
    if f.flags.getLsbD 0 && !fl.expectReply && fl.descSent then s2.recordAck i g else s2

/-- An outcome is acknowledged for slot g of the entry at i (R115, R117). -/
def State.outcomeAck (s : State) (i g : Nat) : State :=
  let e := s.entry i
  let t := s.tidAt i
  let settled : Bool := e.state == .committed || e.state == .complete || e.state == .aborted
  if settled && e.outPend.getLsbD g then
    let left := e.outPend &&& ~~~(BitVec.ofNat 3 (1 <<< g))
    let s1 := (s.updEntry i (fun x => { x with outPend := left })).setTly (fun y => { y with
      outMsgs := y.outMsgs.filter (fun m => !(m.tid = t && m.slot = g && m.type ≠ 7)) })
    if left = 0 then ((s1.freeAbortNote t).dueCheck i).freeCheck i else s1
  else s

/-- The outcome frame for a TID without an entry is acknowledged by its group's partner (R135). -/
def State.lostAck (s : State) (f : Frame) : State :=
  let s1 := s.setTly (fun y => { y with outMsgs := y.outMsgs.filter (fun m => !(m.tid = f.tid && m.group = f.group && m.type ≠ 7)) })
  if s1.tly.outMsgs.any (fun m => m.tid = f.tid) then s1 else s1.freeAbortNote f.tid

/-- ACK_FRAME (R113, R115, R135, R156). -/
def execAckFrame (l : LinkId) (f : Frame) (s : State) : Host.Outcome State Fault Refusal :=
  .next (s.rxRow l.val 2 f (fun t =>
    if f.flags.getLsbD 3 && !t.tidLive f.tid && t.linkOkFor l.val f && t.tly.outMsgs.any (fun m => m.tid = f.tid && m.group = f.group && m.type ≠ 7) then
      t.lostAck f
    else t.rxTid l.val f (fun u i g => if f.flags.getLsbD 3 then u.outcomeAck i g else u.dataAck i g f)))

/-! ## Replay and credits (R151, R152) -/

/-- NEXT_RX_LSEQ of the partner: frames it passes leave the store (R152). -/
def State.advance (s : State) (l : Nat) (n : BitVec 10) : State :=
  let x := s.link l
  let adv := (n - x.ackLseq).toNat
  if 0 < adv && adv ≤ (x.txLseq - x.ackLseq).toNat then
    s.updLink l (fun y => { y with ackLseq := n, sent := y.sent.drop adv, replays := 0 })
  else s

/-- A frame built at that tick may still be transmitted: within FRAME_LIFE (R169). -/
def State.young (s : State) (built : Nat) : Bool := s.tick ≤ built + ms s.ch.frameLife.toNat

/-- Replay every sequenced frame from NEXT_RX_LSEQ on, but one older than FRAME_LIFE, which nothing may transmit (R169); after REPLAY_LIMIT replays without progress the link goes DOWN (R152). -/
def State.replay (s : State) (l : Nat) : State :=
  let x := s.link l
  if x.sent.isEmpty then s
  else if x.cfg.replayLimit.toNat ≤ x.replays then s.linkTo l .down 3
  else
    let out := x.sent.filter (fun f => s.young f.built)
    let s1 := out.foldl (fun (t : State) (f : SentFrame) => t.wire l f.f 0) s
    let s2 := (s1.cntLink l 5 out.length).updLink l (fun y => { y with
      replays := y.replays + 1, sent := y.sent.map (fun f => { f with since := s.tick }) })
    if s2.flt.inj.any (fun j => j.unit.toNat = uLink l && j.fired) then s2.injEnd (BitVec.ofNat 16 (uLink l)) stOk 0 else s2

/-- Fields of an 8- or 16-byte payload. -/
def plN (f : Frame) (o n : Nat) : Nat := leNat ((f.payload.drop o).take n)

/-- NAK_FRAME (R152, R159). -/
def execNakFrame (l : LinkId) (f : Frame) (s : State) : Host.Outcome State Fault Refusal :=
  .next (s.rxRow l.val 3 f (fun t =>
    if plN f 0 1 = 0 then (t.advance l.val (BitVec.ofNat 10 (plN f 2 2))).replay l.val
    else t.rxTid l.val f (fun u i g =>
      if !u.flowLive i then u
      else if plN f 0 1 = 1 then
        let u1 := match u.selLink i g with | some o => u.pull o f.tid f.group.toNat | none => u
        u1.updFlow i g (fun x => { x with pausedTo := some (u.tick + us (clampN 1 10000 (plN f 4 2))) })
      else u.stopFlow i g 3 (plN f 4 2))))

/-- The limits and NEXT_RX_LSEQ of a CREDIT or an IDLE (R151, R152). -/
def State.credit (s : State) (l : Nat) (dl cl nrl : Nat) : State :=
  (s.updLink l (fun x => { x with dataLimit := BitVec.ofNat 16 dl, ctrlLimit := BitVec.ofNat 16 cl })).advance l (BitVec.ofNat 10 nrl)

/-- CREDIT_FRAME (R151, R152). -/
def execCreditFrame (l : LinkId) (f : Frame) (s : State) : Host.Outcome State Fault Refusal :=
  .next (s.rxRow l.val 4 f (fun t => t.credit l.val (plN f 0 2) (plN f 2 2) (plN f 4 2)))

/-- IDLE_FRAME (R150-R152). -/
def execIdleFrame (l : LinkId) (f : Frame) (s : State) : Host.Outcome State Fault Refusal :=
  .next (s.rxRow l.val 5 f (fun t =>
    (t.updLink l.val (fun x => { x with epoch := BitVec.ofNat 32 (plN f 0 4) })).credit l.val (plN f 4 2) (plN f 6 2) (plN f 8 2)))

/-! ## Probes (R149) -/

/-- A PROBE received in PROBING. -/
def State.probing (s : State) (l : Nat) (f : Frame) : State :=
  let sender : W16 := BitVec.ofNat 16 (plN f 4 2)
  let ok : Bool := !s.grouped l || sender = s.linkPartner l
  let s1 := (s.cntLink l 11 1).updLink l (fun x => { x with lastRx := s.tick, seen := if frameAllowed f then sender else x.seen, miswire := if frameAllowed f then !ok else x.miswire })
  if !frameAllowed f || !ok then s1.badFrame l
  else
    let reply := f.flags.getLsbD 2
    let s2 := if reply then s1 else s1.sendProbe l true
    let s3 := s2.updLink l (fun x => { x with
      gotReply := x.gotReply || reply, sentReply := x.sentReply || !reply, epoch := BitVec.ofNat 32 (plN f 0 4),
      dataLimit := BitVec.ofNat 16 (plN f 12 2), ctrlLimit := BitVec.ofNat 16 (plN f 14 2) })
    if (s3.link l).gotReply && (s3.link l).sentReply then s3.toUp l else s3

/-- PROBE_FRAME (R149). -/
def execProbeFrame (l : LinkId) (f : Frame) (s : State) : Host.Outcome State Fault Refusal :=
  .next (s.when (s.live && f.type = 6) (fun t =>
    if (t.link l.val).state = LState.probing then t.probing l.val f
    else t.rxRow l.val 6 f (fun u =>
      let u1 := u.updLink l.val (fun x => { x with seen := BitVec.ofNat 16 (plN f 4 2), epoch := BitVec.ofNat 32 (plN f 0 4) })
      if f.flags.getLsbD 2 then u
      else if (u.link l.val).rxOther then u1.linkTo l.val .down 5
      else u1.sendProbe l.val true)))

/-! ## Questions (R121, R134, R165, R166) -/

/-- The answer to a partner's QUERY (Table 4.7): 1 IN_PROGRESS, 2 COMMIT, 3 CANCEL, 4 PENDING, 5 NO_RECORD. -/
def State.answer (s : State) (t : W32) : Nat :=
  let e := s.entry (tidIdx t)
  if s.tidLive t then
    (if e.stale then 4 else if e.state.pre then 1 else if e.state == .aborted then 3 else 2)
  else if s.hasNote t false then 3
  else if s.hasNote t true then 2
  else match s.tly.decided.find? (fun d => d.1 = t) with
    | some d => if d.2 then 2 else 3
    | none =>
      if s.inWindow t || s.tly.inDoubt.any (fun d => d.tid = t) then 4
      else if s.tly.blank then 5 else 2

/-- The answer to a question goes on the link it arrived on (R165). -/
def State.answerQuery (s : State) (l : Nat) (f : Frame) : State :=
  s.queueFrame l { f with
    flags := 4, lseq := 0, seq := 0, partner := s.linkPartner l, payload := leBytes (s.answer f.tid) 8 }

/-- A report in a question or an answer (Table 5.10). -/
def State.takeReport (s : State) (f : Frame) : State :=
  if f.payload.length = 8 then
    s.partnerReport f.tid f.group.toNat (plN f 0 1) [plN f 2 2, plN f 4 2, plN f 6 2] f.tenant
  else s

/-- QUERY_FRAME (R121, R134, R165). -/
def execQueryFrame (l : LinkId) (f : Frame) (s : State) : Host.Outcome State Fault Refusal :=
  .next (s.rxRow l.val 7 f (fun t =>
    if !t.linkOkFor l.val f then t.badFrame l.val
    else if f.flags.getLsbD 2 then
      (t.setTly (fun y => { y with outMsgs := y.outMsgs.filter (fun m => !(m.tid = f.tid && m.group = f.group && m.type = 7)) })).takeReport f
    else (t.answerQuery l.val f).takeReport f))

/-! ## Timers and sending -/

/-- IDLE_INTERVAL (R150): an IDLE on every UP link every 100 µs. -/
def execIdleInterval (s : State) : Host.Outcome State Fault Refusal :=
  .next (s.when (s.live && s.ch.lastIdle + us 100 ≤ s.tick) (fun t =>
    let ls := (t.ch.links.filter (fun x => x.2.state == .up)).map (fun x => x.1)
    (ls.foldl (fun (u : State) (l : Nat) => u.sendIdle l) t).setCh (fun c => { c with lastIdle := t.tick })))

/-- CREDIT_REPORT_TIMER (R152): 10 µs after a sequenced frame not yet reported. -/
def execCreditReportTimer (l : LinkId) (s : State) : Host.Outcome State Fault Refusal :=
  let due : Bool := match (s.link l.val).unreported with | some t => t + us 10 ≤ s.tick | none => false
  .next (s.when (s.live && s.linkUp l.val && due) (fun t => t.sendCredit l.val))

/-- REPLAY_TIMEOUT (R152). -/
def execReplayTimeout (l : LinkId) (s : State) : Host.Outcome State Fault Refusal :=
  let x := s.link l.val
  let due : Bool := match x.sent with | f :: _ => f.since + us x.cfg.replayTimeout.toNat < s.tick | [] => false
  .next (s.when (s.live && s.linkUp l.val && due) (fun t => t.replay l.val))

/-- The head of a link's queue may be sent: credits and window (R151, R152). -/
def Link.mayTx (x : Link) (ctrl : Bool) : Bool :=
  (x.txLseq - x.ackLseq).toNat < 512 &&
    (if ctrl then !x.ctrlQ.isEmpty && 1 ≤ (x.ctrlLimit - x.ctrlUsed).toNat
     else match x.dataQ with | q :: _ => frameUnits q.f ≤ (x.dataLimit - x.dataUsed).toNat | [] => false)

/-- A DATA frame of the transaction layer has left: it counts as sent, and its wait for an ACK begins (R158, R169). -/
def State.markSent (s : State) (f : Frame) : State :=
  let i := tidIdx f.tid
  match (s.entry i).slotOf f.group.toNat with
  | some g =>
    if s.tidLive f.tid then
      s.updFlow i g (fun x => { x with stored := x.stored.map (fun y => if y.f.seq = f.seq then { y with sent := true, since := s.tick } else y) })
    else s
  | none => s

/-- Send a sequenced frame with the next LSEQ; an armed link inverts its CRC trailer (R152, Table 14.6). -/
def State.transmit (s : State) (l : Nat) (q : Queued) : State :=
  let x := s.link l
  let u := uLink l
  let bad := s.armed u 0xFFFFFFFF
  let f := { q.f with lseq := x.txLseq }
  let s1 := s.updLink l (fun y => { y with
    txLseq := y.txLseq + 1, sent := y.sent ++ [⟨f, s.tick, q.built⟩],
    dataUsed := if f.type = 1 then y.dataUsed + BitVec.ofNat 16 (frameUnits f) else y.dataUsed,
    ctrlUsed := if f.type = 1 then y.ctrlUsed else y.ctrlUsed + 1 })
  let s2 := if bad then s1.setFlt (fun z => { z with inj := z.inj.map (fun j => if j.unit.toNat = u then { j with fired := true } else j) }) else s1
  (if f.type = 1 then s2.markSent f else s2).wire l f (if bad then BitVec.ofNat 32 (s.injMaskOf u) else 0)

/-- Stored DATA frames of slot g of the entry at i that have reached FRAME_LIFE go: those unsent, or all where one of them was to be sent; counted on link l, and the group is treated as after RESEND_LIMIT (R158, R169). -/
def State.lifeOver (s : State) (l i g : Nat) (old : Stored → Bool) : State :=
  let n := (s.flow i g).stored.countP old
  ((s.updFlow i g (fun f => { f with stored := f.stored.filter (fun x => !old x) })).cntLink l 12 n).stopFlow i g 2 0

/-- A frame at the head of a queue that has reached FRAME_LIFE is not transmitted (R169); a stored DATA frame is handled as one that expired unsent. -/
def State.tooOld (s : State) (l : Nat) (f : Frame) : State :=
  if f.type = 1 && s.tidLive f.tid then
    match (s.entry (tidIdx f.tid)).slotOf f.group.toNat with
    | some g => s.lifeOver l (tidIdx f.tid) g (fun x => x.f.seq = f.seq)
    | none => s
  else s

/-- FRAME_TRANSMIT (R151, R152, R169): the frame at the head of the link's data or control queue. -/
def execFrameTransmit (l : LinkId) (ctrl : Bool) (s : State) : Host.Outcome State Fault Refusal :=
  .next (s.when (s.live && s.linkUp l.val && (s.link l.val).mayTx ctrl) (fun t =>
    match (if ctrl then (t.link l.val).ctrlQ else (t.link l.val).dataQ) with
    | q :: r =>
      let t1 := t.updLink l.val (fun x => if ctrl then { x with ctrlQ := r } else { x with dataQ := r })
      if t.young q.built then t1.transmit l.val q else t1.tooOld l.val q.f
    | [] => t))

/-- ACK_TIMEOUT (R158). -/
def execAckTimeout (i : TlyIx) (g : GSlot) (s : State) : Host.Outcome State Fault Refusal :=
  let f := s.flow i.val g.val
  let due : Bool := match f.stored with | x :: _ => x.sent && x.since + us f.timeout ≤ s.tick | [] => false
  .next (s.when (s.live && (s.flowLive i.val || (s.entry i.val).state == .opened) && !f.stopped && f.pausedTo.isNone && due)
    (fun t => t.resendFlow i.val g.val))

/-- BUSY_RETRY_EXPIRY (R159). -/
def execBusyRetryExpiry (i : TlyIx) (g : GSlot) (s : State) : Host.Outcome State Fault Refusal :=
  let f := s.flow i.val g.val
  let due : Bool := match f.pausedTo with | some t => t ≤ s.tick | none => false
  .next (s.when (s.live && s.flowLive i.val && !f.stopped && due) (fun t => t.resendFlow i.val g.val))

/-- A message is due again: ACK_TIMEOUT of the link it last used has passed (R164, R165). -/
def State.msgDue (s : State) (m : OutMsg) : Bool :=
  !m.sent ||
    (match (s.group m.group.toNat).linkAt m.link with
      | some l => m.lastSend + us (s.link l).cfg.ackTimeout.toNat ≤ s.tick
      | none => true)

/-- Send an unanswered message again, on the next UP link of its group (R164, R165). -/
def State.sendAgain (s : State) (tid : W32) (g : Nat) (query : Bool) : State :=
  match s.tly.outMsgs.find? (fun m => m.tid = tid && m.slot = g && (m.type = 7) == query) with
  | none => s
  | some m =>
    if s.msgDue m then
      match s.nextLink m.group.toNat m.link with
      | some x => s.sendMsg m x.1 x.2
      | none => s
    else s

/-- OUTCOME_RESEND (R164). -/
def execOutcomeResend (tid : W32) (g : GSlot) (s : State) : Host.Outcome State Fault Refusal :=
  .next (s.when s.live (fun t => t.sendAgain tid g.val false))

/-- QUERY_RESEND (R165). -/
def execQueryResend (tid : W32) (g : GSlot) (s : State) : Host.Outcome State Fault Refusal :=
  .next (s.when s.live (fun t => t.sendAgain tid g.val true))

/-- FRAME_LIFE_EXPIRY (R169): stored DATA frames unsent for FRAME_LIFE go. -/
def execFrameLifeExpiry (i : TlyIx) (g : GSlot) (s : State) : Host.Outcome State Fault Refusal :=
  let old := fun (x : Stored) => !x.sent && x.built + ms s.ch.frameLife.toNat ≤ s.tick
  .next (s.when (s.live && (s.flowLive i.val || (s.entry i.val).state == .opened) && (s.flow i.val g.val).stored.any old) (fun t =>
    t.lifeOver ((t.selLink i.val g.val).getD 0) i.val g.val old))

/-- CH_CNT_CLEAR (Table 5.12). -/
def execChCntClear (p : PortId) (l : LinkId) (val : W32) (s : State) : Host.Outcome State Fault Refusal :=
  .next (s.when (s.whoOk (.pf p) && val.getLsbD 0) (fun t => t.updLink l.val (fun x => { x with cnt := [] })))

/-- A received frame fails step 1: counted; a link NAK on an UP link (Table 5.5, R152). -/
def State.fail1 (s : State) (l : Nat) : State :=
  let s1 := s.cntLink l 3 1
  if s.linkUp l then s1.sendNak l else s1

/-- FRAMING_ERROR (Table 5.5, steps 1 and 2), on a link that is PROBING or UP. Bytes that pass both steps are a frame of its own row. The codewords that RS-FEC corrects or cannot correct are counted while FEC is on (DEDUCED from the counters' names, log 98). -/
def execFramingError (l : LinkId) (framed : Bool) (ev : RxEvent) (s : State) : Host.Outcome State Fault Refusal :=
  .next (s.when (s.live && (s.linkUp l.val || (s.link l.val).state == .probing)) (fun t =>
    match ev with
    | .fec a b => if (t.link l.val).cfg.fec then (t.cntLink l.val 7 a.toNat).cntLink l.val 8 b.toNat else t
    | .bytes bs =>
      match (if framed then readFrame bs else RxFrame.broken) with
      | .broken => t.fail1 l.val
      | .bad n => t.fail2 l.val n
      | .frame _ => t))

end Sys2Proof.Machine
end

