-- ==== Sys2Proof/Machine/Flags.lean ====
section
/-! DEFINITION. What the function units compute, with their flags: the ALU and the multiplier (R214-R217), floating point (R218-R225), and the arithmetic of the long operations (R217, R228). -/

namespace Sys2Proof.Machine

/-- A unit's result: value, and the bits of window 0 it changes (mask and new bits). -/
structure UnitOut where
  val : W64
  mask : Nat
  bits : Nat
deriving DecidableEq, Repr

/-! ## The ALU (R214-R216) -/

/-- The two's complement value of a 64-bit word. -/
def sgn64 (v : Nat) : Int := if v < 2 ^ 63 then (v : Int) else (v : Int) - 2 ^ 64

/-- A signed value lies outside 64 bits. -/
def ovf64 (v : Int) : Bool := v < -(2 ^ 63) || 2 ^ 63 ≤ v

/-- The four ALU flags of a result (Table 7.1): CARRY 0, OVF 1, ZERO 2, NEG 3. -/
def aluFlags (carry ovf : Bool) (v : Nat) : Nat := fields [(0, b2n carry), (1, b2n ovf), (2, b2n (v = 0)), (3, bitsOf v 63 1)]

/-- A result that changes the four flags. -/
def aluOut (carry ovf : Bool) (v : Nat) : UnitOut := ⟨BitVec.ofNat 64 v, 0xF, aluFlags carry ovf (v % 2 ^ 64)⟩

/-- A result that changes no flag. -/
def plainOut (v : Nat) : UnitOut := ⟨BitVec.ofNat 64 v, 0, 0⟩

/-- A + T + carry-in (R214, R215). -/
def aluAddC (a t c : Nat) : UnitOut := aluOut (2 ^ 64 ≤ a + t + c) (ovf64 (sgn64 a + sgn64 t + c)) (a + t + c)

/-- A - T - borrow-in (R214, R215). -/
def aluSubB (a t c : Nat) : UnitOut := aluOut (a < t + c) (ovf64 (sgn64 a - sgn64 t - c)) (a + 2 ^ 64 + 2 ^ 64 - t - c)

/-- Shift left: CARRY is the last bit shifted out, 0 for a count of 0 (R216). -/
def aluShl (a n : Nat) : UnitOut := aluOut (n ≠ 0 && bitsOf a (64 - n) 1 = 1) false (a * 2 ^ n % 2 ^ 64)

/-- Shift right by n, logically or arithmetically (R216). -/
def aluShr (arith : Bool) (a n : Nat) : UnitOut :=
  let fill := if arith && bitsOf a 63 1 = 1 then 2 ^ 64 - 2 ^ (64 - n) else 0
  aluOut (n ≠ 0 && bitsOf a (n - 1) 1 = 1) false (a / 2 ^ n + fill)

/-- Rotate left (R216). -/
def aluRol (a n : Nat) : UnitOut :=
  let v := a * 2 ^ n % 2 ^ 64 + a / 2 ^ (64 - n)
  aluOut (n ≠ 0 && v % 2 = 1) false v

/-- The ALU operation of destination port d, 0x11 to 0x1F (Table 6.3), with the carry flag. -/
def aluOp (d : Nat) (a t : W64) (carry : Bool) : UnitOut :=
  let x := a.toNat
  let y := t.toNat
  let n := y % 64
  if d = 0x11 then aluAddC x y 0
  else if d = 0x12 then aluSubB x y 0
  else if d = 0x13 then aluOut false false (x &&& y)
  else if d = 0x14 then aluOut false false (x ||| y)
  else if d = 0x15 then aluOut false false (x ^^^ y)
  else if d = 0x16 then aluOut false false (a &&& ~~~ t).toNat
  else if d = 0x17 then aluShl x n
  else if d = 0x18 then aluShr false x n
  else if d = 0x19 then aluShr true x n
  else if d = 0x1A then aluRol x n
  else if d = 0x1B then plainOut (b2n (x = y))
  else if d = 0x1C then plainOut (b2n (sgn64 x < sgn64 y))
  else if d = 0x1D then plainOut (b2n (x < y))
  else if d = 0x1E then aluAddC x y (b2n carry)
  else aluSubB x y (b2n carry)

/-- The multiplier (Table 6.3, Table 7.2): 0x21 MUL.LO, 0x22 MUL.HIU, 0x23 MUL.HIS. -/
def mulOp (d : Nat) (a t : W64) : UnitOut :=
  if d = 0x21 then plainOut (a.toNat * t.toNat)
  else if d = 0x22 then plainOut (a.toNat * t.toNat / 2 ^ 64)
  else ⟨BitVec.ofInt 64 (sgn64 a.toNat * sgn64 t.toNat / 2 ^ 64), 0, 0⟩

/-! ## Integer long operations (R217, Table 7.8) -/

/-- DIVU: quotient and remainder. -/
def divu (a b : W64) : W64 × W64 := if b = 0 then (BitVec.allOnes 64, a) else (a / b, a % b)

/-- DIVS: truncation toward zero, the remainder with the dividend's sign. -/
def divs (a b : W64) : W64 × W64 :=
  if b = 0 then (BitVec.allOnes 64, a)
  else
    let x := sgn64 a.toNat
    let y := sgn64 b.toNat
    let q := (x.natAbs / y.natAbs : Nat)
    let r := (x.natAbs % y.natAbs : Nat)
    (BitVec.ofInt 64 (if (x < 0) == (y < 0) then (q : Int) else -(q : Int)), BitVec.ofInt 64 (if x < 0 then -(r : Int) else (r : Int)))

/-- Position of the lowest set bit, 64 for none. -/
def lowBit (v : Nat) : Nat := ((upTo 64).find? (fun k => bitsOf v k 1 = 1)).getD 64
/-- Position of the highest set bit, 64 for none. -/
def highBit (v : Nat) : Nat := ((upTo 64).reverse.find? (fun k => bitsOf v k 1 = 1)).getD 64

/-! ## Floating-point formats and operands (R218, R220, R222) -/

/-- A format: precision with the hidden bit, exponent bits. -/
structure FpFmt where
  p : Nat
  ebits : Nat
deriving DecidableEq, Repr

def fpD : FpFmt := ⟨53, 11⟩
def fpS : FpFmt := ⟨24, 8⟩

/-- Exponent bias. -/
def FpFmt.bias (f : FpFmt) : Nat := 2 ^ (f.ebits - 1) - 1
/-- Largest exponent field. -/
def FpFmt.emax (f : FpFmt) : Nat := 2 ^ f.ebits - 1
/-- Width of the fraction field. -/
def FpFmt.fbits (f : FpFmt) : Nat := f.p - 1
/-- The canonical quiet NaN (R220). -/
def FpFmt.nan (f : FpFmt) : Nat := f.emax * 2 ^ f.fbits + 2 ^ (f.fbits - 1)
def FpFmt.sign (f : FpFmt) (s : Bool) : Nat := b2n s * 2 ^ (f.fbits + f.ebits)
def FpFmt.inf (f : FpFmt) (s : Bool) : Nat := f.sign s + f.emax * 2 ^ f.fbits
def FpFmt.big (f : FpFmt) (s : Bool) : Nat := f.inf s - 1

/-- An operand as the units read it; a subnormal one is a zero (R222). Finite: sign, significand, exponent of its unit bit. -/
inductive FpVal where
  | nan (signalling : Bool)
  | inf (s : Bool)
  | zero (s : Bool)
  | fin (s : Bool) (m : Nat) (e : Int)
deriving DecidableEq, Repr

def FpVal.sign : FpVal → Bool | .nan _ => false | .inf s => s | .zero s => s | .fin s _ _ => s
def FpVal.isNan : FpVal → Bool | .nan _ => true | _ => false
def FpVal.isSnan : FpVal → Bool | .nan s => s | _ => false

/-- Decode an encoding: value, and whether it is subnormal. -/
def FpFmt.read (f : FpFmt) (v : Nat) : FpVal × Bool :=
  let frac := v % 2 ^ f.fbits
  let ex := bitsOf v f.fbits f.ebits
  let s : Bool := bitsOf v (f.fbits + f.ebits) 1 = 1
  if ex = f.emax then (if frac = 0 then .inf s else .nan (frac < 2 ^ (f.fbits - 1)), false)
  else if ex = 0 then (.zero s, frac ≠ 0)
  else (.fin s (frac + 2 ^ f.fbits) ((ex : Int) - f.bias - f.fbits), false)

/-- What an operation gives: encoding, and the conditions of R223. -/
structure FpOut where
  val : Nat
  /-- Subnormal operand. -/
  dn : Bool
  nv : Bool
  dz : Bool
  ovf : Bool
  tiny : Bool
  nx : Bool
deriving DecidableEq, Repr

def FpOut.plain (v : Nat) : FpOut := ⟨v, false, false, false, false, false, false⟩
def FpOut.invalid (v : Nat) : FpOut := ⟨v, false, true, false, false, false, false⟩

/-- Number of bits of a number below 2ⁿ. -/
def bitLenN : Nat → Nat → Nat
  | 0, _ => 0
  | n + 1, v => if v = 0 then 0 else 1 + bitLenN n (v / 2)

def bitLen (v : Nat) : Nat := bitLenN 4300 v

/-- Rounding away from the truncated value: by RM (Table 7.3), sign, lowest kept bit, the remainder against half, inexact. -/
def roundUp (rm : Nat) (s : Bool) (odd : Bool) (half : Ordering) (inexact : Bool) : Bool :=
  if rm = 0 then (half == .gt || (half == .eq && odd))
  else if rm = 1 then false
  else if rm = 2 then s && inexact
  else !s && inexact

/-- Drop the low n bits of m (with `more`: a nonzero amount below bit 0), rounded: the kept number and whether it was inexact. -/
def roundBits (rm : Nat) (s : Bool) (m n : Nat) (more : Bool) : Nat × Bool :=
  let q := m / 2 ^ n
  let r := m % 2 ^ n
  let half : Ordering := if n = 0 then .lt else
    if r < 2 ^ (n - 1) then .lt else if r = 2 ^ (n - 1) && !more then .eq else .gt
  let inexact := r ≠ 0 || more
  (if roundUp rm s (q % 2 = 1) half inexact then q + 1 else q, inexact)

/-- Round s·m·2^e (m nonzero; `more`: a further nonzero amount) to the format (R219, R222, R223). -/
def FpFmt.round (f : FpFmt) (rm : Nat) (s : Bool) (m : Nat) (e : Int) (more : Bool) : FpOut :=
  let l := bitLen m
  let n := l - f.p
  let up := f.p - l
  let (q0, inexact) := roundBits rm s (m * 2 ^ up) n more
  let carry := q0 = 2 ^ f.p
  let q := if carry then 2 ^ (f.p - 1) else q0
  let ex : Int := e + n - up + (if carry then 1 else 0) + (f.p - 1 : Nat) + f.bias
  if ex < 1 then ⟨f.sign s, false, false, false, false, true, true⟩
  else if (f.emax : Int) ≤ ex then
    ⟨if rm = 0 || (rm = 2 && s) || (rm = 3 && !s) then f.inf s else f.big s, false, false, false, true, false, true⟩
  else ⟨f.sign s + ex.toNat * 2 ^ f.fbits + (q - 2 ^ (f.p - 1)), false, false, false, false, false, inexact⟩

/-- A signed integer as a rounded value of the format; a zero takes the given sign. -/
def FpFmt.ofInt (f : FpFmt) (rm : Nat) (v : Int) (e : Int) (zero : Bool) : FpOut :=
  if v = 0 then .plain (f.sign zero) else f.round rm (v < 0) v.natAbs e false

/-! ## The operations (R219-R225) -/

/-- The NaN rule of R220 for two operands. -/
def FpFmt.nanOut (f : FpFmt) (a b : FpVal) : FpOut := { FpOut.plain f.nan with nv := a.isSnan || b.isSnan }

/-- A + B. -/
def FpFmt.addV (f : FpFmt) (rm : Nat) (a b : FpVal) : FpOut :=
  let zs : Bool := rm = 2
  match a, b with
  | .nan _, _ => f.nanOut a b
  | _, .nan _ => f.nanOut a b
  | .inf s, .inf t => if s = t then .plain (f.inf s) else .invalid f.nan
  | .inf s, _ => .plain (f.inf s)
  | _, .inf t => .plain (f.inf t)
  | .zero s, .zero t => .plain (f.sign (if s = t then s else zs))
  | .zero _, .fin t m e => f.round rm t m e false
  | .fin s m e, .zero _ => f.round rm s m e false
  | .fin s m e, .fin t n d =>
    let lo := min e d
    let x : Int := (m * 2 ^ (e - lo).toNat : Nat)
    let y : Int := (n * 2 ^ (d - lo).toNat : Nat)
    f.ofInt rm ((if s then -x else x) + (if t then -y else y)) lo zs

/-- The negated operand. -/
def FpVal.neg : FpVal → FpVal
  | .nan q => .nan q | .inf s => .inf (!s) | .zero s => .zero (!s) | .fin s m e => .fin (!s) m e

/-- A × B. -/
def FpFmt.mulV (f : FpFmt) (rm : Nat) (a b : FpVal) : FpOut :=
  let s := xor a.sign b.sign
  match a, b with
  | .nan _, _ => f.nanOut a b
  | _, .nan _ => f.nanOut a b
  | .inf _, .zero _ => .invalid f.nan
  | .zero _, .inf _ => .invalid f.nan
  | .inf _, _ => .plain (f.inf s)
  | _, .inf _ => .plain (f.inf s)
  | .zero _, _ => .plain (f.sign s)
  | _, .zero _ => .plain (f.sign s)
  | .fin _ m e, .fin _ n d => f.round rm s (m * n) (e + d) false

/-- A ÷ B. -/
def FpFmt.divV (f : FpFmt) (rm : Nat) (a b : FpVal) : FpOut :=
  let s := xor a.sign b.sign
  match a, b with
  | .nan _, _ => f.nanOut a b
  | _, .nan _ => f.nanOut a b
  | .inf _, .inf _ => .invalid f.nan
  | .zero _, .zero _ => .invalid f.nan
  | .inf _, _ => .plain (f.inf s)
  | _, .inf _ => .plain (f.sign s)
  | .zero _, _ => .plain (f.sign s)
  | _, .zero _ => { FpOut.plain (f.inf s) with dz := true }
  | .fin _ m e, .fin _ n d => f.round rm s (m * 2 ^ 120 / n) (e - d - 120) (m * 2 ^ 120 % n ≠ 0)

/-- Square root. -/
def FpFmt.sqrtV (f : FpFmt) (rm : Nat) (a : FpVal) : FpOut :=
  match a with
  | .nan _ => f.nanOut a a
  | .zero s => .plain (f.sign s)
  | .inf s => if s then .invalid f.nan else .plain (f.inf false)
  | .fin s m e =>
    if s then .invalid f.nan
    else
      let k : Nat := if e % 2 = 0 then 120 else 121
      let v := m * 2 ^ k
      let r := rootN 2 v 90 0
      f.round rm false r ((e - k) / 2) (r * r ≠ v)

/-- Compare: 1 less, 2 equal, 4 greater, 8 unordered (R224). -/
def FpVal.cmp (a b : FpVal) : Nat :=
  let key := fun (x : FpVal) => match x with
    | .fin s m e => (if s then (-1 : Int) else 1) * ((m * 2 ^ (e + 1100).toNat : Nat) : Int)
    | .inf s => (if s then (-1 : Int) else 1) * (2 ^ 2300 : Nat)
    | _ => 0
  if a.isNan || b.isNan then 8 else if key a < key b then 1 else if key a = key b then 2 else 4

/-- A value rounded to an integer by RM: the integer and whether it was inexact. -/
def FpVal.toInt (rm : Nat) : FpVal → Int × Bool
  | .fin s m e =>
    let (q, nx) := if 0 ≤ e then (m * 2 ^ e.toNat, false) else roundBits rm s m (-e).toNat false
    (if s then -(q : Int) else q, nx)
  | _ => (0, false)

/-- A conversion to an integer of the range lo to hi, with the values of Table 7.4 outside it. -/
def toIntOut (rm : Nat) (v : FpVal) (lo hi : Int) (neg nanV : Int) : FpOut :=
  let enc := fun (x : Int) => (BitVec.ofInt 64 x).toNat
  match v with
  | .nan _ => .invalid (enc nanV)
  | .inf s => .invalid (enc (if s then neg else hi))
  | _ =>
    let (q, nx) := v.toInt rm
    if q < lo then .invalid (enc neg) else if hi < q then .invalid (enc hi) else { FpOut.plain (enc q) with nx := nx }

/-- Another format's value. -/
def FpFmt.conv (f : FpFmt) (rm : Nat) (v : FpVal) : FpOut :=
  match v with
  | .nan _ => f.nanOut v v
  | .inf s => .plain (f.inf s)
  | .zero s => .plain (f.sign s)
  | .fin s m e => f.round rm s m e false

/-- roundToIntegral (kind 0x9): no NX. -/
def FpFmt.integral (f : FpFmt) (rm : Nat) (v : FpVal) : FpOut :=
  match v with
  | .fin s _ _ =>
    let q := (v.toInt rm).1
    if q = 0 then .plain (f.sign s) else { f.round 0 s q.natAbs 0 false with nx := false }
  | _ => f.conv rm v

/-- FCVT by kind (Table 7.4). -/
def fcvtOp (kind rm t : Nat) : FpOut :=
  let d := fpD.read t
  let s := fpS.read (t % 2 ^ 32)
  let dn := fun (o : FpOut) (b : Bool) => { o with dn := b }
  if kind = 0 then dn (fpS.conv rm d.1) d.2
  else if kind = 1 then dn (fpD.conv rm s.1) s.2
  else if kind = 2 then dn (toIntOut rm d.1 (-(2 ^ 63)) (2 ^ 63 - 1) (-(2 ^ 63)) (-(2 ^ 63))) d.2
  else if kind = 3 then dn (toIntOut 1 d.1 (-(2 ^ 63)) (2 ^ 63 - 1) (-(2 ^ 63)) (-(2 ^ 63))) d.2
  else if kind = 4 then dn (toIntOut rm d.1 0 (2 ^ 64 - 1) 0 0) d.2
  else if kind = 5 then fpD.ofInt rm (sgn64 t) 0 false
  else if kind = 6 then fpD.ofInt rm t 0 false
  else if kind = 7 then dn (toIntOut rm s.1 (-(2 ^ 31)) (2 ^ 31 - 1) (-(2 ^ 31)) (-(2 ^ 31))) s.2
  else if kind = 8 then fpS.ofInt rm (if t % 2 ^ 32 < 2 ^ 31 then ((t % 2 ^ 32 : Nat) : Int) else ((t % 2 ^ 32 : Nat) : Int) - 2 ^ 32) 0 false
  else if kind = 9 then dn (fpD.integral rm d.1) d.2
  else .invalid 0

/-- A two-operand operation of a format on encodings: 0 add, 1 subtract, 2 multiply, 3 divide, 4 square root of the first. -/
def FpFmt.op (f : FpFmt) (k rm a t : Nat) : FpOut :=
  let x := f.read a
  let y := f.read t
  let o := if k = 0 then f.addV rm x.1 y.1 else if k = 1 then f.addV rm x.1 y.1.neg else if k = 2 then f.mulV rm x.1 y.1
    else if k = 3 then f.divV rm x.1 y.1 else f.sqrtV rm x.1
  { o with dn := x.2 || (k ≠ 4 && y.2) }

/-- The comparison on encodings (R224). -/
def FpFmt.cmpOp (f : FpFmt) (a t : Nat) : FpOut :=
  let x := f.read a
  let y := f.read t
  { FpOut.plain (x.1.cmp y.1) with dn := x.2 || y.2, nv := x.1.isSnan || y.1.isSnan }

/-- An operand of a format taken from a value (R218). -/
def FpFmt.take (f : FpFmt) (v : W64) : Nat := v.toNat % 2 ^ (f.p + f.ebits)

/-- The FP pipelines by destination port 0x25 to 0x2D (Table 6.3), with RM. -/
def fpOp (d rm : Nat) (a t : W64) : FpOut :=
  if d = 0x25 then fpD.op 0 rm a.toNat t.toNat
  else if d = 0x26 then fpD.op 1 rm a.toNat t.toNat
  else if d = 0x27 then fpS.op 0 rm (fpS.take a) (fpS.take t)
  else if d = 0x28 then fpS.op 1 rm (fpS.take a) (fpS.take t)
  else if d = 0x29 then fpD.op 2 rm a.toNat t.toNat
  else if d = 0x2A then fpS.op 2 rm (fpS.take a) (fpS.take t)
  else if d = 0x2B then fpD.cmpOp a.toNat t.toNat
  else if d = 0x2C then fpS.cmpOp (fpS.take a) (fpS.take t)
  else fcvtOp (a.toNat % 16) rm t.toNat

/-- The FP long operations, codes 3 to 6 (Table 7.8). -/
def fpLong (code rm : Nat) (a b : W64) : FpOut :=
  if code = 3 then fpD.op 3 rm a.toNat b.toNat
  else if code = 4 then fpS.op 3 rm (fpS.take a) (fpS.take b)
  else if code = 5 then fpD.op 4 rm a.toNat 0
  else fpS.op 4 rm (fpS.take a) 0

/-! ## Traps and sticky flags (R221-R223) -/

def fpRm (fpctl : W32) : Nat := fpctl.toNat % 4
def fpSubn (fpctl : W32) : Bool := fpctl.getLsbD 2

/-- An FP trap is enabled (R206, R221). -/
def fpTraps (fpctl : W32) : Bool := fpSubn fpctl || bitsOf fpctl.toNat 4 5 ≠ 0

/-- TCAUSE of the first condition that traps (R223), 0 for none. -/
def fpCause (fpctl : W32) (o : FpOut) : Nat :=
  let subn := fpSubn fpctl
  if o.dn && subn then 6
  else if o.nv && fpctl.getLsbD 8 then 1
  else if o.dz && fpctl.getLsbD 7 then 2
  else if o.ovf && fpctl.getLsbD 6 then 3
  else if o.tiny && subn then 7
  else if o.tiny && fpctl.getLsbD 5 then 4
  else if o.nx && fpctl.getLsbD 4 then 5
  else 0

/-- The sticky flags an untrapped operation sets (bits 22 and 21:17). -/
def fpSticky (o : FpOut) : Nat :=
  fields [(22, b2n o.dn), (21, b2n o.nv), (20, b2n o.dz), (19, b2n o.ovf), (18, b2n o.tiny), (17, b2n o.nx)]

/-- The compare flags: FLT, FEQ, FUN in bits 23 to 25 (R224). -/
def cmpBits (v : Nat) : Nat := fields [(23, v % 2), (24, bitsOf v 1 1), (25, bitsOf v 3 1)]

/-- The result of an FP pipeline with its flags. -/
def fpUnit (d rm : Nat) (a t : W64) : UnitOut :=
  let o := fpOp d rm a t
  let st := fpSticky o
  if d = 0x2B || d = 0x2C then ⟨BitVec.ofNat 64 o.val, st ||| 0x3800000, st ||| cmpBits o.val⟩
  else ⟨BitVec.ofNat 64 o.val, st, st⟩

/-- Latency of a trigger port and the result port it feeds (Table 6.3). -/
def latency (d : Nat) : Nat :=
  if d < 0x20 then 1 else if d < 0x24 then 3 else if d < 0x29 then 4 else if d < 0x2B then 5 else if d < 0x2D then 2 else 4

def portOf (d : Nat) : RPort :=
  if d < 0x20 then .alu else if d < 0x24 then .mul else if d < 0x29 then .fadd else if d < 0x2B then .fmul
  else if d < 0x2D then .fcmp else if d = 0x2D then .fcvt else .lsu

end Sys2Proof.Machine
end

