-- ==== Sys2Proof/Machine/Operands.lean ====
section
/-! DEFINITION. The move: words, source and destination ports, the bit space, legality (R171-R184, R194). -/

namespace Sys2Proof.Machine

/-! ## Words (R173, R178, R179, R184) -/

/-- Destination and source field of a word (R173). -/
def dstOf (w : Nat) : Nat := w / 128
def srcOf (w : Nat) : Nat := w % 128

/-- Sources that Table 6.2 does not mark reserved. -/
def srcLegal (p : Nat) : Bool := p < 0x2B || (0x40 ≤ p && p < 0x70) || p = 0x7E

/-- Destinations that Table 6.3 does not mark reserved. -/
def dstLegal (d : Nat) : Bool := d < 0x66 || d = 0x67 || d = 0x68 || (0x6D ≤ d && d ≤ 0x70)

/-- Control opcodes that Table 6.4 assigns. -/
def ctlLegal (p : Nat) : Bool := p < 0x57 || p = 0x7F

/-- The word itself is assigned (R184). -/
def wordLegal (w : Nat) : Bool := if dstOf w = 0x7F then ctlLegal (srcOf w) else dstLegal (dstOf w) && srcLegal (srcOf w)

/-- A program-memory word: an image's, the library's, or the loader's fill (R184, R207). -/
def State.progWord (s : State) (a : Nat) : Nat :=
  if 0x7000 ≤ a then (Config.libWord (a - 0x7000)).toNat else (Sp.look s.eng.prog 0x3FFE a).toNat

/-- The word at address a as cluster c stores it, with its check bits in bits 15:14 (R177). -/
def State.progStored (s : State) (c a : Nat) : W16 := BitVec.ofNat 16 (checked 7 (s.progWord a)) ^^^ Sp.look (s.engCl c).badProg 0 a

/-- The check bits of the stored word do not match: it is never executed (R177). -/
def State.progFails (s : State) (c a : Nat) : Bool := !checksOk 7 (s.progStored c a).toNat

/-- The word after address a (R174). -/
def nextAddr (a : BitVec 15) : BitVec 15 := a + 1

/-! ## The bit space (R194, Table 6.7) -/

/-- Bits a program may write. -/
def bitRW (i : Nat) : Bool := i < 4 || i = 6 || i = 8 || i = 9 || (17 ≤ i && i < 23) || 256 ≤ i

/-- Bit i as a program reads it: bits 10 to 13 show the queues. -/
def Eng.bit (x : Eng) (i : Nat) : Bool :=
  if i = 10 then !x.evq.isEmpty
  else if i = 11 then decide (x.chQ.length < 8)
  else if i = 12 then decide (x.galQ.length < 8)
  else if i = 13 then decide (x.cphQ.length < 8)
  else x.bits.getLsbD i

/-- The window BWIN selects. -/
def Eng.window (x : Eng) : Nat := fields ((upTo 32).map (fun k => (k, b2n (x.bit (32 * x.bwin.toNat + k)))))

/-- Set bit i to v whatever its access. -/
def Eng.putBit (x : Eng) (i : Nat) (v : Bool) : Eng :=
  { x with bits := if v then x.bits ||| BitVec.ofNat 4096 (1 <<< i) else x.bits &&& ~~~ (BitVec.ofNat 4096 (1 <<< i)) }

/-- A program's write of bit i: ignored where it is read-only or reserved (R184). -/
def Eng.wrBit (x : Eng) (i : Nat) (v : Bool) : Eng := if bitRW i then x.putBit i v else x

/-- A program's write of the window (R194). -/
def Eng.wrWindow (x : Eng) (v : Nat) : Eng :=
  (upTo 32).foldl (fun y k => y.wrBit (32 * y.bwin.toNat + k) (bitsOf v k 1 = 1)) x

/-- Change the bits of window 0 under a mask: a unit's flags (R194). -/
def Eng.unitBits (x : Eng) (mask bits : Nat) : Eng :=
  if mask = 0 then x
  else { x with bits := (x.bits &&& ~~~ (BitVec.ofNat 4096 mask)) ||| BitVec.ofNat 4096 (bits &&& mask) }

/-! ## Sources (Table 6.2) -/

/-- The value source port p reads; reading EVQ here does not remove the event (R178). -/
def State.srcRead (s : State) (e p : Nat) : W64 :=
  let x := s.le e
  if p < 0x10 then Sp.look x.g 0 p
  else if p < 0x20 then BitVec.ofNat 64 (p - 0x10)
  else if p = 0x20 then x.ports.alu
  else if p = 0x21 then x.ports.mul
  else if p = 0x22 then x.ports.fadd
  else if p = 0x23 then x.ports.fmul
  else if p = 0x24 then x.ports.fcmp
  else if p = 0x25 then x.ports.fcvt
  else if p = 0x26 then x.ports.lsu
  else if p = 0x27 then x.lat.lsuAddr.setWidth 64
  else if p = 0x28 then x.ports.lou0
  else if p = 0x29 then x.ports.lou1
  else if p = 0x2A then x.brLink.setWidth 64
  else if p < 0x60 then BitVec.ofNat 64 (b2n (x.bit (32 * x.bwin.toNat + (p - 0x40))))
  else if p = 0x60 then x.bwin.setWidth 64
  else if p = 0x61 then BitVec.ofNat 64 x.window
  else if p = 0x62 then x.trap.vec.setWidth 64
  else if p = 0x63 then x.trap.etpc.setWidth 64
  else if p = 0x64 then x.trap.erpc1.setWidth 64
  else if p = 0x65 then x.trap.erpc2.setWidth 64
  else if p = 0x66 then x.trap.ecause.setWidth 64
  else if p = 0x67 then x.trap.ercnt.setWidth 64
  else if p = 0x68 then x.fpctl.setWidth 64
  else if p = 0x69 then BitVec.ofNat 64 s.tick
  else if p = 0x6A then x.steps
  else if p = 0x6B then x.work
  else if p = 0x6C then x.evq.headD 0
  else if p = 0x6D then BitVec.ofNat 64 (8 - x.chQ.length)
  else if p = 0x6E then BitVec.ofNat 64 (8 - x.galQ.length)
  else if p = 0x6F then BitVec.ofNat 64 (8 - x.cphQ.length)
  else x.limm

/-! ## Destinations without a trigger (Table 6.3) -/

/-- A destination that only takes a value: a register, an operand latch, a bit or a special port. -/
def plainDst (d : Nat) : Bool :=
  d ≤ 0x10 || d = 0x20 || d = 0x24 || d = 0x2E || d = 0x2F || d = 0x38 || d = 0x39 || d = 0x3B || (0x40 ≤ d && d < 0x66) ||
    d = 0x67 || d = 0x68

/-- Write a value to such a port: it takes the low bits it has (R172, R176). -/
def Eng.dstWrite (x : Eng) (d : Nat) (v : W64) : Eng :=
  if d < 0x10 then { x with g := Sp.put x.g 0 d v }
  else if d = 0x10 then { x with lat := { x.lat with aluA := v } }
  else if d = 0x20 then { x with lat := { x.lat with mulA := v } }
  else if d = 0x24 then { x with lat := { x.lat with fpA := v } }
  else if d = 0x2E then { x with lat := { x.lat with lsuAddr := v.setWidth 48, lsuAuto := false } }
  else if d = 0x2F then { x with lat := { x.lat with lsuAddr := v.setWidth 48, lsuAuto := true } }
  else if d = 0x38 then { x with lat := { x.lat with louA := v } }
  else if d = 0x39 then { x with lat := { x.lat with louB := v } }
  else if d = 0x3B then { x with lat := { x.lat with brCond := v.setWidth 13 } }
  else if d < 0x60 then x.wrBit (32 * x.bwin.toNat + (d - 0x40)) (v.getLsbD 0)
  else if d = 0x60 then { x with bwin := v.setWidth 7 }
  else if d = 0x61 then x.wrWindow v.toNat
  else if d = 0x62 then { x with trap := { x.trap with vec := v.setWidth 15 } }
  else if d = 0x63 then { x with trap := { x.trap with etpc := v.setWidth 15 } }
  else if d = 0x64 then { x with trap := { x.trap with erpc1 := v.setWidth 15 } }
  else if d = 0x65 then { x with trap := { x.trap with erpc2 := v.setWidth 15 } }
  else if d = 0x67 then { x with trap := { x.trap with ercnt := v.setWidth 16 } }
  else if d = 0x68 then { x with fpctl := v.setWidth 32 &&& 0x71F7 }
  else x

/-! ## Long immediates, repeats (R182, R190) -/

/-- IMMX n: a run extends the latch, otherwise it starts again (R182). -/
def Eng.immxStep (x : Eng) (n : Nat) : W64 := if x.immx then BitVec.ofNat 64 (x.limm.toNat * 64 + n) else BitVec.ofNat 64 n

/-- The count of REPEAT G: register Gm, saturated at 65,535 (R190). -/
def Eng.repCount (x : Eng) (m : Nat) : Nat := min (Sp.look x.g 0 m).toNat 65535

end Sys2Proof.Machine
end

