-- ==== Sys2Proof/Machine/Micro.lean ====
section
/-! DEFINITION. The microcode of the long-operation unit: the micro store, nano store and dispatch table with an installed patch, and the sequencer that executes microwords, raises micro-traps and runs their handlers (R233-R241). -/

namespace Sys2Proof.Machine

/-! ## The stores (R233, R237, R241) -/

/-- Codes of Table 7.8. -/
def louAssigned (c : Nat) : Bool := (1 ≤ c && c ≤ 10) || (0x10 ≤ c && c ≤ 0x13)

/-- Entry c of the dispatch ROM (Table 7.14): VALID for the codes of Table 7.8; the handlers of MCAUSE 1-4; nothing else. -/
def dispRom (c : Nat) : Nat :=
  if louAssigned c then 0x8000 + (Config.microEntry c).toNat else if 0xF1 ≤ c && c ≤ 0xF4 then (Config.microHandler (c - 0xF0)).toNat else 0

/-- An override that would make a code valid that Table 7.8 does not assign, or entry 0xF0 or 0xF5-0xFF, is not applied (R241). -/
def overrideOk (c v : Nat) : Bool := louAssigned c || (0xF1 ≤ c && c ≤ 0xF4) || v < 0x8000

/-- Entry c of the dispatch table: the patch's, where it overrides, else the ROM's (R237, R241). -/
def EngArr.dispAt (g : EngArr) (c : Nat) : Nat :=
  match Sp.look g.disp none c with
  | some v => if overrideOk c v.toNat then v.toNat else dispRom c
  | none => dispRom c

/-- The entry is VALID (Table 7.14). -/
def EngArr.dispValid (g : EngArr) (c : Nat) : Bool := 0x8000 ≤ g.dispAt c

/-- The microword fetched at address a: a hook of the patch comes first, the one of lowest index (R241). -/
def EngArr.microAt (g : EngArr) (a : BitVec 12) : Nat :=
  let b := match g.hooks.find? (fun h => h.1 = a) with | some h => h.2 | none => a
  if b.toNat < 0xC00 then (Config.microRom b.toNat).toNat else bitsOf (Sp.look g.ustore 0 b.toNat).toNat 0 20

/-- Nanoword k. -/
def EngArr.nanoAt (g : EngArr) (k : Nat) : Nat :=
  if k < 0x180 then (Config.nanoRom k).toNat else bitsOf (Sp.look g.nstore 0 k).toNat 0 96

/-- A nanoword with its check bits above it (R233). -/
def nanoChecked (n : BitVec 96) : BitVec 104 := Config.nanoCheck n ++ n

/-! ## The fields of a nanoword (Table 7.11) -/

def nOp (n : Nat) : Nat := bitsOf n 90 6
def nSrcA (n : Nat) : Nat := bitsOf n 84 6
def nSrcB (n : Nat) : Nat := bitsOf n 78 6
def nDest (n : Nat) : Nat := bitsOf n 72 6
def nCond (n : Nat) : Nat := bitsOf n 66 6
def nFlagW (n : Nat) : Nat := bitsOf n 62 4
def nWidth (n : Nat) : Nat := bitsOf n 60 2
def nCnt (n : Nat) : Nat := bitsOf n 56 4
def nConst (n : Nat) : Nat := bitsOf n 0 48

/-- OPSEL values that Table 7.12 assigns. -/
def opselOk (o : Nat) : Bool := o ≤ 0x14 || (0x18 ≤ o && o ≤ 0x1B) || o = 0x20 || o = 0x21 || o = 0x28 || o = 0x2C

/-- No field of the nanoword is reserved (R235). -/
def nanoOk (n : Nat) : Bool :=
  opselOk (nOp n) && nSrcA n ≤ 0x27 && nSrcB n ≤ 0x27 && (nDest n < 0x20 || nDest n = 0x22 || nDest n = 0x24 || nDest n = 0x27) &&
    nCond n < 12 && nCnt n < 4 && bitsOf n 48 5 = 0

/-! ## The sequencer (R233, R235, R238) -/

/-- A running operation's micro state: registers, counter, flags Z N C V (bits 3:0), call stack with the innermost first, memory and Tally latches, microwords executed; inside a handler, the call stack of the microcode it interrupted. -/
structure Mic where
  u : Sp W64
  mpc : BitVec 12
  cnt : W16
  flags : BitVec 4
  stack : List (BitVec 12)
  words : Nat
  addr : W64
  mem : W64
  poison : Bool
  reply : W64
  ask : W64
  handler : Option (List (BitVec 12))

/-- How microcode ends an operation: with the outcome of END, or by passing a micro-trap to the program (R235). -/
inductive MicEnd where
  | ended (outcome : Nat) (inHandler : Bool)
  | passed

/-- What one microword leads to. -/
inductive MicNext where
  | go (m : Mic)
  | done (m : Mic) (r : MicEnd)

/-- What the sequencer reads besides its own state: the operation, the stores, and 8 bytes of memory as a load of the program reads them (R230). -/
structure MicEnv where
  op : LongOp
  eng : EngArr
  read : Nat → W64 × Bool

/-- A source select (Table 7.11). -/
def Mic.src (m : Mic) (v : MicEnv) (k const : Nat) : W64 :=
  if k < 0x20 then Sp.look m.u 0 k
  else if k = 0x20 then v.op.a
  else if k = 0x21 then v.op.b
  else if k = 0x22 then BitVec.ofNat 64 const
  else if k = 0x23 then m.cnt.setWidth 64
  else if k = 0x24 then m.mem
  else if k = 0x25 then m.reply
  else if k = 0x26 then v.op.fpctl.setWidth 64
  else 0

/-- A value cut to the WIDTH of a nanoword. -/
def cutTo (w v : Nat) : Nat := v % 2 ^ (64 / 2 ^ w)

/-- Leading zeros of a 64-bit value. -/
def leadZeros (v : Nat) : Nat := if v = 0 then 64 else 63 - Nat.log2 v

/-- The result of the datapath (Table 7.12) and the flags Z N C V it gives; an operation that the table only names has a free value (log 9). -/
def Mic.datapath (m : Mic) (o w : Nat) (a b : W64) : W64 × BitVec 4 :=
  let alu := 1 ≤ o && o < 0x10
  let r := aluOp (0x10 + o) (BitVec.ofNat 64 (cutTo w a.toNat)) (BitVec.ofNat 64 (cutTo w b.toNat)) (m.flags.getLsbD 1)
  let v : Nat :=
    if o = 0 then a.toNat else if alu then r.val.toNat else if o = 0x13 then leadZeros (cutTo w a.toNat)
    else if o = 0x14 then popc 64 (cutTo w a.toNat) else (Config.microOp o w a b).toNat
  let c := cutTo w v
  let cv : BitVec 2 := if alu && w = 0 then BitVec.ofNat 2 (2 * bitsOf r.bits 0 1 + bitsOf r.bits 1 1) else Config.microFlags o w a b
  (BitVec.ofNat 64 c, BitVec.ofNat 4 (fields [(0, cv.toNat), (2, bitsOf c (64 / 2 ^ w - 1) 1), (3, b2n (c = 0))]))

/-- COND (Table 7.11). -/
def Mic.cond (m : Mic) (v : MicEnv) (k : Nat) : Bool :=
  if k = 0 then true
  else if k < 5 then m.flags.getLsbD (4 - k)
  else if k = 5 then m.cnt = 0
  else if k = 6 then m.poison
  else if k < 11 then Config.microCond k v.op.code.toNat v.op.a
  else fpSubn v.op.fpctl

/-- The datapath's work of nanoword n: result, destination, memory and Tally requests, counter, flags. -/
def Mic.work (m : Mic) (v : MicEnv) (n : Nat) : Mic :=
  let a := m.src v (nSrcA n) (nConst n)
  let b := m.src v (nSrcB n) (nConst n)
  let r := m.datapath (nOp n) (nWidth n) a b
  let d := nDest n
  let got := if nOp n = 0x28 then v.read m.addr.toNat else (m.mem, m.poison)
  let y := if nOp n = 0x28 then got.1 else if nOp n = 0x2C then Config.microTally m.ask else r.1
  { m with
    u := if d < 0x20 then Sp.put m.u 0 d y else m.u
    addr := if d = 0x22 then y else m.addr, ask := if d = 0x24 then y else m.ask
    mem := got.1, poison := got.2, reply := if nOp n = 0x2C then y else m.reply
    cnt := if nCnt n = 1 then a.setWidth 16 else if nCnt n = 2 then BitVec.ofNat 16 (nConst n) else if nCnt n = 3 then m.cnt - 1 else m.cnt
    flags := (m.flags &&& ~~~ (BitVec.ofNat 4 (nFlagW n))) ||| (r.2 &&& BitVec.ofNat 4 (nFlagW n)) }

/-- The frame of a micro-trap at microword w (Table 7.15). -/
def Mic.frame (m : Mic) (v : MicEnv) (w cause : Nat) : W64 :=
  BitVec.ofNat 64 (fields [(56, v.op.code.toNat), (48, cause), (36, m.mpc.toNat), (27, bitsOf w 9 9), (24, m.stack.length % 8), (8, m.cnt.toNat), (4, m.flags.toNat)])

/-- A micro-trap (R238): the frame in U30 and U31, and its handler; passed at once from inside a handler, or where the handler's entry is not VALID. -/
def Mic.trap (m : Mic) (v : MicEnv) (w cause detail : Nat) : MicNext :=
  let u := Sp.put (Sp.put m.u 0 30 (m.frame v w cause)) 0 31 (BitVec.ofNat 64 detail)
  if m.handler.isSome || !v.eng.dispValid (0xF0 + cause) then .done { m with u := u } .passed
  else .go { m with u := u, mpc := BitVec.ofNat 12 (v.eng.dispAt (0xF0 + cause)), stack := [], handler := some m.stack }

/-- RET with an empty stack in a handler: the microcode goes on at MPC, or after it, with what the frame in U30 holds (R238). -/
def Mic.resume (m : Mic) (saved : List (BitVec 12)) (past : Nat) : Mic :=
  let f := (Sp.look m.u 0 30).toNat
  { m with mpc := BitVec.ofNat 12 (bitsOf f 36 12 + past), cnt := BitVec.ofNat 16 (bitsOf f 8 16), flags := BitVec.ofNat 4 (bitsOf f 4 4)
           stack := saved.drop (saved.length - bitsOf f 24 3), handler := none }

/-- Where a microword with SEQ 0 to 3 goes next. -/
def Mic.goOn (m : Mic) (v : MicEnv) (w k : Nat) : Mic :=
  let far := m.mpc + 1 + (BitVec.ofNat 6 w).signExtend 12
  let taken : Bool := if bitsOf w 6 3 = 1 then m.cond v k else if bitsOf w 6 3 = 2 then !m.cond v k else bitsOf w 6 3 = 3 && m.cnt != 0
  { m with mpc := if taken then far else m.mpc + 1 }

/-- One microword is executed (R235, R238): 65,537 in one operation are one too many. -/
def Mic.step (m : Mic) (v : MicEnv) : MicNext :=
  let w := v.eng.microAt m.mpc
  let n := v.eng.nanoAt (bitsOf w 9 9)
  let k := bitsOf w 6 3
  if 65536 ≤ m.words then m.trap v w 3 65536
  else
    let c := { m with words := m.words + 1 }
    if !nanoOk n then c.trap v w 2 w
    else if k = 7 then c.trap v w 1 (nConst n)
    else if k = 4 then
      if 4 ≤ c.stack.length then c.trap v w 4 0
      else .go { c.work v n with mpc := BitVec.ofNat 12 (nConst n), stack := (c.mpc + 1) :: c.stack }
    else if k = 5 then
      match c.stack, c.handler with
      | a :: r, _ => .go { c.work v n with mpc := a, stack := r }
      | [], some saved => .go ((c.work v n).resume saved (nConst n % 2))
      | [], none => c.trap v w 4 0
    else if k = 6 then .done (c.work v n) (if bitsOf n 8 1 = 1 then .passed else .ended (nConst n % 8) c.handler.isSome)
    else
      let d := c.work v n
      .go (({ d with cnt := if k = 3 then d.cnt - 1 else d.cnt } : Mic).goOn v w (nCond n))

/-- The sequencer runs to the end of the operation; every microword counts, so it ends (R238). -/
def Mic.run (v : MicEnv) : Nat → Mic → Mic × MicEnd
  | 0, m => (m, .passed)
  | f + 1, m => match m.step v with
    | .go y => Mic.run v f y
    | .done y r => (y, r)

/-- The sequencer as it stands at a microword. -/
def Mic.at0 (p : MicroAt) : Mic :=
  { u := (upTo 32).foldl (fun (t : Sp W64) (k : Nat) => Sp.put t 0 k (p.u.getD k 0)) [], mpc := p.mpc, cnt := p.cnt, flags := p.flags
    stack := p.stack.take 4, words := p.words, addr := 0, mem := 0, poison := false, reply := 0, ask := 0, handler := none }

/-- The microcode goes on from there (R235-R238). -/
def Mic.outcome (v : MicEnv) (p : MicroAt) : Mic × MicEnd := Mic.run v (2 * 65538) (Mic.at0 p)

end Sys2Proof.Machine
end

