-- ==== Sys2Proof/Machine/Eng.lean ====
section
/-! DEFINITION. The engine array around the move: freezes, counters, dispatch, terminal traps, gates, lanes, sparing (R192, R196-R198, R205, R211, R242-R262). -/

namespace Sys2Proof.Machine

/-! ## Places, worlds, counters, freezes (R16, R192, R213) -/

/-- The physical engine bound to logical engine e. -/
def State.peOf (s : State) (e : Nat) : Nat := 9 * (e / 8) + s.leSlot e

/-- Logical engine e is in service (R258). -/
def State.inService (s : State) (e : Nat) : Bool := s.leSlot e < 9

/-- Engine e runs in the secure world: secure-owned, or inside a gate call (Table 6.7 bit 15). -/
def State.engSec (s : State) (e : Nat) : Bool := s.secBlock e || (s.le e).bits.getLsbD 15

/-- The function engine e runs for; 0x1FF in the secure world. -/
def State.engFn (s : State) (e : Nat) : Nat := if s.engSec e then 0x1FF else (s.entry (tidIdx (s.le e).tid)).func.toNat

/-- Count event j of the physical engine (Tables 6.13, 8.5); it holds still in the secure world (R213). -/
def State.peCount (s : State) (e j n : Nat) : State :=
  if s.engSec e then s else s.updPe (s.peOf e) (fun p => { p with cnt := Sp.put p.cnt 0 j (sat64 (Sp.look p.cnt 0 j) n) })

/-- The counter a freeze cause names (Table 6.5). -/
def freezeCnt (c : Nat) : Option Nat :=
  if c = 1 || c = 5 || c = 9 then some 2 else if c = 2 then some 3 else if c = 3 || c = 6 then some 4 else if c = 4 then some 5 else none

/-- Engine e freezes with a cause, counted once (R192). -/
def State.freezeAt (s : State) (e c : Nat) : State :=
  if (s.le e).freeze.any (fun f => f.1 = c) then s
  else
    let s1 := s.updLe e (fun x => { x with freeze := some (c, s.tick) })
    match freezeCnt c with
    | some j => s1.peCount e j 1
    | none => s1

/-- The freeze ends. -/
def State.thaw (s : State) (e : Nat) : State := s.updLe e (fun x => { x with freeze := none })

/-! ## Idle and cleared engines -/

/-- A program has ended: what belongs to it goes (R202); stores under way and requests queued stay. -/
def Eng.idled (x : Eng) : Eng :=
  { x with
    running := false, tid := 0, freeze := none, evq := [], evBy := [], evWait := [], ended := false, flight := [], p0 := none, p1 := none
    rep := none, rqCh := none, rqGal := [], rqCph := [], lou := none, barrier := none, barErr := false
    doneAt := none, gsave := none, tsave := none, mustEntry := false, micro := none }

/-- Cleared engine state (R256, R386); STEPSEQ goes on (R246). -/
def Eng.cleared (x : Eng) : Eng := { Eng.init with stepSeq := x.stepSeq }

/-- Engine e goes idle and releases its ENGINE grants (Table 15.2). -/
def State.goIdle (s : State) (e : Nat) : State := ((s.updLe e Eng.idled).releaseGrant 3 (whoBase e)).releaseGrant 3 (whoWide e)

/-- Engine e is cleared and releases its ENGINE grants. -/
def State.clearLe (s : State) (e : Nat) : State := ((s.updLe e Eng.cleared).releaseGrant 3 (whoBase e)).releaseGrant 3 (whoWide e)

/-! ## Gates (R211, R381, R384, R386) -/

/-- The caller of a gate goes on: its saved state is restored; a new G0 where one is given. -/
def Eng.ungate (x : Eng) (v : GateSave) (g0 : Option W64) : Eng :=
  let low := (x.bits.setWidth 256).setWidth 4096 &&& ~~~ (0x8000 : BitVec 4096)
  let bits := (v.bits &&& ~~~ ((BitVec.allOnes 256).setWidth 4096)) ||| low
  let g1 := (upTo 8).foldl (fun (t : Sp W64) (k : Nat) => Sp.put t 0 (8 + k) (Sp.look v.g 0 (8 + k))) x.g
  let y : Eng := { x with
    g := match g0 with | some r => Sp.put g1 0 0 r | none => g1
    bits := bits, bwin := v.bwin, fpctl := v.fpctl, trap := v.trap, lat := v.lat, ports := v.ports, tsave := v.tsave
    pc := v.pc, p0 := v.p0, p1 := v.p1, fore := v.fore, rep := v.rep, gsave := none, flight := [], mustEntry := false, micro := v.micro
    lou := none }
  ((y.putBit 26 v.intrap).putBit 16 v.fore).putBit 5 true

/-- A gate call in progress on engine e returns to its caller with a code in G0 (R384, R386). -/
def State.gateBack (s : State) (e code : Nat) : State :=
  match (s.le e).gsave with
  | some v => (s.updLe e (fun x => x.ungate v (some (BitVec.ofNat 64 code)))).thaw e
  | none => s

/-! ## Terminal traps (R205, R384) -/

/-- The layout of Table 6.15. -/
def trapLogOf (tid : W32) (cause : Nat) (pc : BitVec 15) : W64 := BitVec.ofNat 64 (fields [(0, pc.toNat), (24, cause), (32, tid.toNat)])

/-- The final status of a terminal trap (Table 6.11). -/
def trapStatus (cause : Nat) : Nat := if cause = 2 || cause = 3 then stNotPermitted else stDeviceFault

/-- A terminal trap at the word at PC: logged, the transaction ends, the engine goes idle; in a gate call the caller goes on (R205, R384). -/
def State.terminalTrap (s : State) (e cause : Nat) : State :=
  let x := s.le e
  let log := trapLogOf x.tid cause x.pc
  if x.gsave.isSome then (s.setTru (fun t => { t with secTrap := log })).gateBack e 0x12
  else
    let n := s.peOf e
    let s1 := (s.peCount e 6 1).updPe n (fun p => { p with trapLog := log })
    let s2 := s1.repT (uPe n) 0x04 x.tid (s.entry (tidIdx x.tid)).func.toNat (fields [(0, cause), (16, x.pc.toNat)]) false (s.engSec e)
    let st := trapStatus cause
    let i := tidIdx x.tid
    let s3 := if s2.tidLive x.tid && (s2.entry i).state.pre then
      s2.abortEntry i st (if st = stDeviceFault then s2.lastIndex.toNat else 0) true else s2
    s3.goIdle e

/-! ## Dispatch (R196-R198, R210, R258) -/

/-- Program address of an entry of an image. -/
def Img.entryAt (m : Img) (k : Nat) : BitVec 15 := m.base + BitVec.ofNat 15 (m.entries.getD k 0)

/-- TRAPVEC of an image: its trap entry, or 0 (Table 6.12). -/
def Img.trapVec (m : Img) : BitVec 15 := if m.trapEntry = 0xFFFF then 0 else m.entryAt m.trapEntry.toNat

/-- The user image whose range holds an address: handle, TRAPVEC, FORERUNNER. -/
def State.userImageAt (s : State) (a : BitVec 15) : Nat × BitVec 15 × Bool :=
  match s.deck.images.find? (fun m => m.2.any (fun y => y.holds a.toNat)) with
  | some (h, some m) => (h, m.trapVec, m.forerunner)
  | _ => (258, 0, false)

/-- The image, or the library, whose range holds an address (R196, R210). -/
def State.imageAt (s : State) (a : BitVec 15) : Nat × BitVec 15 × Bool :=
  if 0x7000 ≤ a.toNat then (256, Config.libTrap, false)
  else match s.eng.secImg with
    | some m => if m.holds a.toNat then (257, m.trapVec, m.forerunner) else s.userImageAt a
    | none => s.userImageAt a

/-- Entry k of the channel library. -/
def libAddr (k : Nat) : BitVec 15 := BitVec.ofNat 15 (0x7000 + Config.libEntry k)

/-- The dispatch target of the entry at i (R197, R198, R382); none: no program to continue. -/
def State.dispatchTarget (s : State) (i : Nat) : Option (BitVec 15) :=
  let e := s.entry i
  match Sp.look s.qm.work none i with
  | some w =>
    if w.word.getLsbD 60 && e.ckptValid then some e.ckptPc
    else if w.gate then s.eng.secImg.map (fun m => m.entryAt w.entry)
    else if w.image = 256 then some (libAddr w.entry)
    else (Sp.look s.deck.images none w.image).map (fun m => m.entryAt w.entry)
  | none =>
    if e.ckptValid then some e.ckptPc
    else if e.opc.toNat < 5 then some (libAddr e.opc.toNat)
    else none

/-- The dispatch word of an entry without a work record: what the entry holds, REPLAY set (R198, Table 6.9). -/
def State.replayWord (s : State) (i : Nat) : W64 :=
  let e := s.entry i
  BitVec.ofNat 64 (fields [(0, (s.tidAt i).toNat), (32, e.func.toNat), (41, e.qpair.toNat), (44, e.slot.toNat), (56, e.opc.toNat), (60, 1)])

/-- G0-G7 of a dispatch (R196, R198). -/
def State.dispatchRegs (s : State) (i : Nat) : Sp W64 :=
  match Sp.look s.qm.work none i with
  | some w => (upTo 7).foldl (fun (t : Sp W64) (k : Nat) => Sp.put t 0 (k + 1) (BitVec.ofNat 64 (pkN w.pkt (8 * k + 8) 8))) (Sp.put [] 0 0 w.word)
  | none => Sp.put [] 0 0 (s.replayWord i)

/-- The bit space at a dispatch (R196). -/
def dispatchBits (valid fore sec : Bool) : BitVec 4096 :=
  bitsReset ||| BitVec.ofNat 4096 (fields [(14, b2n valid), (15, b2n sec), (16, b2n fore)])

/-- The engine state that dispatch of the entry at i sets (R196). -/
def State.dispatched (s : State) (e i : Nat) (target : BitVec 15) : Eng :=
  let x := s.le e
  let im := s.imageAt target
  let regs := s.dispatchRegs i
  let valid := (Sp.look s.qm.work none i).isSome
  { x with
    g := regs, pc := target, limm := 0, immx := false, lat := Latches.init, ports := Ports.init
    bits := dispatchBits valid im.2.2 (s.secBlock e), bwin := 0, trap := { x.trap with vec := im.2.1, ercnt := 0 }, fpctl := 0
    flight := [], p0 := none, p1 := none, rep := none, work := Sp.look regs 0 0, tid := s.tidAt i, steps := 0, running := true
    freeze := none, evq := [], evBy := [], evWait := [], ended := false, rqCh := none, rqGal := [], rqCph := [], tsave := none, gsave := none, lou := none
    micro := none, barrier := none, barErr := false, doneAt := none, fore := im.2.2, image := im.1, mustEntry := true }

/-- Engine e may take a dispatch: in service, idle, its lanes in service, not leaving its world, not under test (R15, R196, R379). -/
def State.engineIdle (s : State) (e : Nat) : Bool :=
  let p := s.pe (s.peOf e)
  s.inService e && !(s.le e).running && p.role == .active && p.testing.isNone && !p.migrating && !s.leaving e && !s.underTest (uPe (s.peOf e))

/-- The owning cluster of the transaction at i (R24, R258); none for secure work, which any secure-owned engine takes (R382). -/
def State.ownCluster (s : State) (i : Nat) : Option Nat :=
  let e := s.entry i
  match (upTo 3).find? (fun g => e.names g) with
  | some g => some (s.group (e.grp g)).owner.toNat
  | none => s.runCluster e.func.toNat

/-- An engine runs the transaction at i. -/
def State.isRun (s : State) (i : Nat) : Bool := s.eng.les.any (fun x => x.2.running && x.2.tid = s.tidAt i)

/-- The transaction at i waits for an engine: OPEN or ACTIVE, not in doubt, run by none (R196, R256). -/
def State.waitsEngine (s : State) (i : Nat) : Bool :=
  let e := s.entry i
  (e.state == .opened || e.state == .active) && !e.stale && !s.isRun i

/-- Engine e is one that the QM may hand the transaction at i to (R24, R258, R375, R382). -/
def State.mayServe (s : State) (i e : Nat) : Bool :=
  (s.secBlock e == s.secIdx i) && (s.secIdx i || s.ownCluster i = some (e / 8))

/-- The hand-over (R196): engine state, work record marked REPLAY for a later dispatch, the record of Tally operations cleared (R231). -/
def State.handOver (s : State) (e i : Nat) (target : BitVec 15) : State :=
  let x := s.dispatched e i target
  let s1 := s.updLe e (fun _ => x)
  let s2 := s1.setQm (fun q => { q with work := Sp.put q.work none i ((Sp.look q.work none i).map (fun w => { w with word := w.word ||| 0x1000000000000000 })) })
  let s3 := s2.setTly (fun t => { t with lastOps := Sp.put t.lastOps none e none })
  let s4 := if (s3.entry i).state == .active then s3.updEntry i (fun n => { n with engine := BitVec.ofNat 7 e }) else s3
  s4.peCount e 1 1

/-- DISPATCH (R196-R198): the base grant first (R429); a RUN with no program to continue ends with DEVICE_FAULT. -/
def execDispatch (i : TlyIx) (e : LeId) (s : State) : Host.Outcome State Fault Refusal :=
  .next (s.when (s.live && s.isReady && !s.tly.stopped && s.engineIdle e.val && s.waitsEngine i.val && s.mayServe i.val e.val) (fun t =>
    match t.dispatchTarget i.val with
    | none => t.failEntry i.val 0
    | some a =>
      let t1 := t.askGrant 3 1 (whoBase e.val)
      if t1.hasGrant 3 (whoBase e.val) then t1.handOver e.val i.val a else t1))

/-! ## Lanes and sparing (R242-R258) -/

/-- A fault that an injection into unit u has produced waits for its record (R412). -/
def State.injFired (s : State) (u : Nat) : Bool := s.flt.inj.any (fun j => j.unit.toNat = u && j.fired)

/-- STEPSEQ of the step that the engine n is to execute or has failed: the one after the last committed of its logical engine (R246). -/
def State.stepDue (s : State) (n : Nat) : Nat :=
  let p := s.pe n
  ((if p.logical < 128 then (s.le p.logical).stepSeq else p.stepSeq) + 1).toNat

/-- ENG_DUP_LOG (Table 8.7): an event at step `seq`. -/
def State.dupLog (s : State) (n kind seq decided : Nat) (lane : Bool) : State :=
  s.updPe n (fun p =>
    let v := fields [(9, b2n lane), (10, decided), (12, kind), (16, seq), (32, s.tick % 2 ^ 32)]
    { p with dupLog := BitVec.ofNat 64 v })

/-- ENG_DUP_LOG of an event that continues the decision the engine holds. -/
def State.dupLogP (s : State) (n kind : Nat) : State :=
  s.dupLog n kind (s.stepDue n) (s.pe n).decided.toNat ((s.pe n).decided != 0 && (s.pe n).badLane)

/-- Set the service code of one lane (Table 8.6). -/
def Pe.setLane (p : Pe) (lane : Bool) (v : BitVec 2) : Pe := if lane then { p with laneB := v } else { p with laneA := v }

/-- A lane event's report names the work the engine runs (R254, R259). -/
def State.peReport (s : State) (n kind detail : Nat) : State :=
  let e := (s.pe n).logical
  let tid := if e < 128 then (s.le e).tid else 0
  let f := if tid = 0 then 0x1FE else (s.entry (tidIdx tid)).func.toNat
  s.repT (uPe n) kind tid f detail (s.injFired (uPe n)) (s.secUnit (uPe n))

/-- The spare of cluster c, if no engine of the cluster but n uses it as referee or migration target (R250, Table 8.2). -/
def State.freeSpare (s : State) (c n : Nat) : Option Nat :=
  if (upTo 9).any (fun k => 9 * c + k ≠ n && ((s.pe (9 * c + k)).migrating || (s.pe (9 * c + k)).referee)) then none else s.spareOf c

/-- The spare is needed as referee or migration target: a background test of it is abandoned (R250, R418). -/
def State.abandonSpareTest (s : State) (c m : Nat) : State :=
  if (s.memCl c).engTest.isSome then (s.updMem c (fun y => { y with engTest := none })).releaseGrant 8 (whoTest (uPe m)) else s

/-- The referee of engine n is let go (R250). -/
def State.endReferee (s : State) (n : Nat) : State :=
  if (s.pe n).referee then (s.updPe n (fun p => { p with referee := false })).releaseGrant 2 (whoReferee (n / 9)) else s

/-- The mismatch of engine n is persistent: it takes the spare as referee, if the spare is free (R248, R250). -/
def State.persist (s : State) (n : Nat) : State :=
  let s1 := s.updPe n (fun p => { p with persistent := true })
  match s1.freeSpare (n / 9) n with
  | some m => ((s1.updPe n (fun p => { p with referee := true })).abandonSpareTest (n / 9) m).askGrant 2 1 (whoReferee (n / 9))
  | none => s1

/-- Entries whose cluster has no engine left end (R258); one that moves to another cluster goes on there. -/
def State.endCluster (s : State) (c : Nat) (index : W32) : State :=
  if !s.clDead c then s
  else ((s.tly.entries.filter (fun e => e.2.state.pre && !s.secIdx e.1)).map (fun e => e.1)).foldl (fun t i =>
    match t.ownCluster i with
    | some k => if k = c then t.failEntry i index else t
    | none => t.failEntry i index) s

/-- Logical engine e goes out of service (R258). -/
def State.outOfService (s : State) (n e : Nat) : State :=
  let s1 := s.peReport n 0x30 e
  let idx := s1.lastIndex
  let s2 := (s1.dupLogP n 7).clearLe e
  let s3 := s2.setEng (fun a => { a with bind := Sp.put a.bind (e % 8) e 0xF })
  s3.endCluster (e / 8) idx

/-- The spare m takes logical engine e (R257). -/
def State.takeSpare (s : State) (m e : Nat) : State :=
  (s.updPe m (fun p => { p with role := .active, logical := e })).setEng (fun a => { a with bind := Sp.put a.bind (e % 8) e (m % 9) })

/-- Logical engine e, which engine n ran, is replayed on the spare m (R256, R257). -/
def State.replayOn (s : State) (n m e : Nat) : State :=
  (((s.dupLogP n 6).updPe n (fun p => { p with logical := 128, migrating := false })).takeSpare m e).clearLe e

/-- No spare is left for logical engine e, which engine n ran (Table 8.2). -/
def State.noSpare (s : State) (n e : Nat) : State := (s.outOfService n e).updPe n (fun p => { p with logical := 128, migrating := false })

/-- The spare m of cluster c has been lost: an engine that migrates to it has none (Table 8.2). -/
def State.spareLost (s : State) (c : Nat) : State :=
  (upTo 9).foldl (fun t k =>
    let t1 := t.endReferee (9 * c + k)
    if (t1.pe (9 * c + k)).migrating then t1.noSpare (9 * c + k) (t1.pe (9 * c + k)).logical else t1) s

/-- Physical engine n retires (R254); `single`: one lane was decided and the shadow store checks (Table 8.2). Its L1 is written back. -/
def State.retire (s : State) (n : Nat) (single : Bool) : State :=
  let c := n / 9
  let e := (s.pe n).logical
  let seq := s.stepDue n
  let wasSpare := (s.pe n).role == .spare
  let s0 := ((s.endReferee n).updPe n (fun p => { p with
    role := .retired, testing := none, persistent := false, retryNow := 0, migrating := false, stage := [], parityDue := false, louBad := none })).injWithdraw (uPe n)
  let s1 := s0.flushL1 c (n % 9)
  if wasSpare || 128 ≤ e then
    let s2 := s1.peReport n 0x20 (fields [(0, 0xF), (16, seq)])
    if wasSpare then s2.spareLost c else s2
  else match s1.freeSpare c n with
    | none => s1.noSpare n e
    | some m =>
      let s2 := (s1.peReport n 0x20 (fields [(0, m % 9), (16, seq)])).abandonSpareTest c m
      if single then (s2.updPe n (fun p => { p with migrating := true })).freezeAt e 8 else s2.replayOn n m e

/-- A takeover of engine n: the proof lane leads, and drives again every transport whose acknowledgement it has not received (R252). -/
def State.takeover (s : State) (n : Nat) : State :=
  s.updPe n (fun q => { q with lead := !q.lead, stage := q.stage.map (fun x => { x with again := true }) })

/-- Table 8.1 has decided: the lanes a and b of the engine bound to e are faulty (R249, R251, R252, R254); `shadow`: the shadow store checks. -/
def State.lanesFaulty (s : State) (e : Nat) (a b : Bool) (code : Nat) (shadow : Bool) : State :=
  let n := s.peOf e
  let p := s.pe n
  let s1 := ((s.peCount e 18 (b2n a + b2n b)).endReferee n).updPe n (fun q => { q with decided := BitVec.ofNat 2 code, badLane := b && !a, persistent := false, retryNow := 0 })
  if a && b then s1.retire n false
  else
    let lead : Bool := p.lead == b
    let s2 := if lead then ((s1.peCount e 19 1).takeover n).dupLogP n 4 else s1
    if (s.engCl (e / 8)).repairLimit.toNat ≤ p.repairs.toNat then s2.retire n shadow
    else (s2.updPe n (fun q => { q.setLane b 1 with testing := some b })).freezeAt e 8

/-- A second fault of engine n, of logical engine e, while a lane test or a migration is under way: no lane is known to be good, and the logical engine is replayed (R254, Table 8.2). -/
def State.secondFault (s : State) (n e : Nat) : State :=
  if !(s.pe n).migrating then s.retire n false
  else match s.spareOf (n / 9) with
    | some m => s.replayOn n m e
    | none => s.noSpare n e

/-- A lane of the engine bound to e reports an internal check, row 1 of Table 8.1 (R177, R234, R249). -/
def State.laneCheck (s : State) (e : Nat) (laneB : Bool) : State :=
  if (s.pe (s.peOf e)).testing.isSome || (s.pe (s.peOf e)).migrating then s.secondFault (s.peOf e) e else s.lanesFaulty e (!laneB) laneB 1 true

/-- The spare of engine e's cluster has served as referee (Table 8.5). -/
def State.served (s : State) (e : Nat) : State :=
  match s.spareOf (e / 8) with
  | some m => if s.engSec e then s else s.updPe m (fun q => { q with cnt := Sp.put q.cnt 0 20 (sat64 (Sp.look q.cnt 0 20) 1) })
  | none => s

/-- REFEREE_DECISION (R249, R250): internal checks of the lanes, or the referee's signature on a persistent mismatch, under the referee's grant. -/
def execRefereeDecision (e : LeId) (checkA checkB : Bool) (ref : RefView) (s : State) : Host.Outcome State Fault Refusal :=
  let n := s.peOf e.val
  let p := s.pe n
  .next (s.when (s.live && s.inService e.val && (p.role == .active || p.migrating) && (p.persistent || checkA || checkB)) (fun t =>
    if p.testing.isSome || p.migrating then (if checkA || checkB then t.secondFault n e.val else t)
    else if checkA || checkB then t.lanesFaulty e.val checkA checkB 1 ref.shadow
    else if p.referee && !t.hasGrant 2 (whoReferee (e.val / 8)) then t
    else
      let r0 : Referee := if t.injFired (uPe n) then (if p.lead then .agreesA else .agreesB) else ref.ref
      let r : Referee := if p.referee then r0 else .none
      match r with
        | .none => t.lanesFaulty e.val true true 3 ref.shadow
        | .neither => (t.served e.val).lanesFaulty e.val true true 2 ref.shadow
        | .agreesA => (t.served e.val).lanesFaulty e.val false true 2 ref.shadow
        | .agreesB => (t.served e.val).lanesFaulty e.val true false 2 ref.shadow))

/-- LANE_TEST_COMPLETE (R251): the lane is resynchronised, or the engine retires. -/
def execLaneTestComplete (pe : PeId) (result : LaneTest) (s : State) : Host.Outcome State Fault Refusal :=
  .next (s.when s.on (fun t =>
    let p := t.pe pe.val
    match p.testing with
    | none => t
    | some lane =>
      if (if lane then p.laneB else p.laneA) != 1 then t
      else if result.pass then t.updPe pe.val (fun q => q.setLane lane 2)
      else ((t.updPe pe.val (fun q => q.setLane lane 3)).dupLogP pe.val 3).retire pe.val result.shadow))

/-- LANE_RESYNC_COMPLETE (R251): the lane rejoins as the proof lane and the engine resumes at the failed step. -/
def execLaneResyncComplete (pe : PeId) (s : State) : Host.Outcome State Fault Refusal :=
  .next (s.when s.on (fun t =>
    let p := t.pe pe.val
    match p.testing with
    | none => t
    | some lane =>
      if (if lane then p.laneB else p.laneA) != 2 then t
      else
        let t1 := t.updPe pe.val (fun q => { q.setLane lane 0 with testing := none, repairs := BitVec.ofNat 4 (min 15 (q.repairs.toNat + 1)) })
        let t2 := ((t1.dupLogP pe.val 2).peReport pe.val 0x11 (fields [(0, b2n lane), (8, p.decided.toNat)])).updPe pe.val (fun q => { q with decided := 0 })
        if p.logical < 128 then t2.thaw p.logical else t2))

/-- Engines of which a dirty sector failed its check retire, in order (R268, R271); their logical engines are replayed. -/
def State.settleParity (s : State) : State :=
  (upTo 144).foldl (fun t n => if (t.pe n).parityDue then t.retire n false else t) s

/-! ## Output stage and receiving queues (R246, R247, R253) -/

/-- The transports of the committed step wait in the output stage for their queues (R247). -/
def State.pushStage (s : State) (e : Nat) (ts : List (RecvQueue × W64 × W64)) : State :=
  s.updPe (s.peOf e) (fun p => { p with stage := p.stage ++ ts.map (fun t => ⟨(s.le e).stepSeq, t.1, t.2.1, t.2.2, false, false⟩) })

/-- The number of a receiving queue. -/
def recvCode : RecvQueue → Nat
  | .mem => 0 | .ch => 1 | .gal => 2 | .cph => 3 | .evq => 4 | .tally => 5 | .qm => 6

/-- A queue accepts a transport by STEPSEQ, against the last it accepted from the engine (R253). -/
def seqFresh (last : Option W16) (seq : W16) : Bool :=
  match last with
  | none => true
  | some l => 1 ≤ (seq - l).toNat && (seq - l).toNat ≤ 32767

/-- A duplicate is dropped, and counted unless it is secure-attributed (R253, Table 8.4). -/
def State.countDup (s : State) (e : Nat) : State :=
  if s.engSec e then s else s.updEngCl (e / 8) (fun c => { c with dupDrop := sat64 c.dupDrop 1 })

/-- TRANSPORT_ACCEPT (R247, R252, R253): a transport reaches its queue, which accepts it or drops it as a duplicate; `copy.acked`: the acknowledgement has reached the copies of both lanes. The acknowledgement of a copy accepted before takes the entry out of the stage, and a copy driven again by a takeover is a duplicate. -/
def execTransportAccept (e : LeId) (queue : RecvQueue) (copy : TransportCopy) (s : State) : Host.Outcome State Fault Refusal :=
  let seq := copy.seq
  .next (s.when (s.on && s.inService e.val) (fun t =>
    let k := 8 * e.val + recvCode queue
    let n := t.peOf e.val
    let isHere := fun (x : Transport) => x.seq = seq && x.queue = queue
    let drop := t.updPe n (fun p => { p with stage := p.stage.filter (fun x => !isHere x) })
    match (t.pe n).stage.find? isHere with
    | some x =>
      if x.accepted then (if x.again then drop.countDup e.val else drop)
      else if seqFresh (Sp.look t.eng.lastSeq none k) seq then
        let t1 := if copy.acked then drop else t.updPe n (fun p => { p with stage := p.stage.map (fun y => if isHere y then { y with accepted := true } else y) })
        t1.setEng (fun a => { a with lastSeq := Sp.put a.lastSeq none k (some seq) })
      else drop.countDup e.val
    | none => if seqFresh (Sp.look t.eng.lastSeq none k) seq then t else t.countDup e.val))

/-- ENG_CNT_CLEAR (R213, R260): a PF clears the counters of a physical engine; those of a secure-owned one are refused (R377). -/
def execEngCntClear (p : PortId) (pe : PeId) (val : W32) (s : State) : Host.Outcome State Fault Refusal :=
  .next (s.when (s.whoOk (.pf p)) (fun t =>
    if t.secUnit (uPe pe.val) then t.refuse377 (pfOf p.val) (0x500000 + 0x4000 * pe.val + 0xFC)
    else if val.getLsbD 0 then t.updPe pe.val (fun q => { q with cnt := [] }) else t))

end Sys2Proof.Machine
end

