-- ==== Sys2Proof/Machine/Trust.lean ====
section
/-! DEFINITION. The trust controller: hand-over, the secure watchdog and the lone restart, the lifecycle, keys, measurement, debug (R378-R391). -/

namespace Sys2Proof.Machine

/-! ## Hand-over (R378-R380) -/

/-- FAULT_NOTICE of both PFs is set (R378, R379). -/
def State.noticePfs (s : State) : State := (s.setEvent 0 3).setEvent 0x101 3

/-- Replace the hand-over of designator d. -/
def State.updHo (s : State) (d : Nat) (f : HandOver → HandOver) : State :=
  s.setTru (fun t => { t with pending := t.pending.map (fun h => if h.d.toNat = d then f h else h) })

/-- The hand-over of designator d ends with a status. -/
def State.endHo (s : State) (h : HandOver) (st : Nat) : State :=
  (s.setTru (fun t => { t with pending := t.pending.filter (fun x => x != h) })).finishH h.handle st 0 0

/-- The request for designator d that waits for the secure world (R378). -/
def State.askedHo (s : State) (d : Nat) : Option HandOver := s.tru.pending.find? (fun h => h.d.toNat = d && !h.agreed)

/-- HO_GIVE: the secure world grants a request (R378). -/
def execHoGive (d : W16) (s : State) : Host.Outcome State Fault Refusal :=
  .next (s.when (s.whoOk .secure && (s.askedHo d.toNat).isSome) (fun t =>
    t.updHo d.toNat (fun h => if h.agreed then h else { h with agreed := true, since := t.tick })))

/-- HO_REFUSE: the secure world refuses a request (R378). -/
def execHoRefuse (d : W16) (s : State) : Host.Outcome State Fault Refusal :=
  .next (s.when (s.whoOk .secure) (fun t => match t.askedHo d.toNat with
    | some h => t.endHo h stDenied
    | none => t))

/-- HO_WANT: the secure world asks for a normal-owned block (R378, R380). -/
def execHoWant (d : W16) (s : State) : Host.Outcome State Fault Refusal :=
  let k := d.toNat
  let fits : Bool := isDynamic k && !s.secBlock k && (!(0x300 ≤ k && k < 0x310) || k - 0x300 = s.tru.wm.scr.toNat)
  .next (s.when (s.whoOk .secure && fits) (fun t => (t.noticePfs).rep0 uTru 0x02 k))

/-- The block's running work is finished (R379). -/
def State.blockDone (s : State) (d : Nat) : Bool :=
  if d < 0x80 then !(s.le d).running && (s.pe (s.peOf d)).testing.isNone && !(s.pe (s.peOf d)).migrating
  else if d < 0x200 then (s.grp (d - 0x100)).run.isNone && (s.grp (d - 0x100)).queue.isEmpty
  else if d < 0x300 then (s.coder (d - 0x200)).run.isNone && (s.coder (d - 0x200)).queue.isEmpty
  else true

/-- HO_WAIT_EXPIRY: no answer within HO_WAIT, or the block has not finished within HO_WAIT of the agreement (R378, R379). -/
def execHoWaitExpiry (d : W16) (s : State) : Host.Outcome State Fault Refusal :=
  .next (s.when s.on (fun t => match t.tru.pending.find? (fun h => h.d = d && h.since + ms t.tru.hoWait.toNat ≤ t.tick) with
    | some h => if h.agreed && t.blockDone d.toNat then t else t.endHo h stDenied
    | none => t))

/-- The units of Table 14.2 that a block of Table 13.2 holds. -/
def State.unitsOf (s : State) (d : Nat) : List Nat :=
  if d < 0x80 then [uPe (s.peOf d)] else if d < 0x300 then [d] else (upTo 16).map (fun b => uBank (d - 0x300) b)

/-- The reset of Table 13.3 and the change of owner; an injection armed in the block is withdrawn (R412). -/
def State.moveBlock (s0 : State) (d : Nat) (toSecure : Bool) : State :=
  let s := (s0.unitsOf d).foldl (fun t u => t.injWithdraw u) s0
  let s1 :=
    if d < 0x80 then
      let s2 := if s.inService d then s.flushL1 (d / 8) (s.leSlot d) else s
      s2.clearLe d
    else if 0x300 ≤ d then (upTo 16).foldl (fun t b => t.zeroBank (d - 0x300) b) s
    else s
  if 0x300 ≤ d then
    s1.setTru (fun t =>
      let v := if toSecure then t.wm.scr + 1 else t.wm.scr - 1
      { t with wm := { t.wm with scr := v } })
  else s1.setTru (fun t => { t with sec := Sp.put t.sec false d toSecure })

/-- HANDOVER_RESET: the block is reset and changes owner; the command completes (R379). -/
def execHandoverReset (d : W16) (s : State) : Host.Outcome State Fault Refusal :=
  .next (s.when s.live (fun t => match t.tru.pending.find? (fun h => h.d = d && h.agreed) with
    | some h => if t.blockDone d.toNat then ((t.moveBlock d.toNat h.release).endHo h stOk).noticePfs else t
    | none => t))

/-! ## The secure world: start and lone restart (R385, R386, R446) -/

/-- The secure world starts at entry 0 on the lowest-numbered secure-owned logical engine in service (R386, R446). -/
def State.bootSecure (s : State) : State :=
  match s.eng.secImg, (upTo 128).find? (fun e => s.secBlock e && s.inService e) with
  | some m, some e =>
    let x : Eng := { (s.le e).cleared with
      pc := m.entryAt 0, bits := dispatchBits false m.forerunner true, trap := { TrapRegs.init with vec := m.trapVec }
      running := true, fore := m.forerunner, image := 257, mustEntry := true }
    ((s.updLe e (fun _ => x)).askGrant 3 1 (whoBase e)).setTru (fun t => { t with secState := 1 })
  | _, _ => s

/-- Step 5: sectors below the Landing watermark leave every L2 and every eviction, request and transaction under way, and the secure Landing and scratch are filled with zero. -/
def State.wipeSecure (s : State) : State :=
  let hi := s.lnd.watermark.toNat * 0x200000
  let s1 := (upTo 16).foldl (fun t c => (t.l2Sectors c).foldl (fun u a => if 64 * a < hi then (u.dropL1s c a).updMem c (fun m => m.putSec a L2Sec.init) else u) t) s
  let scr := s.tru.wm.scr.toNat
  let gone := fun (e : Evict) => if 64 * e.a < hi then { e with taken := true, data := 0, poison := false } else e
  let bare := fun (q : CReq) => if 64 * q.a < hi then { q with data := 0, poison := false } else q
  let lost := fun (t : Txn) => if 64 * t.req.a < hi then { t with req := bare t.req, data := t.data.map (fun _ => (0, false)) } else t
  let s0 := ((upTo 16).foldl (fun t h => t.updHome h (fun x => { x with evs := x.evs.map gone, txns := x.txns.map lost })) s1).setCoh
    (fun c => { c with reqs := c.reqs.map bare })
  let s2 := { s0 with bytes := Memory.clear s0.bytes 0 hi, poison := Sp.clear s0.poison 0 hi, ecc := Sp.clear s0.ecc 0 hi }
  (upTo scr).foldl (fun t c => (upTo 16).foldl (fun u b => u.zeroBank c b) t) s2

/-- Steps 1 to 5 of R386, and the hand-overs that have not reached their reset. -/
def State.loneStart (s : State) : State :=
  let s1 := s.setTru (fun t => { t with secState := 2, gates := 0, wdogEn := false })
  let s2 := (s1.tru.pending).foldl (fun t h => t.endHo h stDenied) s1
  let s3 := (upTo 128).foldl (fun t e => t.gateBack e 0xE) s2
  let s4 := (upTo 128).foldl (fun t e =>
    if t.secBlock e then
      let t1 := if t.inService e then t.dropL1All (e / 8) (t.leSlot e) else t
      t1.clearLe e
    else t) s3
  let s5 := (upTo 16).foldl (fun t n => t.eraseSlot (4112 + n)) s4
  let s6 := s5.endCoderOps (fun r => r.secure) stDeviceFault
  let s7 := ((s6.tly.entries.filter (fun e => s6.secIdx e.1 && e.2.state.pre)).map (fun e => e.1)).foldl (fun t i => t.failEntry i 0) s6
  s7.wipeSecure

/-- WDOG_KICK (R385). -/
def execWdogKick (s : State) : Host.Outcome State Fault Refusal :=
  .next (s.when (s.whoOk .secure) (fun t => t.setTru (fun x => { x with wdogKick := t.tick })))

/-- SECURE_WATCHDOG_EXPIRY (R385). -/
def execSecureWatchdogExpiry (s : State) : Host.Outcome State Fault Refusal :=
  .next (s.when (s.live && s.tru.wdogEn && s.tru.secState = 1 && s.tru.wdogKick + ms s.tru.wdogPeriod.toNat ≤ s.tick) State.loneStart)

/-- SEC_RESTART: the secure world writes TRU_SEC_RESTART (R385). -/
def execSecRestart (val : W32) (s : State) : Host.Outcome State Fault Refusal :=
  .next (s.when (s.whoOk .secure && val.getLsbD 0) State.loneStart)

/-- The Deck's secure image lies below the program-memory watermark in force (R390). -/
def State.secImageFits (s : State) : Option Img :=
  match s.deck.secImage with
  | some m => if m.base.toNat + m.words.length ≤ s.tru.wm.pgm.toNat * 1024 then some m else none
  | none => none

/-- The secure image is written to every program memory. -/
def State.installSecure (s : State) (m : Img) : State :=
  let s1 := match s.eng.secImg with | some old => s.dropWords old | none => s
  (s1.putWords m).setEng (fun e => { e with secImg := some m })

/-- LONE_RESTART_COMPLETE: steps 6 to 8 of R386; `ok`: the image verifies. -/
def execLoneRestartComplete (ok : Bool) (s : State) : Host.Outcome State Fault Refusal :=
  .next (s.when (s.live && s.tru.secState = 2) (fun t => match (if ok then t.secImageFits else none) with
    | none => (t.setTru (fun x => { x with secState := 3 })).rep0 uTru 0x35 0
    | some m =>
      let t1 := (t.installSecure m).setTru (fun x => { x with
        meas := (upTo 16).foldl (fun (z : Sp (BitVec 384)) (k : Nat) => Sp.put z 0 (16 + k) 0) (Sp.put x.meas 0 3 0)
        restarts := sat16 x.restarts 1 })
      let t2 := (t1.extend 3 m.raw).extend 4 (leBytes t1.tru.restarts.toNat 2 ++ leBytes t1.tick 8)
      (t2.bootSecure).rep0 uTru 0x26 t2.tru.restarts.toNat))

/-! ## Lifecycle and keys (R389) -/

/-- BAR0 offset of a TRU register (Table 13.7). -/
def truOff (r : Nat) : Nat := 0x280000 + r

/-- A refused TRU write (R377, R389, R393). -/
def State.truRefused (s : State) (p : Nat) (r : Nat) : State := s.repF uTru 0x02 (pfOf p) (truOff r)

/-- The token written verifies for the target (R389; free value, log 10). -/
def State.tokenOk (s : State) (target : Nat) : Bool :=
  match s.deck.ownerKey with
  | some k => s.tru.token.length = 96 &&
      Config.signatureOk 1 k (leBytes Config.moduleSerial.toNat 8 ++ leBytes s.deck.epoch.toNat 4 ++ leBytes target 1) s.tru.token
  | none => false

/-- Whether Table 13.5 admits a PF write of this target. -/
def State.lcAllowed (s : State) (target : Nat) : Option Lc :=
  if target = 2 then
    if (s.deck.lc == .provision && s.deck.ownerKey.isSome) || s.deck.lc == .service then some .field else none
  else if target = 3 then if s.deck.lc == .field && s.tokenOk 3 then some .service else none
  else if target = 4 then if s.deck.lc != .endState && s.tokenOk 4 then some .endState else none
  else none

/-- LC_CMD (R389). -/
def execLcCmd (p : PortId) (target : BitVec 3) (s : State) : Host.Outcome State Fault Refusal :=
  .next (s.when (s.whoOk (.pf p)) (fun t => match t.lcAllowed target.toNat with
    | some l => t.setDeck (fun d => { d with lcNext := some l })
    | none => t.truRefused p.val 0x10))

/-- The owner key as installed: in PROVISION, once (Table 13.4, R389). -/
def State.installKey (s : State) (p : Nat) (key : List Byte) : State :=
  if s.deck.lc == .provision && s.deck.ownerKey.isNone then s.setDeck (fun d => { d with ownerKey := some key }) else s.truRefused p 0x200

/-- OWNER_KEY_WRITE (R389): all 96 bytes. -/
def execOwnerKeyWrite (p : PortId) (key : BitVec 768) (s : State) : Host.Outcome State Fault Refusal :=
  .next (s.when (s.whoOk (.pf p)) (fun t => t.installKey p.val (leBytes key.toNat 96)))

/-! ## Measurement and debug (R387, R391) -/

/-- Bytes o to o+7 of a 64-byte buffer, unwritten ones 0. -/
def bufPut (l : List Byte) (size o : Nat) (bs : List Byte) : List Byte :=
  (upTo size).map (fun k => if o ≤ k && k < o + bs.length then bs.getD (k - o) 0 else l.getD k 0)

/-- The write of byte 63 of TRU_MEAS_EXT extends Mi, i = 16-31 (Table 13.7). -/
def State.measExtend (s : State) : State :=
  let i := (s.tru.measExt.getD 0 0).toNat
  if 16 ≤ i && i ≤ 31 then s.extend i (bufPut s.tru.measExt 64 0 [] |>.drop 16) else s

/-- MEAS_EXT (R391): the secure world writes the last word. -/
def execMeasExt (last : W64) (s : State) : Host.Outcome State Fault Refusal :=
  .next (s.when (s.whoOk .secure) (fun t =>
    let b := bufPut t.tru.measExt 64 56 (leBytes last.toNat 8)
    { t with tru := { t.tru with measExt := bufPut b 64 0 [] } }.measExtend))

/-- Enables of TRU_DEBUG that a lifecycle state permits (Tables 13.4, 13.12). -/
def debugMask : Lc → BitVec 4
  | .manufacture => 0xF
  | .provision => 0x3
  | .field => 0x1
  | .service => 0x7
  | .endState => 0

/-- A write of TRU_DEBUG: forbidden enables stay 0 and are logged; a change extends M4 (R387). -/
def State.debugReg (s : State) (fn : Nat) (val : W32) : State :=
  let ask : BitVec 4 := val.setWidth 4
  let new := ask &&& debugMask s.deck.lc
  let s1 := if ask = new then s else s.repF uTru 0x02 fn (truOff 0x600)
  if new = s1.tru.debug then s1
  else ((s1.setTru (fun t => { t with debug := new })).extend 4 (leBytes new.toNat 4)).cfgChanged

/-- DEBUG_WRITE (R387). -/
def execDebugWrite (p : PortId) (val : W32) (s : State) : Host.Outcome State Fault Refusal :=
  .next (s.when (s.whoOk (.pf p)) (fun t => t.debugReg (pfOf p.val) val))

end Sys2Proof.Machine
end

