-- ==== Sys2Proof/Machine/Faults.lean ====
section
/-! DEFINITION. Fault reports and their containment, exits, ALIVE, the management processor's watchdog, injections by the secure world, and self-tests (R394-R419). -/

namespace Sys2Proof.Machine

/-! ## Reports (R394, R395) -/

/-- The kinds of Table 14.1. -/
def isKind (k : Nat) : Bool :=
  (1 ≤ k && k ≤ 0xA) || (0x10 ≤ k && k ≤ 0x17) || (0x20 ≤ k && k ≤ 0x28) || (0x30 ≤ k && k ≤ 0x36) || (0x40 ≤ k && k ≤ 0x44)

/-- A single error corrected is counted where its unit has a counter (R271, R284, R288). -/
def State.countCorr (s : State) (u : Nat) : State :=
  if 0x1100 ≤ u && u < 0x1200 then s.memCount ((u - 0x1100) / 16) 5 1 false
  else if 0x1200 ≤ u && u < 0x1210 then s.memCount (u - 0x1200) 2 1 false
  else if 0x1500 ≤ u && u < 0x1504 then s.setLnd (fun l => { l with corr := sat32 l.corr 1 })
  else s

/-- An uncorrectable word or sector is marked poisoned and counted (R284, R288). -/
def State.markLost (s : State) (u a : Nat) : State :=
  if 0x1500 ≤ u && u < 0x1504 then
    ({ s with poison := Sp.put s.poison false (a / 64 * 64) true }).setLnd (fun l => { l with uncorr := sat32 l.uncorr 1, errAddr := sectorAddr a })
  else if 0x1100 ≤ u && u < 0x1200 then
    ({ s with poison := Sp.put s.poison false (a / 8 * 8) true }).memCount ((u - 0x1100) / 16) 6 1 false
  else s

/-- A parity report of the L1 of engine n that names sector a (R268): a clean sector goes, a dirty one retires its engine without an F1; a sector that the L1 does not hold in a block that it holds names a tag error of that block (log 36). -/
def State.parityReport (s : State) (r : Report) (n a : Nat) : State :=
  let c := n / 9
  let k := n % 9
  match (s.l1 c k).block (a / 4) with
  | none => s.report r
  | some b =>
    let st := (b.sec (a % 4)).st
    if st = 2 then s.parityFound c k a true
    else if st = 1 then ((s.report r).updL1 c k (fun l => l.dropSec a)).l1Count c k 3 r.secure
    else if (upTo 4).any (fun j => (b.sec j).st = 2) then s.tagFound c k a
    else (s.report r).tagFound c k a

/-- One report: recorded, and contained by the unit it names where no other row does so (R394, log 36). A retired engine and an emptied key slot make their own record. -/
def State.takeReportFlt (s : State) (r : Report) : State :=
  let u := r.source.toNat
  let k := r.kind.toNat
  let d := r.detail.toNat
  if k = 0x20 && 0x1000 ≤ u && u < 0x1090 && (s.pe (u - 0x1000)).role != .retired then s.retire (u - 0x1000) false
  else if k = 0x27 && u = uKeys && d < 4128 then s.slotLost d r.func.toNat r.inj
  else if k = 0x13 && 0x1000 ≤ u && u < 0x1090 then s.parityReport r (u - 0x1000) (d / 64)
  else
    let s1 := s.report r
    if k = 0x14 then s1.countCorr u
    else if k = 0x15 && 0x100 ≤ u && u < 0x140 then s1.sliceFault (u - 0x100) (d % 16) r.secure
    else if k = 0x16 && 0x200 ≤ u && u < 0x240 then s1.coderFault (u - 0x200) r.secure
    else if k = 0x22 then s1.markLost u d
    else if k = 0x40 && 0x1500 ≤ u && u < 0x1504 then
      s1.setLnd (fun l => { l with stackOk := l.stackOk &&& ~~~(BitVec.ofNat 4 (1 <<< (u - 0x1500))) })
    else s1

/-- FAULT_REPORT (R394-R404): the reports of one TICK reach the FLT. -/
def execFaultReport (rs : List Report) (s : State) : Host.Outcome State Fault Refusal :=
  .next (s.when (s.on && rs.all (fun r => isKind r.kind.toNat)) (fun t => rs.foldl State.takeReportFlt t))

/-! ## Exits and the blaze (R400, R406, R407) -/

/-- The quiet period of class k in seconds. -/
def Flt.quietOf (f : Flt) (k : Nat) : Nat := (Sp.look f.quiet 10 k).toNat

/-- A halted MP restarts alone (R409). -/
def State.mpRestart (s : State) : State := s.setMp (fun m => { m with run := 1, restartAt := s.tick })

/-- QUIET_PERIOD_EXPIRY (R406): class c + 1 ceases to be outstanding; that of F3 restarts a halted MP (R409). -/
def execQuietPeriodExpiry (c : Fin 3) (s : State) : Host.Outcome State Fault Refusal :=
  let k := c.val + 1
  .next (s.when (s.on && s.flt.outst.getLsbD c.val && !s.flt.hold.getLsbD c.val &&
      Sp.look s.flt.lastRep 0 k + secs (s.flt.quietOf k) ≤ s.tick) (fun t =>
    let t1 := t.setFlt (fun f => { f with
      outst := f.outst &&& ~~~ (BitVec.ofNat 4 (1 <<< c.val)), recov := Sp.put f.recov 0 k (sat16 (Sp.look f.recov 0 k) 1) })
    if k = 3 && t1.mp.run = 2 then t1.mpRestart else t1))

/-- Empty the blaze, and the copy a grave stop left in the Deck (R400, R405). -/
def State.clearBlaze (s : State) : State :=
  (s.setFlt (fun f => { f with blaze := none, winTick := none })).setDeck (fun d => { d with blaze := none })

/-- BLAZE_CLEAR (R400). -/
def execBlazeClear (p : PortId) (val : W32) (s : State) : Host.Outcome State Fault Refusal :=
  .next (s.when (s.whoOk (.pf p) && val.getLsbD 31) State.clearBlaze)

/-! ## ALIVE and the management processor (R408, R409) -/

/-- ALIVE is driven low and stops (R408). -/
def State.aliveStop (s : State) : State :=
  let s1 := if s.flt.alive then s.emit (.alive false) else s
  s1.setFlt (fun f => { f with aliveOn := false, alive := false })

/-- ALIVE starts, with its first edge 50,000 TICKs later; started again, at its next 50,000-TICK boundary (R408). -/
def State.aliveStart (s : State) : State :=
  if s.flt.grave || s.mp.run = 2 || s.flt.aliveOn || !s.isReady then s
  else s.setFlt (fun f => { f with
    aliveOn := true, aliveAt := if f.aliveAt = 0 then s.tick else f.aliveAt + (s.tick - f.aliveAt) / 50000 * 50000 })

/-- ALIVE_TOGGLE (R408). -/
def execAliveToggle (s : State) : Host.Outcome State Fault Refusal :=
  .next (s.when (s.on && s.flt.aliveOn && s.flt.aliveAt + 50000 ≤ s.tick) (fun t =>
    (t.emit (.alive (!t.flt.alive))).setFlt (fun f => { f with alive := !f.alive, aliveAt := t.tick })))

/-- The IMAGE_LOAD that writes when the MP stops completes with BUSY, without effect (R74). -/
def State.loadBusy (s : State) : State :=
  match s.mp.load with
  | some (_, _, h) => s.loadUndo.finishH h stBusy s.busyHint 0
  | none => s

/-- Admin commands that the MP has not applied complete with BUSY when it stops (R73, R74). -/
def State.mpBusy (s : State) : State :=
  if s.flt.grave then s
  else (s.qm.cmds.filter (fun c => c.stage == .checked && isAdmin c.opcode)).foldl (fun t c => t.finish c stBusy 0 t.busyHint 0) s.loadBusy

/-- MP_WATCHDOG_KICK (R409). -/
def execMpWatchdogKick (s : State) : Host.Outcome State Fault Refusal :=
  .next (s.when (s.on && s.mp.run = 0) (fun t => t.setMp (fun m => { m with kick := t.tick })))

/-- MP_WATCHDOG_EXPIRY (R409): F3, the MP is halted, ALIVE stops. -/
def execMpWatchdogExpiry (s : State) : Host.Outcome State Fault Refusal :=
  .next (s.when (s.on && s.mp.run = 0 && s.mp.kick + ms s.flt.wdogPeriod.toNat ≤ s.tick) (fun t =>
    (((t.rep0 uMp 0x34 0).setMp (fun m => { m with run := 2 })).aliveStop).mpBusy))

/-- MP_LOCKSTEP_MISMATCH (R409, Table 14.6): F2, the MP restarts alone. -/
def execMpLockstepMismatch (s : State) : Host.Outcome State Fault Refusal :=
  .next (s.when (s.on && s.mp.run = 0) (fun t =>
    ((t.repT uMp 0x24 0 0x1FE 0 (t.armed uMp 1) false).mpRestart).mpBusy))

/-- MP_RESTART_COMPLETE (R409): the MP runs, its watchdog starts from zero, ALIVE starts again, an MP injection completes (R412). -/
def execMpRestartComplete (s : State) : Host.Outcome State Fault Refusal :=
  .next (s.when (s.on && s.mp.run = 1 && s.start.done.contains .B) (fun t =>
    let t1 := (t.setMp (fun m => { m with run := 0, kick := t.tick })).aliveStart
    match t1.flt.inj.find? (fun j => j.unit.toNat = uMp && j.fired) with
    | some j => t1.injEnd j.unit stOk j.index.toNat
    | none => t1))

/-! ## Injections (R412, R413) -/

/-- INJECT_TIMEOUT (R412). -/
def execInjectTimeout (unit : W16) (s : State) : Host.Outcome State Fault Refusal :=
  .next (s.when (s.on && s.flt.inj.any (fun j => j.unit = unit && !j.fired && j.since + secs 1 ≤ s.tick)) (fun t => t.injEnd unit stTimeout 0))

/-- The result of FLT_INJ_GO: status and value (R98). -/
def State.injResult (s : State) (st v : Nat) : State :=
  s.setFlt (fun f => { f with injStatus := BitVec.ofNat 8 st, injVal := BitVec.ofNat 32 v })

/-- INJ_GO (R413): checked as R411 and R412 do, then armed; the secure world injects into units it owns and the key store. -/
def execInjGo (val : W32) (s : State) : Host.Outcome State Fault Refusal :=
  .next (s.when (s.whoOk .secure && val.getLsbD 0) (fun t =>
    let u := t.flt.injTarget.toNat
    let m := t.flt.injMask.toNat
    let t1 := t.setFlt (fun f => { f with injSeq := f.injSeq + 1 })
    if t1.deck.lc == .endState then t1.injResult stMode 0
    else match failAt (injChecks t1 u m) with
    | some (st, r0) => t1.injResult st r0
    | none => if t1.secUnit u then (t1.injResult stNotReady 0).arm u m none else t1.injResult stDenied 0))

/-! ## Background self-test (R415-R418) -/

/-- Background tests run at all (R414, R415). -/
def State.bgOn (s : State) : Bool := s.live && s.isReady && s.flt.bgEn && s.deck.lc != .endState

/-- A SELFTEST of scope 0 that waits for its test: handle and unit; of a bank or of the spare of cluster c (R419). -/
def State.waitingTest (s : State) (c : Nat) (bank : Bool) : Option (Nat × Nat) :=
  let m := s.memCl c
  let busy := fun (h : Nat) => (m.test.any (fun x => x.handle = some h)) || m.engTest == some (some h)
  (s.qm.cmds.find? (fun x =>
    let u := pkN x.pkt 9 2
    x.stage == .running && x.opcode = 0x63 && pkN x.pkt 8 1 = 0 && !busy x.handle &&
      (if bank then 0x1100 ≤ u && u < 0x1200 && (u - 0x1100) / 16 = c else 0x1000 ≤ u && u < 0x1090 && (u - 0x1000) / 9 = c))).map
    (fun x => (x.handle, pkN x.pkt 9 2))

/-- Start the test of bank b once it has its TEST grant (R429). -/
def State.tryBankTest (s : State) (c b : Nat) (p : Option Nat) (h : Option Nat) : State :=
  let s1 := s.askGrant 8 1 (whoTest (uBank c b))
  if s1.hasGrant 8 (whoTest (uBank c b)) then
    (s1.startBankTest c b p h).updMem c (fun m => if h.isSome then m else { m with nextBank := (b + 1) % 16, lastBank := s.tick })
  else s1

/-- BANK_TEST_START (R415): a waiting SELFTEST, or the next bank in rotation that R415 does not skip. -/
def execBankTestStart (c : ClId) (s : State) : Host.Outcome State Fault Refusal :=
  .next (s.when (s.live && s.testFree c.val) (fun t => match t.waitingTest c.val true with
    | some (h, u) => match t.bankPlan c.val (u % 16) with
      | some p => t.tryBankTest c.val (u % 16) p (some h)
      | none => t.finishH h stNotPermitted 9 0
    | none =>
      let m := t.memCl c.val
      if t.bgOn && m.lastBank + secs t.flt.bankInterval.toNat ≤ t.tick then
        match ((upTo 16).map (fun k => (m.nextBank + k) % 16)).find? (fun b => (t.bankPlan c.val b).isSome) with
        | some b => t.tryBankTest c.val b ((t.bankPlan c.val b).getD none) none
        | none => t.updMem c.val (fun x => { x with lastBank := t.tick })
      else t))

/-- Start the test of the cluster's spare engine n once it has its TEST grant. -/
def State.trySpareTest (s : State) (c n : Nat) (h : Option Nat) : State :=
  let s1 := s.askGrant 8 1 (whoTest (uPe n))
  if s1.hasGrant 8 (whoTest (uPe n)) then
    s1.updMem c (fun m => { m with engTest := some h, lastEng := if h.isSome then m.lastEng else s.tick })
  else s1

/-- SPARE_ENGINE_TEST_START (R415): skipped when no engine holds the spare role or the spare serves. -/
def execSpareEngineTestStart (c : ClId) (s : State) : Host.Outcome State Fault Refusal :=
  .next (s.when (s.live && s.testFree c.val) (fun t =>
    let spare := if t.spareServes c.val then none else t.spareOf c.val
    match t.waitingTest c.val false with
    | some (h, u) => if spare = some (u - 0x1000) then t.trySpareTest c.val (u - 0x1000) (some h) else t.finishH h stNotPermitted 9 0
    | none =>
      if t.bgOn && (t.memCl c.val).lastEng + secs t.flt.engInterval.toNat ≤ t.tick then
        match spare with
        | some n => t.trySpareTest c.val n none
        | none => t.updMem c.val (fun x => { x with lastEng := t.tick })
      else t))

/-- A test ends: counted, its command completes, its grant is released (R417, R419). -/
def State.testEnd (s : State) (u : Nat) (pass : Bool) (h : Option Nat) (index : W32) : State :=
  let s1 := s.setFlt (fun f => if pass then { f with bgPass := sat64 f.bgPass 1 } else { f with bgFail := sat64 f.bgFail 1 })
  let s2 := s1.releaseGrant 8 (whoTest u)
  match h with
  | some k => if pass then s2.finishH k stOk 0 0 else s2.finishH k stDeviceFault index.toNat 0
  | none => s2

/-- The phase that follows a test phase of a bank: in place the test ends, by remap a passed bank is restored, under the cluster's MEMORY grant (R427); a failed one stays served by the spare (R416, R417). -/
def State.bankTested (s : State) (c : Nat) (x : BankTest) (pass : Bool) : State :=
  let u := uBank c x.bank
  if pass then
    match x.spare with
    | some _ => (s.updMem c (fun m => { m with test := some { x with phase := 3 } })).memTake c
    | none => ((s.zeroBank c x.bank).updMem c (fun m => { m with test := none })).testEnd u true x.handle 0
  else
    let s1 := s.rep0 u 0x28 x.bank
    let s2 := s1.updMem c (fun m => { m with test := none, bankBad := m.bankBad ++ [x.spare.getD x.bank] })
    s2.testEnd u false x.handle s1.lastIndex

/-- BANK_TEST_PHASE_END (R416, R417): `pass` is the result of the test phase. -/
def execBankTestPhaseEnd (c : ClId) (pass : Bool) (s : State) : Host.Outcome State Fault Refusal :=
  .next (s.when s.live (fun t => match (t.memCl c.val).test with
    | none => t
    | some x =>
      if x.phase = 1 then
        (t.updMem c.val (fun m => { m with
          test := some { x with phase := 2 }, remap := Sp.put m.remap x.bank x.bank (x.spare.getD x.bank), remapAt := some (x.bank, t.tick) })).memGive c.val
      else if x.phase = 2 then t.bankTested c.val x pass
      else
        ((t.updMem c.val (fun m => { m with test := none, remap := m.remap.filter (fun e => e.1 != x.bank), remapAt := some (x.bank, t.tick) })).memGive c.val).testEnd
          (uBank c.val x.bank) true x.handle 0))

/-- SPARE_ENGINE_TEST_END (R417): a spare that fails is retired. -/
def execSpareEngineTestEnd (c : ClId) (pass : Bool) (s : State) : Host.Outcome State Fault Refusal :=
  .next (s.when s.live (fun t => match (t.memCl c.val).engTest, t.spareOf c.val with
    | some h, some n =>
      let t1 := t.updMem c.val (fun m => { m with engTest := none })
      if pass then t1.testEnd (uPe n) true h 0
      else
        let t2 := (t1.rep0 (uPe n) 0x28 (n % 9))
        ((t2.updPe n (fun p => { p with role := .retired })).injWithdraw (uPe n)).testEnd (uPe n) false h t2.lastIndex
    | _, _ => t))

/-! ## Full self-test (R419, Table 14.9) -/

/-- The unit is finished and may be tested: a group or coder has ended its work (Table 14.9). -/
def State.testReady (s : State) (u : Nat) : Bool :=
  if 0x100 ≤ u && u < 0x140 then (s.grp (u - 0x100)).run.isNone && (s.grp (u - 0x100)).queue.isEmpty
  else if 0x200 ≤ u && u < 0x240 then (s.coder (u - 0x200)).run.isNone && (s.coder (u - 0x200)).queue.isEmpty
  else true

/-- Content after a full test (Table 14.9). -/
def State.testContent (s : State) (u : Nat) : State :=
  if 0x1000 ≤ u && u < 0x1090 then s.dropL1All ((u - 0x1000) / 9) ((u - 0x1000) % 9)
  else if 0x1100 ≤ u && u < 0x1200 then s.zeroBank ((u - 0x1100) / 16) (u % 16)
  else if 0x1200 ≤ u && u < 0x1210 then s.updMem (u - 0x1200) (fun m => { m with l2 := [] })
  else if u = 0xFFFF then
    (upTo 16).foldl (fun t c => t.updMem c (fun m => { m with
      l2 := [], l1 := m.l1.filterMap (fun x =>
        let y := { x.2 with blks := [], vc := [], plru := [] }
        if y = L1.init then none else some (x.1, y)) })) { s with bytes := [], poison := [], ecc := [] }
  else s

/-- What a failed full test does (R419): a unit that can retire does, any other declares F4. -/
def State.testFailed (s : State) (u : Nat) : State :=
  if 0x1000 ≤ u && u < 0x1090 then
    ((s.rep0 u 0x28 ((u - 0x1000) % 9)).updPe (u - 0x1000) (fun p => { p with role := .retired })).injWithdraw u
  else if 0x1100 ≤ u && u < 0x1200 then
    (s.rep0 u 0x28 (u % 16)).updMem ((u - 0x1100) / 16) (fun m => { m with bankBad := m.bankBad ++ [u % 16] })
  else if 0x100 ≤ u && u < 0x140 then
    let s1 := s.rep0 u 0x33 ((u - 0x100) / 4)
    s1.retireGrp (u - 0x100) s1.lastIndex
  else if 0x200 ≤ u && u < 0x240 then
    let s1 := s.rep0 u 0x21 (u - 0x200)
    let s2 := s1.retireCoder (u - 0x200) s1.lastIndex
    let c := (u - 0x200) / 4
    if (upTo 4).all (fun j => (s2.coder (4 * c + j)).retired) then s2.rep0 u 0x33 c else s2
  else s.rep0 u 0x44 u

/-- The index of the record a failed test made: the first one after the failure. -/
def State.failIndex (s : State) : Nat := s.flt.next.toNat

/-- SELFTEST_COMPLETE (R419): a full test under its TEST grant ends. -/
def execSelftestComplete (unit : W16) (pass : Bool) (s : State) : Host.Outcome State Fault Refusal :=
  let u := unit.toNat
  .next (s.when (s.live && s.hasGrant 8 (whoTest u) && s.testReady u) (fun t => match t.flt.selftests.find? (fun x => x.1 = unit) with
    | none => t
    | some x =>
      let t1 := ((t.testContent u).setFlt (fun f => { f with selftests := f.selftests.filter (fun y => y.1 != unit) })).releaseGrant 8 (whoTest u)
      if pass then t1.finishH x.2 stOk 0 0
      else (t1.testFailed u).finishH x.2 stDeviceFault t1.failIndex 0))

end Sys2Proof.Machine
end

