-- ==== Sys2Proof/Machine/Power.lean ====
section
/-! DEFINITION. Power: grants and the pool, the regulator, temperature, the supply monitor, the Skid decision and the hold-up store (R422-R442, R462, R468, R471, R475). -/

namespace Sys2Proof.Machine

/-! ## Grants (R427-R429) -/

/-- A test of unit u is due, waits or runs: 1 A for a background test, 2 A for a full test (Table 15.2). -/
def State.testNeeds (s : State) (u : Nat) : Option Nat :=
  if s.flt.selftests.any (fun x => x.1.toNat = u) then some 2
  else if 0x1100 ≤ u && u < 0x1200 then
    let c := (u - 0x1100) / 16
    let m := s.memCl c
    let due : Bool := s.bgOn && s.testFree c && m.lastBank + secs s.flt.bankInterval.toNat ≤ s.tick &&
      ((upTo 16).map (fun k => (m.nextBank + k) % 16)).find? (fun b => (s.bankPlan c b).isSome) == some (u % 16)
    if m.test.any (fun x => x.bank = u % 16) || (s.waitingTest c true).any (fun w => w.2 = u) || due then some 1 else none
  else if 0x1000 ≤ u && u < 0x1090 then
    let c := (u - 0x1000) / 9
    let spare := s.spareOf c == some (u - 0x1000)
    let due : Bool := s.bgOn && s.testFree c && !s.spareServes c && (s.memCl c).lastEng + secs s.flt.engInterval.toNat ≤ s.tick
    if spare && ((s.memCl c).engTest.isSome || (s.waitingTest c false).any (fun w => w.2 = u) || due) then some 1 else none
  else none

/-- The amperes that requester `who` needs in a class while its purpose lasts (Table 15.2); none: no purpose. -/
def State.needs (s : State) (cls who : Nat) : Option Nat :=
  match cls with
  | 0 => if who = whoTally then some 4 else none
  | 1 => if who = whoSkid && s.start.writing.any (fun w => w.1 != .sag) then some 8 else none
  | 2 =>
    if who = whoPaths then some 2
    else if 0x500 ≤ who && who < 0x510 && (upTo 9).any (fun k => (s.pe (9 * (who - 0x500) + k)).persistent) then some 1 else none
  | 3 =>
    if who < 0x80 then
      if (s.le who).running || (s.engineIdle who && s.usedIdx.any (fun i => s.waitsEngine i && s.mayServe i who)) then some 1 else none
    else if who < 0x100 && (s.le (who - 0x80)).running && (s.hasGrant 3 who || (s.le (who - 0x80)).freeze.any (fun f => f.1 = 4)) then some 1 else none
  | 4 =>
    if 0x100 ≤ who && who < 0x140 then
      let x := s.grp (who - 0x100)
      if x.run.isSome || (!x.retired && !x.queue.isEmpty) then some 2 else none
    else if 0x200 ≤ who && who < 0x240 then
      let x := s.coder (who - 0x200)
      if x.run.isSome || (!x.retired && !x.queue.isEmpty) then some 1 else none
    else none
  | 5 => if 0x300 ≤ who && who < 0x310 && s.memBusy (who - 0x300) then some 2 else none
  | 6 =>
    if 0x400 ≤ who && who < 0x410 && (upTo 16).any (fun k => (s.link (16 * (who - 0x400) + k)).state != .disabled) then some 2 else none
  | 7 => if who = whoHost then some 4 else none
  | 8 => if 0x1000 ≤ who then s.testNeeds (who - 0x1000) else none
  | _ => none

/-- POWER_GRANT_REQUEST (R427-R429): a request for a purpose of Table 15.2 is decided. -/
def execPowerGrantRequest (cls : Fin 9) (amps who : Nat) (s : State) : Host.Outcome State Fault Refusal :=
  .next (s.when (s.on && !s.start.warm && !s.flt.grave && s.start.done.contains .D && s.needs cls.val who = some amps) (fun t => t.askGrant cls.val amps who))

/-- POWER_GRANT_RELEASE (R427, R428): a grant whose purpose has ended is released. -/
def execPowerGrantRelease (cls : Fin 9) (who : Nat) (s : State) : Host.Outcome State Fault Refusal :=
  .next (s.when (s.on && (s.needs cls.val who).isNone) (fun t => t.releaseGrant cls.val who))

/-! ## The pool (R430, R431) -/

/-- CEIL. -/
def Pwr.ceil (p : Pwr) : Nat := p.iccMax.toNat - p.idleA.toNat

/-- Amperes over the envelope or the declared limit, rounded up (R430). -/
def Pwr.excess (p : Pwr) (d i : Nat) : Nat := max (((d - p.envelope.toNat) * 1000 + p.target.toNat - 1) / p.target.toNat) (i - p.iccMax.toNat)

/-- The next POOL (R430, R433). -/
def Pwr.nextPool (p : Pwr) (d i : Nat) : Nat :=
  if p.throttle then 122
  else if 0 < p.excess d i then max 122 (p.pool.toNat - p.excess d i)
  else if d + 10 < p.envelope.toNat && i + 10 < p.iccMax.toNat then max 122 (min p.ceil (p.pool.toNat + 16))
  else p.pool.toNat

/-- POOL_UPDATE (R430): OVER shows a draw above the envelope with the pool at its floor (R431). -/
def execPoolUpdate (d i : BitVec 10) (s : State) : Host.Outcome State Fault Refusal :=
  .next (s.when (s.on && s.start.done.contains .D) (fun t =>
    (t.setPwr (fun p =>
      let n := p.nextPool d.toNat i.toNat
      { p with d := d, i := i, pool := BitVec.ofNat 10 n, overrun := p.envelope.toNat < d.toNat && n = 122 })).serveGrants))

/-! ## Pace and the regulator (R422-R426, R468) -/

/-- PACE_READ (R422): the longest step time of the sixteen monitors. -/
def execPaceRead (ps : List Nat) (s : State) : Host.Outcome State Fault Refusal :=
  .next (s.when (s.on && ps.length = 16) (fun t => t.setPwr (fun p => { p with paceNow := BitVec.ofNat 10 (min 1023 (ps.foldl max 0)) })))

/-- Set the target and write it as one VOUT_COMMAND, in mV (R426). -/
def State.setTarget (s : State) (mv : Nat) : State :=
  if s.pwr.target.toNat = mv then s else (s.setPwr (fun p => { p with target := BitVec.ofNat 12 mv })).emit (.vrm 0x21 mv)

/-- The supply monitor reports a sag (R426, R436). -/
def State.sag (s : State) : Bool := s.pwr.stop || s.pwr.keep

/-- In FIXED mode the target is VSET, once the PWR may change it (R425, R426). -/
def State.fixTarget (s : State) : State :=
  if s.start.done.contains .D && !s.pwr.pace && !s.sag && !s.pwr.vrmDead then s.setTarget s.pwr.vset.toNat else s

/-- PACE_ADJUST (R426): 5 mV towards PACE_TARGET, within VMIN to VMAX; none during a sag, nor with a regulator that was not linear at start-up (R425). -/
def execPaceAdjust (s : State) : Host.Outcome State Fault Refusal :=
  .next (s.when (s.on && s.start.done.contains .D && s.pwr.pace && !s.sag && !s.pwr.vrmDead) (fun t =>
    let p := t.pwr
    let want :=
      if p.paceTarget.toNat + 10 < p.paceNow.toNat then p.target.toNat + 5
      else if p.paceNow.toNat + 10 < p.paceTarget.toNat then p.target.toNat - 5 else p.target.toNat
    t.setTarget (clampN p.vmin.toNat p.vmax.toNat want)))

/-- VRM_POLL (R426): READ_VOUT, READ_IOUT and STATUS_WORD. -/
def execVrmPoll (vout : BitVec 12) (iout : BitVec 10) (status : W16) (s : State) : Host.Outcome State Fault Refusal :=
  .next (s.when (s.on && s.start.done.contains .D) (fun t =>
    (((t.emit (.vrm 0x8B vout.toNat)).emit (.vrm 0x8C iout.toNat)).emit (.vrm 0x79 status.toNat)).setPwr (fun p => { p with vout := vout, statusWord := status })))

/-- VRM_TRANSFER_FAIL (R468): the transfer is abandoned; the target in force stays. -/
def execVrmTransferFail (s : State) : Host.Outcome State Fault Refusal :=
  .next (s.when s.on (fun t => t.setPwr (fun p => { p with vrmErr := true })))

/-! ## Temperature (R433, R471) -/

/-- THERMAL_SAMPLE: readings of the 36 sensors in °C. -/
def execThermalSample (temps : List Nat) (s : State) : Host.Outcome State Fault Refusal :=
  .next (s.when (temps.length = 36) (fun t =>
    let hot := temps.foldl max 0
    t.setPwr (fun p =>
      let hold : Bool := if p.tjLimit.toNat ≤ hot then true else if hot + 5 ≤ p.tjLimit.toNat then false else p.throttle
      { p with
        tj := BitVec.ofNat 8 (min 255 hot), throttle := t.on && hold, pool := if t.on && hold then 122 else p.pool
        thermN := if 110 ≤ hot then true else if hot < 100 then false else p.thermN })))

/-! ## The supply monitor (R434-R436) -/

/-- The NV stop: no Deck write but a Skid starts; writes wait beside what the Deck holds (R436). -/
def State.nvStop (s : State) (mv : BitVec 10) : State :=
  s.setPwr (fun p => { p with mainSense := mv, stop := true, nv := if p.stop then p.nv else some s.deck.nv })

/-- NV_STOP_END (R436): paused Deck writes resume, the blaze write of a grave stop and freed abort notes among them (R129). -/
def execNvStopEnd (mv : BitVec 10) (s : State) : Host.Outcome State Fault Refusal :=
  .next (s.when (s.on && s.pwr.stop && s.pwr.sagStop.toNat + 20 ≤ mv.toNat) (fun t =>
    let t1 := t.setPwr (fun p => { p with mainSense := mv, stop := false, nv := none })
    let t2 := t1.setDeck (fun d => { d with holdCap := t1.pwr.holdCap, notes := d.notes.filter (fun n => !n.gone) })
    (if t2.flt.grave then t2.setDeck (fun d => { d with blaze := t2.flt.blaze }) else t2).fixTarget))

/-! ## The hold-up store (R437, R438, R475) -/

/-- C_EFF in µF (R437). -/
def Pwr.capEff (p : Pwr) : Nat := if p.cValid then min p.holdCap.toNat p.cMeas.toNat else p.holdCap.toNat * 8 / 10

/-- E in mJ at V_HOLD of v mV (R437). -/
def Pwr.energyAt (p : Pwr) (v : Nat) : Nat := p.capEff * (v * v - 49000000) / 2000000000

/-- LEVEL (Table 15.12). -/
def Pwr.levelOf (p : Pwr) (e : Nat) : Nat :=
  if p.fullReq.toNat ≤ e then 3 else if p.prioReq.toNat ≤ e then 2 else if 2 ≤ e then 1 else 0

/-- HOLD_STATUS_UPDATE (R437). -/
def execHoldStatusUpdate (vhold : W16) (s : State) : Host.Outcome State Fault Refusal :=
  .next (s.when s.on (fun t => t.setPwr (fun p =>
    let e := p.energyAt vhold.toNat
    { p with vHold := vhold, cEff := BitVec.ofNat 20 p.capEff, energy := BitVec.ofNat 16 (min 65535 e), level := BitVec.ofNat 2 (p.levelOf e) })))

/-- A hold-up check starts, or is put off by 60 s (R438). -/
def State.holdStart (s : State) (vhold : Nat) : State :=
  if s.pwr.stop || vhold < 10800 then s.setPwr (fun p => { p with checkDue := s.tick + secs 60 })
  else s.setPwr (fun p => { p with check := some (s.tick, BitVec.ofNat 16 vhold) })

/-- HOLD_CHECK_START (R438): a due check. -/
def execHoldCheckStart (vhold : W16) (s : State) : Host.Outcome State Fault Refusal :=
  .next (s.when (s.on && s.pwr.check.isNone && s.pwr.checkDue ≤ s.tick) (fun t => t.holdStart vhold.toNat))

/-- PERIOD of PWR_HOLD_CHECK, clamped to 1-24 h (Table 15.5). -/
def State.holdPeriodWrite (s : State) (f v : Nat) : State :=
  let k := clampN 1 24 v
  (s.clampFn f (clamped v k)).setPwr (fun p => { p with holdPeriod := BitVec.ofNat 5 k })

/-- A write of PWR_HOLD_CHECK by function f (Table 15.5): PERIOD, and with GO = 1 a check, with V_HOLD at vhold mV; GO reads 1 until a check completes. -/
def State.holdCheckWrite (s : State) (f v vhold : Nat) : State :=
  let s1 := s.holdPeriodWrite f (bitsOf v 0 5)
  if bitsOf v 31 1 = 0 then s1
  else
    let s2 := s1.setPwr (fun p => { p with checkGo := true })
    if s2.pwr.check.isSome then s2 else s2.holdStart vhold

/-- HOLD_CHECK_GO (R438): a PF write of PWR_HOLD_CHECK with GO = 1. -/
def execHoldCheckGo (p : PortId) (val vhold : W32) (s : State) : Host.Outcome State Fault Refusal :=
  .next (s.when (s.whoOk (.pf p) && val.getLsbD 31) (fun t =>
    t.holdCheckWrite (pfOf p.val) val.toNat (vhold.toNat % 65536)))

/-- HOLD_CHECK_COMPLETE (R438): C_MEAS = 0.010 A·s ÷ ΔV. -/
def execHoldCheckComplete (vhold : W16) (s : State) : Host.Outcome State Fault Refusal :=
  .next (s.when s.on (fun t => match t.pwr.check with
    | none => t
    | some (t0, v0) =>
      if t0 + 1000000 ≤ t.tick then
        let dv := v0.toNat - vhold.toNat
        let c := if dv < 1 then 1000000 else min 1000000 (10000000 / dv)
        t.setPwr (fun p => { p with
          check := none, checkGo := false, cMeas := BitVec.ofNat 20 c, cValid := true, checkDue := t.tick + secs (3600 * p.holdPeriod.toNat) })
      else t))

/-- A write of PWR_HOLD_CAP: kept in the Deck at once, or when the NV stop ends (R436, R475). -/
def State.holdCapWrite (s : State) (v : Nat) : State :=
  let c : BitVec 20 := BitVec.ofNat 20 (bitsOf v 0 20)
  let s1 := s.setPwr (fun q => { q with holdCap := c })
  if s1.pwr.stop then s1 else s1.setDeck (fun d => { d with holdCap := c })

/-- HOLD_CAP_WRITE (R475). -/
def execHoldCapWrite (p : PortId) (val : W32) (s : State) : Host.Outcome State Fault Refusal :=
  .next (s.when (s.whoOk (.pf p)) (fun t => t.holdCapWrite val.toNat))

/-- PWR_CNT_CLEAR (R442). -/
def execPwrCntClear (w : Who) (val : W32) (s : State) : Host.Outcome State Fault Refusal :=
  .next (s.when (s.whoOk w && val.getLsbD 0) (fun t => t.setPwr (fun p => { p with waited := [] })))

/-! ## The Skid (R439-R441, R462) -/

/-- The image a Skid writes (R440): none: nothing; some none: a header alone. -/
def State.skidPlan (s : State) (e : Nat) : Option (Option Image) :=
  if s.start.skidDone || !s.start.loaded then none
  else if s.pwr.fullReq.toNat ≤ e then some (some (s.image .full false))
  else if s.pwr.prioReq.toNat ≤ e then some (some (s.image .priority false))
  else if 2 ≤ e then some none
  else none

/-- A crossing of SAG_SKID (Table 15.4): an image already being written goes on. -/
def State.skidStart (s : State) (vhold : Nat) : State :=
  let plan := s.skidPlan (s.pwr.energyAt vhold)
  let s1 := s.aliveStop.quietLinks
  let s2 := (upTo 2).foldl (fun (t : State) (p : Nat) => t.updPort p (fun x => { x with up := false, trained := false, speed := 0, width := 0 })) s1
  { s2 with
    tly := { s1.tly with stopped := true, ckpt := none }
    pwr := { s1.pwr with keep := true, check := none, grants := [], waiting := [] }
    start := { s1.start with
      skidDone := s1.start.skidDone || s1.start.loaded
      writing := match plan with | some i => some (.sag, i) | none => s1.start.writing } }

/-- With both port reference clocks lost and MAIN_SENSE below SAG_STOP_NV the Skid starts (R434), with V_HOLD as last read (log 97). -/
def State.clocksGone (s : State) : State :=
  if s.on && s.pwr.stop && s.pwr.mainSense.toNat < s.pwr.sagStop.toNat && !(s.port 0).refclk && !(s.port 1).refclk then s.skidStart s.pwr.vHold.toNat else s

/-- REFCLK_LOSS (R434, R464): the port's link is down and the port lost; TICK goes on from another source (R28). -/
def execRefclkLoss (p : PortId) (s : State) : Host.Outcome State Fault Refusal :=
  let s1 := s.updPort p.val (fun x => { x with refclk := false, trainDue := none })
  .next (if s.on && (s.port p.val).refclk then (s1.losePort p.val true true).clocksGone else s1)

/-- SAG_STOP_NV_CROSSING (R434-R436). -/
def execSagStopNvCrossing (mv : BitVec 10) (s : State) : Host.Outcome State Fault Refusal :=
  .next (s.when (s.on && mv.toNat < s.pwr.sagStop.toNat) (fun t => (t.nvStop mv).clocksGone))

/-- SAG_SKID_CROSSING (R439). -/
def execSagSkidCrossing (mv : BitVec 10) (vhold : W16) (s : State) : Host.Outcome State Fault Refusal :=
  .next (s.when (s.on && mv.toNat < s.pwr.sagSkid.toNat) (fun t =>
    (t.nvStop mv).skidStart vhold.toNat))

/-- RAIL_UNDERVOLTAGE (R434, R462). -/
def execRailUndervoltage (r : Rail) (vhold : W16) (s : State) : Host.Outcome State Fault Refusal :=
  .next (s.when s.on (fun t => match r with
    | .core => t.skidStart vhold.toNat
    | .io => t.skidStart vhold.toNat
    | .mram => t.skidStart vhold.toNat
    | .hbm which =>
      (upTo 4).foldl (fun (u : State) (k : Nat) =>
        if which.getLsbD k then
          (u.setLnd (fun l => { l with stackOk := l.stackOk &&& ~~~(BitVec.ofNat 4 (1 <<< k)) })).rep0 (uStack k) 0x40 k
        else u) t
    | .serdes =>
      let t1 := (upTo 256).foldl (fun (u : State) (l : Nat) =>
        let st := (u.link l).state
        if u.live && (st == .up || st == .probing) then u.linkTo l .down 1 else u) t
      (upTo 2).foldl (fun (u : State) (p : Nat) => if (u.port p).up then u.losePort p true true else u) t1))

/-- HOLD_UP_STORE_EXHAUSTED (R441): the module is unpowered, and an image not finished leaves its header unwritten. -/
def execHoldUpStoreExhausted (s : State) : Host.Outcome State Fault Refusal :=
  .next (s.when s.pwr.keep (fun t =>
    (t.setPwr (fun p => { p with keep := false })).setStart (fun x => { x with off := true, writing := none })))

end Sys2Proof.Machine
end

