-- ==== Sys2Proof/Machine/Startup.lean ====
section
/-! DEFINITION. Module resets, the start-up phases, warm reset, managed hot-remove, images written from the main supply, and the configuration kept in the Deck (R128, R443-R457). -/

namespace Sys2Proof.Machine

/-! ## Registers kept as words (Tables 10.8, 15.7, 15.10, 15.11, 14.13) -/

def Pwr.vctl (p : Pwr) : Nat := fields [(44, p.paceTarget.toNat), (32, p.vmax.toNat), (20, p.vmin.toNat), (8, p.vset.toNat), (7, b2n p.pace), (0, p.vrmAddr.toNat)]
def Pwr.sagWord (p : Pwr) : Nat := fields [(16, p.sagSkid.toNat), (0, p.sagStop.toNat)]
def Pwr.reqWord (p : Pwr) : Nat := fields [(16, p.prioReq.toNat), (0, p.fullReq.toNat)]
def Coh.ctrl (c : Coh) : Nat := fields [(32, c.endpointTo.toNat), (12, c.homeTo.toNat), (1, b2n c.devEaOk), (0, b2n c.hostPort)]
def Flt.exit (f : Flt) (k : Nat) : Nat := fields [(31, b2n (f.hold.getLsbD (k - 1))), (0, f.quietOf k)]

/-- The power items of Table 16.4. -/
def Pwr.load (p : Pwr) (c : ConfigRec) : Pwr :=
  let v := c.vctl.toNat
  { p with
    envelope := c.envelope, iccMax := c.iccMax, tjLimit := c.tjLimit
    paceTarget := BitVec.ofNat 10 (bitsOf v 44 10), vmax := BitVec.ofNat 12 (bitsOf v 32 12), vmin := BitVec.ofNat 12 (bitsOf v 20 12)
    vset := BitVec.ofNat 12 (bitsOf v 8 12), pace := bitsOf v 7 1 = 1, vrmAddr := BitVec.ofNat 7 (bitsOf v 0 7)
    sagSkid := BitVec.ofNat 10 (bitsOf c.sag.toNat 16 10), sagStop := BitVec.ofNat 10 (bitsOf c.sag.toNat 0 10)
    prioReq := BitVec.ofNat 12 (bitsOf c.skidReq.toNat 16 12), fullReq := BitVec.ofNat 12 (bitsOf c.skidReq.toNat 0 12) }

/-- The record of the items of Table 16.4 as they stand; TRU_WM_NEXT, TRU_BOOT_NEXT, the images and PWR_HOLD_CAP stand in the Deck by themselves. -/
def State.configNow (s : State) : ConfigRec :=
  let p := s.pwr
  let y := s.tly
  { groups := s.ch.groups, links := (s.ch.links.map (fun l => (l.1, l.2.cfg))).filter (fun l => l.2 != LinkCfg.init)
    moduleId := s.ch.moduleId, frameLife := s.ch.frameLife
    fns := (s.qm.fns.map (fun f => (f.1, (f.2.maxQp, f.2.tallyLimit, f.2.expert)))).filter (fun f => f.2 != (Fn.init.maxQp, Fn.init.tallyLimit, Fn.init.expert))
    binds := s.mp.binds, prioCap := y.prioCap, resolveWait := y.resolveWait, ckptPeriod := y.ckptPeriod, reuseHold := y.reuseHold
    envelope := p.envelope, iccMax := p.iccMax, vctl := BitVec.ofNat 64 p.vctl, sag := BitVec.ofNat 32 p.sagWord
    skidReq := BitVec.ofNat 32 p.reqWord, tjLimit := p.tjLimit, alertMin := s.flt.alertMin, blazeMin := s.flt.blazeMin
    exits := [1, 2, 3].map (fun k => BitVec.ofNat 32 (s.flt.exit k)), wdog := s.flt.wdogPeriod, cohCtrl := BitVec.ofNat 64 s.coh.ctrl
    hoWait := s.tru.hoWait, debug := s.tru.debug }

/-- CONFIG_RECORD_WRITE (R449): the older record is written and becomes the valid one; not while the NV stop is in force (R436). -/
def execConfigRecordWrite (s : State) : Host.Outcome State Fault Refusal :=
  .next (s.when (s.on && s.start.done.contains .J && s.mp.cfgDirty && !s.pwr.stop) (fun t =>
    (t.setDeck (fun d => { d with config := some t.configNow, configSeq := d.configSeq + 1, configOld := d.config })).setMp (fun m => { m with cfgDirty := false })))

/-! ## Module resets (R443-R445) -/

/-- The Deck as it stands written: a load in progress and records that wait for the NV stop have not reached it (R74, R436). -/
def State.deckKept (s : State) : Deck :=
  let d := if s.mp.load.isSome then s.loadUndo.deck else s.deck
  match s.pwr.nv with
  | some k => { d with lcNext := k.lcNext, wmNext := k.wmNext, bootNext := k.bootNext, ownerKey := k.ownerKey, patch := k.patch, blaze := k.blaze }
  | none => d

/-- The state right after a module reset: ALIVE is low, HP_ATTN_N is released (R30, R453); the Deck, the fuse, what drives the pins, and what the model keeps of its own stay; a warm or supply-return reset keeps the outstanding classes in HOLD (R445); a blaze saved by a grave stop comes back with PRIOR (R405). -/
def State.resetFrom (s : State) (cause : Nat) : State :=
  let r := State.reset
  let env := fun (p : Nat) =>
    let x := s.port p
    { Port.init with perst := x.perst, refclk := x.refclk, trainDue := if x.refclk && !x.perst then some (ms 20) else none }
  { r with
    ports := Sp.put (Sp.put [] Port.init 0 (env 0)) Port.init 1 (env 1)
    deck := s.deckKept
    ch := { r.ch with lref := s.ch.lref }
    pwr := { r.pwr with holdCap := s.deck.holdCap, thermN := s.pwr.thermN }
    flt := { r.flt with
      blaze := s.deckKept.blaze.map (fun b => { b with prior := true })
      outst := if cause = 0 then 0 else s.flt.outst &&& (s.flt.hold.setWidth 4) }
    start := { r.start with cause := BitVec.ofNat 3 cause }
    fresh := s.fresh
    out := (s.aliveStop.attnDrive false).out
    pending := s.pending }

/-- A port reference clock is present (R445). -/
def State.clocked (s : State) : Bool := (s.port 0).refclk || (s.port 1).refclk

/-- Reset release after a module reset (R445): TICK counts from it, and the ports with a clock train. -/
def State.release (s : State) : State :=
  let go := fun (x : Port) => { x with trainDue := if x.refclk && !x.perst then some (ms 20) else none }
  ((({ s with tick := 0 }).updPort 0 go).updPort 1 go).setStart (fun x => { x with off := false, held := none })

/-- A warm or supply-return reset; without a port reference clock the module is then held in reset (R28, R445). -/
def State.resetHold (s : State) (cause : Nat) : State :=
  let t := s.resetFrom cause
  if s.clocked then t else t.setStart (fun x => { x with off := true, held := some (BitVec.ofNat 3 cause) })

/-- POWER_ON_RESET (R445): an unpowered module, or one held in reset, starts. -/
def execPowerOnReset (s : State) : Host.Outcome State Fault Refusal :=
  .next (s.when (s.start.off && s.clocked) (fun t => if t.start.held.isSome then t.release else t.resetFrom 0))

/-- SUPPLY_RETURN (R441): not while an image is being written. -/
def execSupplyReturn (mv : BitVec 10) (s : State) : Host.Outcome State Fault Refusal :=
  .next (s.when (s.pwr.keep && s.start.writing.isNone && s.pwr.sagStop.toNat + 20 ≤ mv.toNat) (fun t => t.resetHold 2))

/-! ## Images from the main supply (R128, R404, R444, R454) -/

/-- Every Tally bank and unit stops, and a full image is written under the SKID grant (R444 steps 2 to 4, R440). -/
def State.stopAndWrite (s : State) (why : SkidWhy) : State :=
  let s1 := s.setTly (fun y => { y with stopped := true, ckpt := none })
  (s1.setStart (fun x => { x with skidDone := true, writing := some (why, some (s.image .full false)) })).askGrant 1 8 whoSkid

/-- A write of MP_RESET by function f (R444): a wrong KEY is ignored and logged; none while GRAVE is 1. -/
def State.resetWrite (s : State) (f v : Nat) : State :=
  if bitsOf v 16 16 ≠ 0x9256 then s.repF uMp 0x02 f 0x8
  else if bitsOf v 0 1 = 0 || s.flt.grave || s.start.warm then s
  else (s.setStart (fun x => { x with warm := true })).stopAndWrite .warm

/-- WARM_RESET (R444). -/
def execWarmReset (p : PortId) (val : W32) (s : State) : Host.Outcome State Fault Refusal :=
  .next (s.when (s.whoOk (.pf p)) (fun t => t.resetWrite (pfOf p.val) val.toNat))

/-- QUIESCE_WAIT of MP_HP_CTRL (Table 16.8). -/
def State.quiesceWaitWrite (s : State) (f v : Nat) : State :=
  let k := clampN 1 1000 v
  (s.clampFn f (clamped v k)).setStart (fun x => { x with quiesceWait := BitVec.ofNat 10 k })

/-- A write of MP_HP_CTRL by function f (Table 16.8, R454 step 1): QUIESCE is ignored during a warm reset or a grave stop. -/
def State.hpWrite (s : State) (f v : Nat) : State :=
  let s1 := s.quiesceWaitWrite f (bitsOf v 0 10)
  if bitsOf v 31 1 = 0 || s1.start.warm || s1.start.quiesce || s1.flt.grave then s1
  else s1.setStart (fun x => { x with quiesce := true, quiesceAt := s.tick, phase := 5 })

/-- QUIESCE (R454 step 1). -/
def execQuiesce (p : PortId) (val : W32) (s : State) : Host.Outcome State Fault Refusal :=
  .next (s.when (s.whoOk (.pf p) && val.getLsbD 31) (fun t => t.hpWrite (pfOf p.val) val.toNat))

/-- No entry is OPEN or ACTIVE (R454). -/
def State.noneRunning (s : State) : Bool := s.tly.entries.all (fun e => e.2.state != .opened && e.2.state != .active)

/-- QUIESCE_DRAINED (R454 steps 2 and 3). -/
def execQuiesceDrained (s : State) : Host.Outcome State Fault Refusal :=
  .next (s.when (s.live && s.start.quiesce && (s.noneRunning || s.start.quiesceAt + ms s.start.quiesceWait.toNat ≤ s.tick)) (fun t =>
    t.stopAndWrite .quiesce))

/-- The Skid area after an image; a header alone is STALE (R128, R440). -/
def State.skidArea (s : State) (i : Option Image) : Image :=
  match i with
  | some x => { x with seq := s.deck.seq + 1 }
  | none => { s.image .priority true with seq := s.deck.seq + 1, gens := [], entries := [] }

/-- SKID_IMAGE_WRITTEN (R128): the header is written; a warm reset then resets the module, a quiesce reaches READY. -/
def execSkidImageWritten (s : State) : Host.Outcome State Fault Refusal :=
  .next (s.when (!s.start.off) (fun t => match t.start.writing with
    | none => t
    | some (why, i) =>
      let t1 := (t.setDeck (fun d => { d with skid := some (t.skidArea i), seq := d.seq + 1 })).setStart (fun x => { x with writing := none })
      let t2 := t1.releaseGrant 1 whoSkid
      match why with
      | .warm => if t2.pwr.keep then t2 else t2.resetHold 1
      | .quiesce => if t2.pwr.keep then t2 else ((t2.aliveStop.quietLinks).attnDrive true).setStart (fun x => { x with ready := true, phase := 6 })
      | _ => t2))

/-! ## Start-up phases (Table 16.2) -/

/-- The phases that must have ended. -/
def phaseAfter : Phase → List Phase
  | .B => []
  | .C => [.B]
  | .D => [.B]
  | .E => [.D]
  | .F => [.C]
  | .G => [.D]
  | .H => [.C]
  | .I => [.H]
  | .J => [.F, .H]
  | .K => [.E, .G, .I, .J]

/-- Phases that write the Deck outside the Skid area: the EPOCH, the doubt table, the checkpoint (R126, R137, R150). -/
def phaseWrites (ph : Phase) : Bool := ph == .C || ph == .H || ph == .I

/-- Phase ph runs (R446): no grave stop has come, and its Deck writes do not wait for the NV stop (R436). -/
def State.phaseRuns (s : State) (ph : Phase) : Bool :=
  s.on && !s.flt.grave && !(s.pwr.stop && phaseWrites ph) && !s.start.done.contains ph && (phaseAfter ph).all (fun q => s.start.done.contains q)

/-- MP_START.PHASE during start-up (Table 16.6, log 37). -/
def phaseCode (done : List Phase) : BitVec 3 :=
  if done.contains .K then 4 else if done.contains .C then 3 else if done.contains .B then 2 else 1

/-- Phase ph has ended. -/
def State.phaseDone (s : State) (ph : Phase) : State :=
  if s.flt.grave then s
  else s.setStart (fun x => { x with done := x.done ++ [ph], phase := phaseCode (x.done ++ [ph]) })

/-- Phase B: the MP boots (Table 16.3, R391). -/
def State.phaseB (s : State) (bad : Nat) : State :=
  if 2 ≤ bad then s.rep0 uDeck 0x43 0
  else
    let s1 := if bad = 1 then s.rep0 uMp 0x02 0 else s
    (s1.setMp (fun m => { m with run := 0, kick := s.tick })).extend 0 Config.firmwareImage

/-- The effect of a lifecycle transition on the Deck (Table 13.5, R457). -/
def Deck.transit (d : Deck) (next : Lc) : Deck :=
  match next with
  | .endState => { d with lc := .endState, lcNext := none, fuse := true, ownerKey := none, secImage := none, images := [], order := [], skid := none }
  | .service => if d.lc == .field then
      { d with lc := .service, lcNext := none, secImage := none, wmNext := ⟨0, 0, 0, 0⟩, bootNext := ⟨0, 0, 0⟩ }
    else { d with lc := .service, lcNext := none }
  | x => { d with lc := x, lcNext := none }

/-- The register words of TRU_WM and TRU_BOOT (Tables 13.9, 13.10). -/
def Wm.word (w : Wm) : Nat := fields [(40, w.scr.toNat), (32, w.pgm.toNat), (16, w.tly.toNat), (0, w.lnd.toNat)]
def Boot.word (b : Boot) : Nat := fields [(16, b.secGal.toNat), (8, b.secCph.toNat), (0, b.secEng.toNat)]

/-- Phase C: lifecycle, watermarks, owners, EPOCH, M4 and M5 (R150, R375, R376, R389, R391, R457). -/
def State.phaseC (s : State) : State :=
  let s1 := s.setDeck (fun d =>
    let d1 := if d.fuse then { d with lc := .endState, lcNext := none } else d
    let d2 := match d1.lcNext with | some x => d1.transit x | none => d1
    { d2 with epoch := if d2.epoch = 0xFFFFFFFF then 1 else d2.epoch + 1 })
  let w := s1.deck.wmNext
  let b := s1.deck.bootNext
  let own := (upTo b.secEng.toNat) ++ (upTo b.secCph.toNat).map (fun g => 0x100 + g) ++ (upTo b.secGal.toNat).map (fun g => 0x200 + g)
  let s2 := s1.setTru (fun t => { t with wm := w, boot := b, sec := own.foldl (fun (z : Sp Bool) (d : Nat) => Sp.put z false d true) [] })
  let s3 := ((s2.setTly (fun y => { y with secLimit := w.tly })).setLnd (fun l => { l with watermark := w.lnd }))
  (s3.extend 4 (leBytes s1.deck.lc.code 1)).extend 5 (leBytes w.word 8 ++ leBytes b.word 8)

/-- Phase D: the power items, the regulator, the standing grants, IDLE_A and the pool; the training of the Landing follows (R292, R424, R425, R427, R430, R449). -/
def State.phaseD (s : State) (bad : Bool) (idle : Nat) : State :=
  let s1 := match s.deck.config with | some c => s.setPwr (fun p => p.load c) | none => s
  let s2 := (s1.setLnd (fun l => { l with init := 1 })).emit (.vrm 0x20 0)
  let s3 := if bad then s2.setPwr (fun p => { p with vrmErr := true, vrmDead := true, pace := false, target := 800 })
    else (s2.emit (.vrm 0x27 1)).setTarget s2.pwr.vset.toNat
  s3.setPwr (fun p =>
    let q := { p with idleA := BitVec.ofNat 10 idle }
    { q with pool := BitVec.ofNat 10 (max 122 q.ceil), grants := q.grants ++ [⟨0, 4, whoTally⟩, ⟨2, 2, whoPaths⟩, ⟨7, 4, whoHost⟩] })

/-- Phase E: the Landing is trained and filled with zero (R292, Table 16.3). -/
def State.phaseE (s : State) (bad : List Nat) : State :=
  let lost := (upTo 4).filter (fun k => bad.contains k)
  let ok : Nat := fields ((upTo 4).map (fun k => (k, b2n (!lost.contains k))))
  let s1 := ({ s with bytes := [], poison := [], ecc := [] }).setLnd (fun l => { l with init := if lost.isEmpty then 2 else l.init, stackOk := BitVec.ofNat 4 ok })
  lost.foldl (fun (t : State) (k : Nat) => t.rep0 (uStack k) 0x40 k) s1

/-- The PATCH_ID of a patch file whose fields, length and signature are right (R240, Table 7.16). -/
def patchId (f : List Byte) : Option W16 :=
  let g := fun (o n : Nat) => leNat ((f.drop o).take n)
  let nm := g 8 2
  let nn := g 10 2
  let nh := g 12 1
  let nd := g 14 2
  let hooks := (upTo nh).all (fun i => let h := g (64 + 4 * i) 4; bitsOf h 0 12 < 0xC00 && 0xC00 ≤ bitsOf h 16 12 && bitsOf h 12 4 = 0 && bitsOf h 28 4 = 0)
  let disps := (upTo nd).all (fun i => g (64 + 4 * nh + 4 * i + 1) 1 = 0)
  let micros := (upTo nm).all (fun j => g (64 + 4 * nh + 4 * nd + 4 * j) 4 < 2 ^ 20)
  let ok : Bool := g 0 4 = 0x48435450 && g 4 2 = 1 && 1 ≤ g 6 2 && nm ≤ 1024 && nn ≤ 128 && nh ≤ 16 && g 13 1 = 0 && nd ≤ 256 &&
    ((f.drop 16).take 48).all (fun b => b = 0) && f.length = 64 + 4 * nh + 4 * nd + 4 * nm + 12 * nn + 96 && hooks && disps && micros &&
    Config.signatureOk 0 [] (f.take (f.length - 96)) (f.drop (f.length - 96))
  if ok then some (BitVec.ofNat 16 (g 6 2)) else none

/-- What a verified patch puts into every LOU: its hooks, dispatch overrides, microwords and nanowords, each with its check bits (R233, R240, Table 7.16). -/
def EngArr.patched (e : EngArr) (f : List Byte) (k : W16) : EngArr :=
  let g := fun (o n : Nat) => leNat ((f.drop o).take n)
  let nm := g 8 2
  let nh := g 12 1
  let nd := g 14 2
  let d0 := 64 + 4 * nh
  let m0 := d0 + 4 * nd
  let n0 := m0 + 4 * nm
  { e with
    patchId := k
    hooks := (upTo nh).map (fun i => (BitVec.ofNat 12 (g (64 + 4 * i) 4), BitVec.ofNat 12 (bitsOf (g (64 + 4 * i) 4) 16 12)))
    disp := (upTo nd).foldl (fun (t : Sp (Option W16)) (i : Nat) => Sp.put t none (g (d0 + 4 * i) 1) (some (BitVec.ofNat 16 (g (d0 + 4 * i + 2) 2)))) []
    ustore := (upTo nm).foldl (fun (t : Sp (BitVec 22)) (j : Nat) => Sp.put t 0 (0xC00 + j) (BitVec.ofNat 22 (checked 10 (g (m0 + 4 * j) 4)))) []
    nstore := (upTo (g 10 2)).foldl (fun (t : Sp (BitVec 104)) (j : Nat) => Sp.put t 0 (0x180 + j) (nanoChecked (BitVec.ofNat 96 (g (n0 + 12 * j) 12)))) [] }

/-- The microcode patch is installed and measured, or logged as not installed (R240, M1). -/
def State.installPatch (s : State) (bad : Bool) : State :=
  match s.deck.patch with
  | none => s
  | some f => match (if bad then none else patchId f) with
    | some k => (s.setEng (fun e => e.patched f k)).extend 1 f
    | none => s.rep0 uMp 0x08 0

/-- One user image of phase F. -/
def State.installImage (s : State) (bad : Bool) (h : Nat) : State :=
  match Sp.look s.deck.images none h with
  | none => s
  | some x => if bad then (s.emptyHandles [h]).rep0 uMp 0x02 h else (s.putWords x).extend 6 x.raw

/-- The secure image of phase F (R390, M3, Table 16.3). -/
def State.installSecureAtStart (s : State) (bad : Bool) : State :=
  match s.deck.secImage with
  | none => s
  | some _ => match (if bad then none else s.secImageFits) with
    | some m => (s.installSecure m).extend 3 m.raw
    | none => (s.setTru (fun t => { t with secState := 3 })).rep0 uTru 0x35 0

/-- Phase F: patch, channel library, user images in load order, secure image (R446). -/
def State.phaseF (s : State) (bad : List Nat) : State :=
  let s1 := s.installPatch (bad.contains 256)
  let s2 := s1.extend 2 ((upTo 4096).flatMap (fun j => leBytes (Config.libWord j).toNat 2))
  let s3 := s2.deck.order.foldl (fun (t : State) (h : Nat) => t.installImage (bad.contains h) h) s2
  s3.installSecureAtStart (bad.contains 257)

/-- Slice n (0-1023) fails its known-answer test (R320, R321). -/
def State.sliceBad (s : State) (n : Nat) : State :=
  let g := 4 * (n / 64) + n % 64 / 16
  let s1 := s.updGrp g (fun x => { x with slices := x.slices &&& ~~~(BitVec.ofNat 16 (1 <<< (n % 16))) })
  if (s1.grp g).slices = 0 then
    let s2 := s1.rep0 (uGrp g) 0x33 (g / 4)
    s2.retireGrp g s2.lastIndex
  else s1.rep0 (uGrp g) 0x21 n

/-- Coder c fails its known-answer test (R359). -/
def State.coderBad (s : State) (c : Nat) : State :=
  let s1 := s.rep0 (uCoder c) 0x21 c
  let s2 := s1.retireCoder c s1.lastIndex
  if (upTo 4).all (fun j => (s2.coder (4 * (c / 4) + j)).retired) then s2.rep0 (uCoder c) 0x33 (c / 4) else s2

/-- Phase G: known-answer tests; every scratch bank ON and zero (R254, R321, R359). -/
def State.phaseG (s : State) (f : PhaseFault) : State :=
  let s1 := (f.pesBad.filter (fun n => n < 144)).foldl (fun (t : State) (n : Nat) => if (t.pe n).role == .retired then t else t.retire n false) s
  let s2 := (f.slicesBad.filter (fun n => n < 1024)).foldl State.sliceBad s1
  (f.codersBad.filter (fun c => c < 64)).foldl (fun (t : State) (c : Nat) => if (t.coder c).retired then t else t.coderBad c) s2

/-- Phase H: TLY_CTRL and the restore (R130, R449). -/
def State.phaseH (s : State) : State :=
  let s1 := match s.deck.config with
    | some c => s.setTly (fun y => { y with prioCap := c.prioCap, resolveWait := c.resolveWait, ckptPeriod := c.ckptPeriod, reuseHold := c.reuseHold })
    | none => s
  (s1.restore).setStart (fun x => { x with loaded := true })

/-- Phase I: the start-up checkpoint (R126). -/
def State.phaseI (s : State) : State :=
  let s1 := s.ckptStart
  match s1.tly.ckpt with
  | some r => s1.ckptEnd r
  | none => s1

/-- The configuration of Table 16.4 that phase J loads. -/
def State.loadConfig (s : State) (c : ConfigRec) : State :=
  let s1 := s.setCh (fun x => { x with groups := c.groups, moduleId := c.moduleId, frameLife := c.frameLife })
  let s2 := c.links.foldl (fun (t : State) (l : Nat × LinkCfg) => t.updLink l.1 (fun y => { y with cfg := l.2 })) s1
  let s3 := c.fns.foldl (fun (t : State) (f : Nat × (BitVec 4 × BitVec 21 × Bool)) =>
    t.updFn f.1 (fun y => { y with maxQp := f.2.1, tallyLimit := f.2.2.1, expert := f.2.2.2 })) s2
  let e := fun (k : Nat) => ((c.exits.getD (k - 1) 0xA).toNat)
  let s4 := s3.setFlt (fun f => { f with
    alertMin := c.alertMin, blazeMin := c.blazeMin, wdogPeriod := c.wdog
    hold := BitVec.ofNat 3 (fields ([1, 2, 3].map (fun k => (k - 1, bitsOf (e k) 31 1))))
    quiet := [1, 2, 3].foldl (fun (z : Sp (BitVec 12)) (k : Nat) => Sp.put z 10 k (BitVec.ofNat 12 (bitsOf (e k) 0 12))) [] })
  let v := c.cohCtrl.toNat
  let s5 := s4.setCoh (fun x => { x with
    hostPort := bitsOf v 0 1 = 1, devEaOk := bitsOf v 1 1 = 1, homeTo := BitVec.ofNat 10 (bitsOf v 12 10), endpointTo := BitVec.ofNat 10 (bitsOf v 32 10) })
  let s6 := s5.setMp (fun m => { m with binds := c.binds })
  s6.setTru (fun t => { t with hoWait := c.hoWait, debug := c.debug &&& debugMask s.deck.lc })

/-- Phase J: the rest of the configuration; links with ENABLE leave DISABLED, none in END (R388, R446, R449). -/
def State.phaseJ (s : State) : State :=
  let s1 := match s.deck.config with | some c => s.loadConfig c | none => s
  (upTo 256).foldl (fun (t : State) (l : Nat) => t.tryTrain l) s1

/-- The ports go ready (R446, R447, R450). -/
def State.portsReady (s : State) : State :=
  (upTo 2).foldl (fun (t : State) (p : Nat) => t.updPort p (fun x => if x.perst then { x with waitCfg := true } else { x with answering := true })) s

/-- Phase K, after its end has been noted: ALIVE starts, the secure world starts (R408, R446). -/
def State.phaseK (s : State) : State :=
  let s1 := (s.portsReady.setStart (fun x => { x with readyTicks := BitVec.ofNat 26 (min (2 ^ 26 - 1) s.tick) })).aliveStart
  if s1.tru.boot.secEng ≠ 0 && s1.tru.secState = 0 then s1.bootSecure else s1

/-- The work of a phase. -/
def State.phaseWork (s : State) (ph : Phase) (f : PhaseFault) : State :=
  match ph with
  | .B => s.phaseB f.fwBad
  | .C => s.phaseC
  | .D => s.phaseD f.vrmBad f.idleA
  | .E => s.phaseE f.stacksBad
  | .F => s.phaseF f.imgBad
  | .G => s.phaseG f
  | .H => match f.tlyBad with
    | some b => if b then s.rep0 uDeck 0x43 0 else s.rep0 uTally 0x42 0
    | none => s.phaseH
  | .I => match f.tlyBad with
    | some b => if b then s.rep0 uDeck 0x43 0 else s.rep0 uTally 0x42 0
    | none => s.phaseI
  | .J => s.phaseJ
  | .K => s

/-- START_UP_PHASE_END (R446): the phase's work, its faults (Table 16.3), and what waits on it. -/
def execStartUpPhaseEnd (ph : Phase) (f : PhaseFault) (s : State) : Host.Outcome State Fault Refusal :=
  .next (s.when (s.phaseRuns ph) (fun t =>
    let t1 := (t.phaseWork ph f).phaseDone ph
    if ph == .K then t1.phaseK else t1))

end Sys2Proof.Machine
end

