-- ==== Sys2Proof/Machine/Registers.lean ====
section
/-! DEFINITION. What every register reads as: the windows of BAR0 and BAR2 and the device register space (R10-R13, R39, R40, R479, Table 6.8). A register is a row of 32-bit words; an offset with no row is empty. -/

namespace Sys2Proof.Machine

/-- Word r (a multiple of 4) of a table of registers given as offset, 32-bit words and value. -/
def rowWord (t : List (Nat × Nat × Nat)) (r : Nat) : Option Nat :=
  (t.find? (fun x => x.1 ≤ r && r < x.1 + 4 * x.2.1)).map (fun x => bitsOf x.2.2 (8 * (r - x.1)) 32)

/-- Registers of n 64-bit counters from `o` on. -/
def rows64 (o n : Nat) (v : Nat → Nat) : List (Nat × Nat × Nat) := (upTo n).map (fun j => (o + 8 * j, 2, v j))

/-- Registers of n 32-bit words, `step` bytes apart. -/
def rows32 (o step n : Nat) (v : Nat → Nat) : List (Nat × Nat × Nat) := (upTo n).map (fun j => (o + step * j, 1, v j))

/-- A result register (Table 3.11). -/
def resultWord (status seq value : Nat) : Nat := fields [(56, status), (32, seq), (0, value)]

/-! ## Queue manager and host ports (Tables 2.2-2.14) -/

/-- Queue pairs of a function's own register set (R40, R41). -/
def pairsOf (f : Nat) : Nat := if isPf f then 9 else 8

/-- Q_STATE codes (Table 2.4). -/
def QState.code : QState → Nat
  | .disabled => 0 | .running => 1 | .draining => 2 | .noPort => 3

/-- Q_CFG, Q_COAL, Q_STATE (Tables 2.3, 2.8, 2.4). -/
def Queue.cfgWord (x : Queue) : Nat :=
  fields [(31, b2n x.enable), (29, x.ports.toNat), (28, b2n x.prefPort), (24, x.vector.toNat), (0, x.sizeM1.toNat)]
def Queue.coalWord (x : Queue) : Nat := fields [(16, x.countM1.toNat), (0, x.delay.toNat)]
def Queue.stateWord (x : Queue) : Nat :=
  fields [(31, b2n x.activePort), (30, b2n x.phase), (28, x.shown.code), (12, x.cqTail.toNat), (0, x.sqHead.toNat)]

/-- QM_VF_STATUS (Table 2.7, R480). -/
def State.statusWord (s : State) (f : Nat) : Nat :=
  let path := fun (p : Nat) => if isPf f then pfOf p == f else s.reach p f
  fields [(31, b2n (isPf f || s.fnEnabled f)), (30, b2n (path 0)), (29, b2n (path 1)), (28, b2n (s.fn f).expert),
    (27, b2n (!isPf f && (s.fn f).flrBusy)), (0, s.inUse f)]

/-- Word r of a function's own register set, without its MSI-X structures (Table 2.2). -/
def State.ownWord (s : State) (f r : Nat) : Option Nat :=
  if r < 8 * pairsOf f then
    let x := s.queue f (r / 8)
    some (if r % 8 = 0 then x.sqTail.toNat else x.cqHead.toNat)
  else if 0x400 ≤ r && r < 0x400 + 0x20 * pairsOf f then
    let x := s.queue f ((r - 0x400) / 0x20)
    rowWord [(0, 2, x.sqBase.toNat), (8, 2, x.cqBase.toNat), (0x10, 1, x.cfgWord), (0x14, 1, x.coalWord), (0x18, 1, x.stateWord)] ((r - 0x400) % 0x20)
  else
    let x := s.fn f
    rowWord [(0x1000, 1, s.statusWord f), (0x1004, 1, x.event.toNat), (0x1008, 1, if x.expert then x.clamp.toNat else 0),
      (0x100C, 1, creditsOf f - x.credits)] r

/-- The MSI-X entries of function f on port p: n entries of 16 bytes, and the pending bits (R36, log 20). -/
def State.msixWord (s : State) (p f n table pba r : Nat) : Option Nat :=
  let m := fun (v : Nat) => Sp.look (s.port p).msix Msix.init (16 * f + v)
  if table ≤ r && r < table + 16 * n then
    let x := m ((r - table) / 16)
    some (match (r - table) % 16 with
      | 0 => bitsOf x.addr.toNat 0 32
      | 4 => bitsOf x.addr.toNat 32 32
      | 8 => x.data.toNat
      | _ => b2n x.masked)
  else rowWord [(pba, 2, fields ((upTo n).map (fun v => (v, b2n (m v).pending))))] r

/-- HPU_HWIN_A and HPU_HWIN_B (Tables 2.11, 2.12). -/
def HWin.wordA (w : HWin) : Nat := fields [(63, b2n w.valid), (62, b2n w.write), (61, b2n w.read), (18, w.sizeM1.toNat), (0, w.offset.toNat)]

/-- HPU_PORT_STATUS (Table 2.14). -/
def State.portWord (s : State) (p : Nat) : Nat :=
  let x := s.port p
  fields [(16, x.width.toNat), (12, x.speed.toNat), (4, b2n x.viral), (3, b2n x.linkFault), (2, b2n (x.refclk && s.monitored)), (1, b2n x.perst), (0, b2n x.up)]

/-- QM_FN_CTRL and QM_FN_QUOTA (Tables 2.5, 2.6). -/
def Fn.ctrlWord (x : Fn) : Nat := fields [(31, b2n x.expert), (30, b2n x.suspend)]
def Fn.quotaWord (x : Fn) : Nat := fields [(28, x.maxQp.toNat), (0, x.tallyLimit.toNat)]

/-- Word r of the QM window through port p (R40, R481, R482). -/
def State.qmWord (s : State) (p r : Nat) : Option Nat :=
  if r < 0x10000 then s.ownWord (pfOf p) r
  else if r < 0x10000 + 0x100 * 258 then
    let x := s.fn ((r - 0x10000) / 0x100)
    rowWord [(0, 1, x.ctrlWord), (4, 1, x.quotaWord), (8, 1, x.clamp.toNat), (0xC, 1, 0), (0x10, 1, x.flrLog.toNat), (0x14, 1, 0)] (r % 0x100)
  else if 0x40000 ≤ r && r < 0x40000 + 0x100 * 257 then
    let w := s.win ((r - 0x40000) / 0x100) (r % 0x100 / 0x10)
    rowWord [(0, 2, w.wordA), (8, 2, w.hpa.toNat)] (r % 0x10)
  else rowWord [(0x80000, 1, s.portWord 0), (0x80010, 1, s.portWord 1)] r

/-! ## The Tally (Tables 4.8-4.11, 4.16) -/

def Tally.ctrl (t : Tally) : Nat :=
  fields [(46, t.prioCap.toNat), (32, t.resolveWait.toNat), (16, t.ckptPeriod.toNat), (0, t.reuseHold.toNat)]

/-- TLY_STATUS (Table 4.10). -/
def State.tlyStatus (s : State) : Nat :=
  fields [(30, s.restoreCode), (28, s.tly.image.toNat), (27, b2n s.deck.doubt.isSome), (26, b2n s.guardHolds), (0, s.prioCount)]

/-- TLY_ENTRY_STATE (Table 4.11). -/
def Entry.stateWord (e : Entry) : Nat :=
  fields [(20, e.gen.toNat), (12, e.state.code), (11, b2n e.stale), (8, e.reqMask.toNat), (3, e.ackMask.toNat), (0, e.outPend.toNat)]

/-- A restore record (Table 4.16). -/
def RRec.word (r : RRec) : Nat :=
  fields [(0, r.tid.toNat), (32, r.func.toNat), (48, r.kind.toNat), (56, r.status.toNat), (64, r.r0.toNat), (96, r.r1.toNat)]

/-- Word r of the TLY window; a secure index reads 0 in the normal world (R103). -/
def State.tlyWord (s : State) (sec : Bool) (r : Nat) : Option Nat :=
  let t := s.tly
  let i := t.entrySel.toNat
  let seen := sec || !s.secIdx i
  let e := s.entry i
  let v := fun (x : Nat) => if seen then x else 0
  rowWord ([(0, 2, t.ctrl), (8, 1, s.tlyStatus), (0xC, 1, t.secLimit.toNat), (0x10, 1, t.inDoubt.length), (0x14, 1, 65536 - s.notesUsed),
      (0x18, 1, t.lateInternal.toNat)] ++ rows32 0x20 4 7 s.stateCount ++
    [(0x100, 1, i), (0x104, 1, v e.stateWord), (0x110, 8, v e.toNat), (0x200, 1, t.rlog.length), (0x204, 1, 0),
      (0x210, 4, match t.rlog with | x :: _ => x.word | [] => 0)]) r

/-! ## Links and groups (Tables 5.12-5.18) -/

def LinkCfg.word (c : LinkCfg) : Nat :=
  fields [(45, c.ackTimeout.toNat), (36, c.resendLimit.toNat), (32, c.replayLimit.toNat), (16, c.silence.toNat), (8, c.replayTimeout.toNat),
    (2, b2n c.fec), (0, b2n c.enable)]

/-- CH_GLOBAL (Table 5.13). -/
def State.chGlobal (s : State) : Nat := fields [(32, s.deck.epoch.toNat), (16, s.ch.frameLife.toNat), (0, s.ch.moduleId.toNat)]

def Group.cfgWord (g : Group) : Nat := fields [(63, b2n g.valid), (54, g.owner.toNat), (45, g.func.toNat), (0, g.partner.toNat)]
def Group.linksWord (g : Group) : Nat := fields [(27, g.s3.toNat), (18, g.s2.toNat), (9, g.s1.toNat), (0, g.s0.toNat)]

/-- CH_GRP_STATUS (Table 5.18). -/
def State.grpStatus (s : State) (g : Nat) : Nat :=
  let x := s.group g
  let up := (x.links.filter (fun l => s.linkUp l.2)).map (fun l => l.1)
  let code := if !x.valid then 0 else if up.isEmpty then 3 else if up.length = x.links.length then 1 else 2
  fields [(30, code), (21, if x.valid then fields (up.map (fun k => (k, 1))) else 0),
    (0, s.tly.entries.countP (fun e => e.2.state != .free && e.2.namesGroup g))]

/-- Word r of the CH window (R170). -/
def State.chWord (s : State) (r : Nat) : Option Nat :=
  let l := r / 0x2000
  let o := r % 0x2000
  if 0x1000 ≤ o && o < 0x1800 then
    let g := 4 * l + (o - 0x1000) / 0x200
    rowWord [(0, 2, (s.group g).cfgWord), (8, 2, (s.group g).linksWord), (0x10, 1, s.grpStatus g)] (o % 0x200)
  else
    rowWord ([(0, 2, (s.link l).cfg.word), (8, 1, s.linkStatus l)] ++ rows32 0x40 4 13 (fun i => (Sp.look (s.link l).cnt 0 i).toNat) ++
      [(0xFC, 1, 0)] ++ (if l = 0 then [(0x1800, 2, s.chGlobal)] else [])) o

/-! ## Engines (Tables 6.13-6.16, 7.17, 8.4-8.8) -/

/-- ROLE codes (Table 6.14). -/
def Role.code : Role → Nat
  | .active => 1 | .spare => 2 | .retired => 3

/-- ENG_PE_STATUS (Table 6.14): RUN is 0b10 while frozen, else 0b11 in a trap handler. -/
def State.peStatus (s : State) (n : Nat) : Nat :=
  let p := s.pe n
  let x := s.le p.logical
  let on := p.logical < 128 && x.running
  let run := if !on then 0 else if x.freeze.isSome then 2 else if x.bits.getLsbD 26 then 3 else 1
  fields [(30, p.role.code), (23, min p.logical 0x7F), (22, b2n (on && s.engSec p.logical)),
    (16, match x.freeze with | some f => if on then f.1 else 0 | none => 0), (14, run)]

/-- ENG_DUP_STATUS (Table 8.6). -/
def Pe.dupStatus (p : Pe) : Nat :=
  fields [(31, b2n p.lead), (28, p.laneA.toNat), (26, p.laneB.toNat), (22, p.repairs.toNat), (19, p.retryNow.toNat), (0, p.stepSeq.toNat)]

/-- Word r of the window of physical engine n. -/
def State.peWord (s : State) (n r : Nat) : Option Nat :=
  let p := s.pe n
  let x := s.le p.logical
  rowWord ([(0, 1, s.peStatus n), (8, 1, if p.logical < 128 && x.running then x.tid.toNat else 0), (0x10, 2, p.barErrAddr.toNat),
      (0x18, 2, p.trapLog.toNat)] ++ rows64 0x40 7 (fun i => (Sp.look p.cnt 0 i).toNat) ++
    [(0xFC, 1, 0), (0x100, 1, p.dupStatus), (0x108, 2, p.dupLog.toNat)] ++ rows64 0x140 5 (fun i => (Sp.look p.cnt 0 (16 + i)).toNat)) r

/-- Word r of the ENG window of cluster k. -/
def State.engClWord (s : State) (k r : Nat) : Option Nat :=
  let c := s.engCl k
  rowWord [(0, 1, match s.spareOf k with | some n => n % 9 | none => 0xF), (8, 1, fields ((upTo 8).map (fun i => (4 * i, s.leSlot (8 * k + i))))),
    (0x10, 1, c.qwait.toNat), (0x18, 1, fields [(16, s.eng.patchId.toNat), (8, 1)]),
    (0x20, 1, fields [(8, c.repairLimit.toNat), (0, c.retryLimit.toNat)]), (0x28, 2, c.dupDrop.toNat)] r

/-- A value that a normal reader sees as 0 (R213, R346, R371). -/
def hideIf (h : Bool) (v : Option Nat) : Option Nat := if h then v.map (fun _ => 0) else v

/-- Word r of the ENG window (R213). -/
def State.engWord (s : State) (sec : Bool) (r : Nat) : Option Nat :=
  if r < 0x240000 then hideIf (!sec && s.secUnit (uPe (r / 0x4000))) (s.peWord (r / 0x4000) (r % 0x4000))
  else if r < 0x340000 then s.engClWord ((r - 0x240000) / 0x10000) (r % 0x10000)
  else none

/-! ## Memory, coherence, Landing (Tables 9.5-9.15, 10.7-10.12) -/

def cacheCtrl (en : Bool) (state : Nat) : Nat := fields [(31, b2n en), (29, state)]

/-- MEM_SCR_TEST (Table 9.13). -/
def scrTestWord : Option BankTest → Nat
  | some x => fields [(31, 1), (28, x.phase.toNat), (4, x.spare.getD 0), (0, x.bank)]
  | none => 0

/-- Word r of the MEM window of cluster c (R293). -/
def State.memWord (s : State) (c r : Nat) : Option Nat :=
  let m := s.memCl c
  if 0x100 ≤ r && r < 0x340 then
    let x := s.l1 c ((r - 0x100) / 0x40)
    rowWord ((0, 1, cacheCtrl x.enable x.state.toNat) :: rows32 8 8 4 (fun j => (Sp.look x.cnt 0 j).toNat)) ((r - 0x100) % 0x40)
  else
    rowWord ([(0, 1, cacheCtrl m.l2Enable m.l2State.toNat), (4, 1, m.lock.toNat)] ++
      rows32 0x10 4 9 (fun i => (Sp.look m.waymask 0xFFFF i).toNat) ++
      [(0x40, 2, 64 * m.maintBase.toNat), (0x48, 1, m.maintLen.toNat), (0x4C, 1, 0),
        (0x50, 2, resultWord m.maintStatus.toNat m.maintSeq.toNat m.maintVal.toNat),
        (0x60, 1, fields ((upTo 16).map (fun b => (2 * b, s.bankState c b)))), (0x64, 1, scrTestWord m.test)] ++
      rows32 0x800 8 8 (fun j => (Sp.look m.cnt 0 j).toNat) ++ [(0x8FC, 1, 0)]) r

/-- COH_HOME_STATUS (Table 10.11). -/
def Home.statusWord (h : Home) : Nat := fields [(16, h.tickets.length), (8, h.evs.countP (fun e => e.taken)), (0, h.txns.length)]

/-- Word r of the COH part of the MEM/COH window (R317). -/
def State.cohWord (s : State) (r : Nat) : Option Nat :=
  if 0x50000 ≤ r && r < 0x60000 then
    let h := s.home ((r - 0x50000) / 0x1000)
    rowWord ([(0, 1, h.statusWord), (8, 2, h.toLog.toNat)] ++ rows32 0x40 4 6 (fun j => (Sp.look h.cnt 0 j).toNat) ++ [(0xFC, 1, 0)]) (r % 0x1000)
  else
    rowWord ((0x40000, 2, s.coh.ctrl) :: (upTo 8).flatMap (fun k =>
      [(0x40100 + 0x10 * k, 2, (Sp.look s.coh.eaBase 0 k).toNat), (0x40108 + 0x10 * k, 2, (Sp.look s.coh.eaLimit 0 k).toNat)])) r

/-- Word r of the LND window. -/
def State.lndWord (s : State) (r : Nat) : Option Nat :=
  let x := s.lnd
  rowWord [(0, 1, fields [(8, b2n x.scrubEn), (0, x.scrubPeriod.toNat)]), (8, 1, fields [(30, x.init.toNat), (24, x.stackOk.toNat)]),
    (0x10, 1, x.watermark.toNat), (0x20, 1, x.corr.toNat), (0x24, 1, x.uncorr.toNat), (0x28, 1, x.scrubFix.toNat), (0x30, 2, x.errAddr.toNat),
    (0x38, 2, x.scrubPos), (0xFC, 1, 0)] r

/-! ## Cipher bank and galley coders (Tables 11.7-11.11, 12.10-12.13) -/

/-- STATE of a group or coder (Tables 11.10, 12.13). -/
def Svc.code (x : Svc) : Nat :=
  match x.run with
  | some o => if o.fail.isSome then 2 else 1
  | none => if x.retired then 3 else 0

/-- STATE, SECURE and FUNC. -/
def State.svcHead (s : State) (x : Svc) (d : Nat) : Nat :=
  fields [(62, x.code), (61, b2n (s.secBlock d)), (52, match x.run with | some o => o.req.func | none => 0)]

/-- CPH_STATUS (Table 11.9). -/
def State.cphStatus (s : State) : Nat :=
  let ok := (upTo 64).filter (fun g => !(s.grp g).retired)
  fields [(16, ok.length), (0, (ok.map (fun g => popc 16 (s.grp g).slices.toNat)).sum)]

/-- Word r of the CPH window (R346). -/
def State.cphWord (s : State) (sec : Bool) (r : Nat) : Option Nat :=
  if 0x1000 ≤ r && r < 0x2000 then
    let g := (r - 0x1000) / 0x40
    let x := s.grp g
    let st := s.svcHead x (uGrp g) + fields [(39, match x.run with | some o => o.req.keyAt | none => 0), (16, x.slices.toNat)]
    hideIf (!sec && s.secBlock (uGrp g)) (rowWord ((0, 2, st) :: rows64 8 4 (fun j => (Sp.look x.cnt 0 j).toNat)) (r % 0x40))
  else if 0x10000 ≤ r && r < 0x10000 + 0x10 * 4128 then
    let i := (r - 0x10000) / 0x10
    let k := s.slot i
    hideIf (!sec && 4112 ≤ i) (rowWord [(0, 2, fields [(40, k.gen.toNat), (32, k.type.toNat)]), (8, 2, k.invoc.toNat)] (r % 0x10))
  else rowWord [(0, 1, s.cph.limit.toNat <<< 4), (8, 1, s.cphStatus), (0x2000, 1, 0)] r

/-- Word r of the GAL window (R371). -/
def State.galWord (s : State) (sec : Bool) (r : Nat) : Option Nat :=
  if 0x1000 ≤ r && r < 0x2000 then
    let c := (r - 0x1000) / 0x40
    let x := s.coder c
    let op := match x.run with | some o => fields [(50, o.req.ratio), (49, o.req.op)] | none => 0
    let st := s.svcHead x (uCoder c) + op + min x.queued 0xFFFFFFFF
    hideIf (!sec && s.secBlock (uCoder c)) (rowWord ((0, 2, st) :: rows64 8 6 (fun j => (Sp.look x.cnt 0 j).toNat)) (r % 0x40))
  else rowWord [(0, 1, s.gal.limit.toNat <<< 4), (8, 1, (upTo 64).countP (fun c => !(s.coder c).retired)), (0x2000, 1, 0)] r

/-! ## Trust controller (Tables 13.7-13.12) -/

/-- TRU_LC: NEXT shows the state in force while no transition waits (DEDUCED, log 38). -/
def State.lcWord (s : State) : Nat := fields [(0, s.deck.lc.code), (4, (s.deck.lcNext.getD s.deck.lc).code)]

/-- TRU_HO_PENDING: the first request that waits for the secure world. -/
def State.hoWord (s : State) : Nat :=
  match s.tru.pending.find? (fun h => !h.agreed) with
  | some h => fields [(31, 1), (0, h.d.toNat)]
  | none => 0

/-- Word r of the TRU window (R393). -/
def State.truWord (s : State) (sec : Bool) (r : Nat) : Option Nat :=
  let t := s.tru
  if 0x1000 ≤ r && r < 0x1800 then rowWord [(0, 12, (Sp.look t.meas 0 ((r - 0x1000) / 0x40)).toNat)] (r % 0x40)
  else
    rowWord [(0, 1, fields [(30, t.secState.toNat), (0, t.restarts.toNat)]), (8, 1, s.lcWord), (0x10, 1, 0), (0x18, 2, Config.moduleSerial.toNat),
      (0x100, 24, 0), (0x200, 24, 0), (0x300, 2, t.wm.word), (0x308, 2, s.deck.wmNext.word), (0x310, 1, t.boot.word),
      (0x318, 1, s.deck.bootNext.word), (0x400, 1, t.hoWait.toNat), (0x408, 1, if sec then s.hoWord else 0), (0x410, 1, 0),
      (0x418, 1, t.gates.toNat), (0x500, 1, fields [(31, b2n t.wdogEn), (0, t.wdogPeriod.toNat)]), (0x508, 1, 0), (0x510, 1, 0),
      (0x518, 2, t.secTrap.toNat), (0x600, 1, (t.debug).toNat), (0x2000, 16, 0)] r

/-! ## Fault controller, power, start-up (Tables 14.10-14.16, 15.5-15.12, 16.5-16.8) -/

/-- FLT_STATUS (Table 14.12). -/
def State.fltStatus (s : State) : Nat :=
  let f := s.flt
  fields [(28, f.outst.toNat), (26, s.mp.run.toNat), (25, b2n f.aliveOn), (24, b2n f.grave),
    (0, fields ((upTo 16).map (fun k => (k, b2n ((s.memCl k).test.isSome || (s.memCl k).engTest.isSome)))))]

/-- FLT_BLAZE_CLASS (Table 14.15). -/
def Flt.blazeClass (f : Flt) : Nat :=
  match f.blaze with
  | some b => fields [(31, 1), (30, b2n b.prior), (0, b.cls.toNat)]
  | none => 0

/-- Word r of the FLT window (R401, R420). -/
def State.fltWord (s : State) (sec : Bool) (r : Nat) : Option Nat :=
  let f := s.flt
  let v := fun (x : Nat) => if sec then x else 0
  rowWord ([(0, 1, fields [(8, f.alertMin.toNat), (0, f.blazeMin.toNat)]), (8, 1, s.fltStatus)] ++ rows32 0x10 8 3 (fun k => f.exit (k + 1)) ++
    [(0x30, 2, fields ((upTo 3).map (fun k => (16 * k, (Sp.look f.recov 0 (k + 1)).toNat)))), (0x38, 1, f.wdogPeriod.toNat), (0x40, 1, f.blazeClass),
      (0x60, 8, match f.blaze with | some b => leNat (b.bytes (!sec)) | none => 0), (0x80, 1, f.next.toNat), (0x84, 1, f.lost.toNat)] ++
    rows64 0x90 5 (fun c => (Sp.look f.classCount 0 c).toNat) ++
    [(0x100, 1, v f.injTarget.toNat), (0x108, 1, v f.injMask.toNat), (0x110, 1, 0), (0x118, 2, v (resultWord f.injStatus.toNat f.injSeq.toNat f.injVal.toNat)),
      (0x200, 1, fields [(31, b2n f.bgEn), (30, b2n f.bgPattern), (16, f.engInterval.toNat), (0, f.bankInterval.toNat)]),
      (0x208, 2, f.bgSeed.toNat), (0x210, 2, f.bgPass.toNat), (0x218, 2, f.bgFail.toNat)]) r

/-- PWR_POOL (Table 15.6); CEIL is 0 until IDLE_A has been measured (R430). -/
def State.poolWord (s : State) : Nat :=
  let p := s.pwr
  fields [(32, p.idleA.toNat), (20, if s.start.done.contains .D then p.ceil else 0), (10, p.pool.toNat), (0, allOut p.grants)]

/-- Word r of the PWR window (R442). -/
def State.pwrWord (s : State) (r : Nat) : Option Nat :=
  let p := s.pwr
  rowWord ([(0, 1, p.envelope.toNat), (8, 1, p.iccMax.toNat), (0x10, 2, s.poolWord), (0x18, 1, fields [(31, b2n p.overrun), (16, p.i.toNat), (0, p.d.toNat)]),
      (0x20, 2, p.vctl), (0x28, 2, fields [(63, b2n p.vrmErr), (44, p.statusWord.toNat), (32, p.vout.toNat), (20, p.target.toNat), (0, p.paceNow.toNat)]),
      (0x30, 1, fields [(31, b2n p.throttle), (16, p.tj.toNat), (0, p.tjLimit.toNat)])] ++
    rows64 0x40 9 (fun c => fields [(32, reserveOf c), (16, classOut p.grants c), (0, p.waiting.countP (fun g => g.cls = c))]) ++
    rows64 0x90 9 (fun c => (Sp.look p.waited 0 c).toNat) ++
    [(0xFC, 1, 0), (0x100, 1, p.sagWord), (0x108, 1, fields [(31, b2n p.stop), (0, p.mainSense.toNat)]), (0x110, 1, p.reqWord), (0x118, 1, p.holdCap.toNat),
      (0x120, 2, fields [(44, p.cEff.toNat), (32, p.level.toNat), (16, p.energy.toNat), (0, p.vHold.toNat)]),
      (0x128, 1, fields [(31, b2n p.checkGo), (30, b2n p.check.isSome), (0, p.holdPeriod.toNat)]), (0x130, 1, fields [(31, b2n p.cValid), (0, p.cMeas.toNat)])]) r

/-- Word r of the MP window (R458). -/
def State.mpWord (s : State) (r : Nat) : Option Nat :=
  let x := s.start
  rowWord [(0, 1, fields [(29, x.phase.toNat), (26, x.cause.toNat), (0, x.readyTicks.toNat)]), (8, 1, 0),
    (0x10, 1, fields [(31, b2n x.quiesce), (30, b2n x.ready), (0, x.quiesceWait.toNat)])] r

/-! ## The map (Table 1.1, R39, R40, R479) -/

/-- The 32-bit word at an offset of PF BAR0 (a multiple of 4), read through port p, by the secure world or not; none: an empty offset. -/
def State.word (s : State) (sec : Bool) (p off : Nat) : Option Nat :=
  if off < 0x100000 then s.mpWord off
  else if off < 0x200000 then s.qmWord p (off - 0x100000)
  else if off < 0x240000 then s.pwrWord (off - 0x200000)
  else if off < 0x280000 then s.fltWord sec (off - 0x240000)
  else if off < 0x2C0000 then s.truWord sec (off - 0x280000)
  else if off < 0x300000 then s.tlyWord sec (off - 0x2C0000)
  else if off < 0x500000 then s.chWord (off - 0x300000)
  else if off < 0x900000 then s.engWord sec (off - 0x500000)
  else if off < 0x940000 then s.memWord ((off - 0x900000) / 0x4000) ((off - 0x900000) % 0x4000)
  else if off < 0xA00000 then s.cohWord (off - 0x900000)
  else if off < 0xA40000 then s.lndWord (off - 0xA00000)
  else if off < 0xAC0000 then s.cphWord sec (off - 0xA40000)
  else if off < 0xB00000 then s.galWord sec (off - 0xAC0000)
  else none

/-- The word of a BAR that an access names (R39). -/
def State.viaWord (s : State) (via : Via) (off : Nat) : Option Nat :=
  match via with
  | .pf p => s.word false p.val off
  | .vf p v =>
    match s.ownWord (v.val + 1) off with
    | some x => some x
    | none => s.msixWord p.val (v.val + 1) 9 0x8000 0x9000 off
  | .bar2 p => s.msixWord p.val (pfOf p.val) 10 0 0x8000 off

/-- Size of the BAR (R39). -/
def barSize : Via → Nat
  | .pf _ => 0x1000000
  | .vf .. => 0x10000
  | .bar2 _ => 0x10000

/-- A read of 4 or 8 bytes as words; words of no register read 0. -/
def wordsAt (f : Nat → Option Nat) (off : Nat) (wide : Bool) : Nat :=
  let o := off / 4 * 4
  if wide then let b := off / 8 * 8; (f b).getD 0 + (f (b + 4)).getD 0 <<< 32 else (f o).getD 0

/-- A read of the device register space or through the SMBus: 64 bits at an aligned offset (Table 6.8, R466). -/
def State.regRead (s : State) (sec : Bool) (p off : Nat) (wide : Bool) : W64 := BitVec.ofNat 64 (wordsAt (s.word sec p) off wide)

end Sys2Proof.Machine
end

