-- ==== Sys2Proof/Machine/RegWrite.lean ====
section
/-! DEFINITION. Writes of registers and accesses to empty offsets (R10-R13, R39, R40, R49, R122, R481): the rows REGISTER_WRITE and EMPTY_OFFSET_ACCESS. A register that no case below names is read-only. -/

namespace Sys2Proof.Machine

/-- The next state of a command that a register write stands for; a stop changes nothing. -/
def taken (s : State) (o : Host.Outcome State Fault Refusal) : State :=
  match o with
  | .next t => t
  | _ => s

/-! ## Queue manager (Tables 2.2-2.13) -/

/-- A write of SQ_BASE or CQ_BASE of queue (f, q) (R43). -/
def State.baseWrite (s : State) (f q : Nat) (cq : Bool) (v : Nat) : State :=
  if (s.queue f q).enable then s.advise f ((if isPf f then 0x100000 else 0) + 0x400 + 0x20 * q + (if cq then 8 else 0))
  else
    let a : W64 := BitVec.ofNat 64 (v / 64 * 64)
    (s.updQueue f q (fun y => if cq then { y with cqBase := a } else { y with sqBase := a })).clampFn f (clamped v (v / 64 * 64))

/-- A write of Q_COAL (Table 2.8); a count already reached sends the vector (R51). -/
def State.coalWrite (s : State) (f q v : Nat) : State :=
  (s.updQueue f q (fun y => { y with countM1 := BitVec.ofNat 8 (bitsOf v 16 8), delay := BitVec.ofNat 10 (bitsOf v 0 10) })).coalesce f q

/-- A 32-bit write in a function's own register set (Table 2.2). -/
def State.ownWrite (s : State) (f r v : Nat) : State :=
  if r < 8 * pairsOf f then
    if r % 8 = 0 then s.tailWrite f (r / 8) (BitVec.ofNat 32 v) else s.headWrite f (r / 8) (BitVec.ofNat 32 v)
  else if 0x400 ≤ r && r < 0x400 + 0x20 * pairsOf f then
    let q := (r - 0x400) / 0x20
    match (r - 0x400) % 0x20 with
    | 0x10 => s.cfgWrite f q (BitVec.ofNat 32 v)
    | 0x14 => s.coalWrite f q v
    | _ => s
  else if r = 0x1004 then s.updFn f (fun x => { x with event := x.event &&& ~~~(BitVec.ofNat 4 v) })
  else s

/-- A 32-bit write of the MSI-X table of function f on port p; an unmasked pending vector is sent (R52, log 20). -/
def State.msixWrite (s : State) (p f n table r v : Nat) : State :=
  if r < table || table + 16 * n ≤ r then s
  else
    let k := 16 * f + (r - table) / 16
    let m := Sp.look (s.port p).msix Msix.init k
    let put := fun (y : Msix) => s.updPort p (fun x => { x with msix := Sp.put x.msix Msix.init k y })
    match (r - table) % 16 with
    | 0 => put { m with addr := BitVec.ofNat 64 (putBits m.addr.toNat 0 32 v) }
    | 4 => put { m with addr := BitVec.ofNat 64 (putBits m.addr.toNat 32 32 v) }
    | 8 => put { m with data := BitVec.ofNat 32 v }
    | _ =>
      let mask : Bool := v % 2 = 1
      let send := m.pending && !mask
      let s1 := put { m with masked := mask, pending := m.pending && mask }
      if send then s1.emit (.msix (if p = 0 then 0 else 1) m.addr m.data) else s1

/-- A write in a function register set by f (Tables 2.5, 2.6, 2.13). -/
def State.fnWrite (s : State) (f g r v : Nat) : State :=
  match r with
  | 0 => (s.updFn g (fun x => { x with suspend := bitsOf v 30 1 = 1 })).setExpertReg g (bitsOf v 31 1 = 1)
  | 4 =>
    let l := bitsOf v 0 21
    let q := bitsOf v 28 4
    (s.clampFn f (clamped l (min l 1048576) + clamped q (min q 8))).setQuotaRegs g l q
  | 0xC => s.updFn g (fun x => { x with clamp := 0 })
  | 0x14 => s.updFn g (fun x => { x with flrLog := 0 })
  | _ => s

/-- A write of host window w of set m by f (Tables 2.11, 2.12, R60). -/
def State.winWrite (s : State) (f m w : Nat) (b : Bool) (v : Nat) : State :=
  if b then s.updWin m w (fun x => { x with hpa := BitVec.ofNat 31 (bitsOf v 0 31) })
  else
    let off := bitsOf v 0 18
    let size := bitsOf v 18 18
    let fit := min size (0x3FFFF - off)
    (s.updWin m w (fun x => { x with
      valid := bitsOf v 63 1 = 1, write := bitsOf v 62 1 = 1, read := bitsOf v 61 1 = 1, sizeM1 := BitVec.ofNat 18 fit
      offset := BitVec.ofNat 18 off })).clampFn f (clamped size fit)

/-! ## The Tally and the links -/

/-- A write of TLY_CTRL by f (Table 4.9, R122). -/
def State.tlyCtrlWrite (s : State) (f v : Nat) : State :=
  let cap := clampN 1024 131072 (bitsOf v 46 18)
  let wait := clampN 10 10000 (bitsOf v 32 14)
  let hold := clampN 10 10000 (bitsOf v 0 14)
  let per := clampN 1 (min 1000 (hold / 2)) (bitsOf v 16 10)
  let n := clamped cap (bitsOf v 46 18) + clamped wait (bitsOf v 32 14) + clamped hold (bitsOf v 0 14) + clamped per (bitsOf v 16 10)
  ((s.clampFn f n).setTly (fun t => { t with
    prioCap := BitVec.ofNat 18 cap, resolveWait := BitVec.ofNat 14 wait, ckptPeriod := BitVec.ofNat 10 per, reuseHold := BitVec.ofNat 14 hold })).cfgChanged

/-- A 32-bit write in the TLY window. -/
def State.tlyWrite (s : State) (r v : Nat) : State :=
  match r with
  | 0x100 => s.setTly (fun t => { t with entrySel := BitVec.ofNat 20 v })
  | 0x204 => if v % 2 = 1 then s.rlogNext else s
  | _ => s

/-- A write of CH_GLOBAL by f (Table 5.13). -/
def State.chGlobalWrite (s : State) (f v : Nat) : State :=
  let life := clampN 1 1000 (bitsOf v 16 10)
  ((s.clampFn f (clamped life (bitsOf v 16 10))).setCh (fun x => { x with frameLife := BitVec.ofNat 10 life, moduleId := BitVec.ofNat 16 v })).cfgChanged

/-! ## Engines, memory, coherence, Landing, cipher bank, galley coders -/

/-- A 32-bit write in the ENG window (Tables 6.13, 6.16, 8.8). -/
def State.engWrite (s : State) (w : Who) (r v : Nat) : State :=
  let f := whoFn w
  if r < 0x240000 then
    let n := r / 0x4000
    if r % 0x4000 ≠ 0xFC then s
    else if w != .secure && s.secUnit (uPe n) then s.refuse377 f (0x500000 + r)
    else if v % 2 = 1 then s.updPe n (fun q => { q with cnt := [] }) else s
  else
    let k := (r - 0x240000) / 0x10000
    match (r - 0x240000) % 0x10000 with
    | 0x10 =>
      let q := clampN 1 10000 (bitsOf v 0 14)
      (s.clampFn f (clamped q (bitsOf v 0 14))).updEngCl k (fun c => { c with qwait := BitVec.ofNat 14 q })
    | 0x20 =>
      let l := max 1 (bitsOf v 0 3)
      (s.clampFn f (clamped l (bitsOf v 0 3))).updEngCl k (fun c => { c with retryLimit := BitVec.ofNat 3 l, repairLimit := BitVec.ofNat 4 (bitsOf v 8 4) })
    | _ => s

/-- The highest-numbered set bits cleared until 12 remain (R274). -/
def lockClamp (v : Nat) : Nat :=
  ((upTo 16).foldl (fun (x : Nat × Nat) (k : Nat) => if bitsOf v k 1 = 1 && x.2 < 12 then (x.1 + 2 ^ k, x.2 + 1) else x) (0, 0)).1

/-- A 32-bit write in the MEM window of cluster c (Tables 9.5-9.12). -/
def State.memWrite (s : State) (w : Who) (c r v : Nat) : State :=
  if 0x100 ≤ r && r < 0x340 then
    if (r - 0x100) % 0x40 = 0 then s.l1Ctrl w c ((r - 0x100) / 0x40) (bitsOf v 31 1 = 1) else s
  else if 0x10 ≤ r && r < 0x34 then s.updMem c (fun m => { m with waymask := Sp.put m.waymask 0xFFFF ((r - 0x10) / 4) (BitVec.ofNat 16 v) })
  else match r with
    | 0 => s.l2Ctrl c (bitsOf v 31 1 = 1)
    | 4 =>
      let a := bitsOf v 0 16
      (s.clampFn (whoFn w) (clamped a (lockClamp a))).updMem c (fun m => { m with lock := BitVec.ofNat 16 (lockClamp a) })
    | 0x48 => s.updMem c (fun m => { m with maintLen := BitVec.ofNat 30 v })
    | 0x4C => s.maintStart w c (bitsOf v 0 3) (bitsOf v 31 1 = 1)
    | 0x8FC => if v % 2 = 1 then
        (upTo 9).foldl (fun (z : State) (k : Nat) => z.updL1 c k (fun x => { x with cnt := [] })) (s.updMem c (fun m => { m with cnt := [] })) else s
    | _ => s

/-- A write of COH_CTRL by f (Table 10.8). -/
def State.cohCtrlWrite (s : State) (f v : Nat) : State :=
  let e := clampN 1 1000 (bitsOf v 32 10)
  let h := clampN 1 1000 (bitsOf v 12 10)
  ((s.clampFn f (clamped e (bitsOf v 32 10) + clamped h (bitsOf v 12 10))).setCoh (fun x => { x with
    endpointTo := BitVec.ofNat 10 e, homeTo := BitVec.ofNat 10 h, devEaOk := bitsOf v 1 1 = 1, hostPort := bitsOf v 0 1 = 1 })).cfgChanged

/-- A write of COH_EA_BASE or COH_EA_LIMIT of region k by f (Tables 10.9, 10.10). -/
def State.eaWrite (s : State) (f k : Nat) (limit : Bool) (v : Nat) : State :=
  let x := bitsOf v 16 32
  if limit then
    let b := bitsOf (Sp.look s.coh.eaBase 0 k).toNat 16 32
    (s.clampFn f (clamped x (max x b))).setCoh (fun c => { c with eaLimit := Sp.put c.eaLimit 0 k (BitVec.ofNat 64 (max x b * 0x10000)) })
  else s.setCoh (fun c => { c with eaBase := Sp.put c.eaBase 0 k (BitVec.ofNat 64 (bitsOf v 63 1 * 2 ^ 63 + x * 0x10000)) })

/-- A write of LND_CTRL by f (Table 9.14). -/
def State.lndCtrlWrite (s : State) (f v : Nat) : State :=
  let p := clampN 1 168 (bitsOf v 0 8)
  (s.clampFn f (clamped p (bitsOf v 0 8))).setLnd (fun l => { l with scrubEn := bitsOf v 8 1 = 1, scrubPeriod := BitVec.ofNat 8 p })

/-- A write of CPH_CTRL or GAL_CTRL by f (Tables 11.8, 12.11). -/
def State.limitWrite (s : State) (f : Nat) (gal : Bool) (v : Nat) : State :=
  let l := max 1 (bitsOf v 4 4)
  let s1 := s.clampFn f (clamped l (bitsOf v 4 4))
  if gal then { s1 with gal := { s1.gal with limit := BitVec.ofNat 4 l } } else { s1 with cph := { s1.cph with limit := BitVec.ofNat 4 l } }

/-! ## Trust controller (R375, R387, R389, R393) -/

/-- PF writes of TRU_WM_NEXT and TRU_BOOT_NEXT are permitted (Table 13.4). -/
def State.pfMayWm (s : State) : Bool := s.deck.lc == .manufacture || s.deck.lc == .provision || s.deck.lc == .service

/-- A refusal of TRU register r, logged about the writer. -/
def State.truNo (s : State) (w : Who) (r : Nat) : State := s.repF uTru 0x02 (whoFn w) (truOff r)

/-- A write of TRU_WM_NEXT (Table 13.9, R375). -/
def State.wmWrite (s : State) (w : Who) (v : Nat) : State :=
  if w != .secure && !s.pfMayWm then s.truNo w 0x308
  else
    let a := bitsOf v 40 5
    let b := bitsOf v 32 5
    let c := bitsOf v 16 9
    let d := bitsOf v 0 16
    (s.clampFn (whoFn w) (clamped a (min a 16) + clamped b (min b 28) + clamped c (min c 255) + clamped d (min d 32256))).setDeck (fun k =>
      { k with wmNext := ⟨BitVec.ofNat 5 (min a 16), BitVec.ofNat 5 (min b 28), BitVec.ofNat 9 (min c 255), BitVec.ofNat 16 (min d 32256)⟩ })

/-- A write of TRU_BOOT_NEXT (Table 13.10). -/
def State.bootWrite (s : State) (w : Who) (v : Nat) : State :=
  if w != .secure && !s.pfMayWm then s.truNo w 0x318
  else
    let a := bitsOf v 16 7
    let b := bitsOf v 8 7
    let c := bitsOf v 0 6
    (s.clampFn (whoFn w) (clamped a (min a 64) + clamped b (min b 64) + clamped c (min c 32))).setDeck (fun k =>
      { k with bootNext := ⟨BitVec.ofNat 7 (min a 64), BitVec.ofNat 7 (min b 64), BitVec.ofNat 6 (min c 32)⟩ })

/-- A write of TRU_HO_CMD by the secure world (R378): GIVE, else WANT, else a refusal. -/
def State.hoCmd (s : State) (v : Nat) : State :=
  let d : W16 := BitVec.ofNat 16 v
  if bitsOf v 16 1 = 1 then taken s (execHoGive d s) else if bitsOf v 17 1 = 1 then taken s (execHoWant d s) else taken s (execHoRefuse d s)

/-- Secure-only TRU registers (Table 13.7). -/
def truSecureOnly (r : Nat) : Bool := r = 0x410 || r = 0x418 || r = 0x500 || r = 0x508 || r = 0x510 || (0x2000 ≤ r && r < 0x2040)

/-- A 32-bit write of a secure-only TRU register by the secure world (R381, R385, R391). -/
def State.truSecWrite (s : State) (r v : Nat) : State :=
  match r with
  | 0x410 => s.hoCmd v
  | 0x418 => s.setTru (fun t => { t with gates := BitVec.ofNat 13 (min (bitsOf v 0 13) 4096) })
  | 0x500 => s.setTru (fun t => { t with
      wdogEn := bitsOf v 31 1 = 1, wdogPeriod := BitVec.ofNat 14 (clampN 1 10000 (bitsOf v 0 14))
      wdogKick := if !t.wdogEn && bitsOf v 31 1 = 1 then s.tick else t.wdogKick })
  | 0x508 => taken s (execWdogKick s)
  | 0x510 => if v % 2 = 1 then s.loneStart else s
  | _ =>
    let s1 := s.setTru (fun t => { t with measExt := bufPut t.measExt 64 (r - 0x2000) (leBytes v 4) })
    if r = 0x203C then s1.measExtend else s1

/-- A 32-bit write in the TRU window. -/
def State.truWrite (s : State) (w : Who) (r v : Nat) : State :=
  if truSecureOnly r then (if w == .secure then s.truSecWrite r v else s.truNo w r)
  else if r = 0x400 then
    let k := clampN 1 1000 (bitsOf v 0 10)
    ((s.clampFn (whoFn w) (clamped k (bitsOf v 0 10))).setTru (fun t => { t with hoWait := BitVec.ofNat 10 k })).cfgChanged
  else if r = 0x318 then s.bootWrite w v
  else if r = 0x600 then s.debugReg (whoFn w) (BitVec.ofNat 32 v)
  else match w with
    | .secure => s
    | .pf p =>
      if r = 0x10 then taken s (execLcCmd p (BitVec.ofNat 3 v) s)
      else if 0x100 ≤ r && r < 0x160 then s.setTru (fun t => { t with token := bufPut t.token 96 (r - 0x100) (leBytes v 4) })
      else if 0x200 ≤ r && r < 0x260 then
        let s1 := s.setTru (fun t => { t with keyBuf := bufPut t.keyBuf 96 (r - 0x200) (leBytes v 4) })
        if r = 0x25C then s1.installKey p.val s1.tru.keyBuf else s1
      else s

/-! ## Fault controller (Tables 14.10-14.16) -/

/-- A write of FLT_BG_CTRL by f (Table 14.16, R414). -/
def State.bgCtrlWrite (s : State) (f v : Nat) : State :=
  let e := clampN 10 1000 (bitsOf v 16 10)
  let b := clampN 1 1000 (bitsOf v 0 10)
  let ask : Bool := bitsOf v 30 1 = 1
  let no := ask && s.deck.lc != .manufacture && s.deck.lc != .service
  let s1 := (s.clampFn f (clamped e (bitsOf v 16 10) + clamped b (bitsOf v 0 10))).setFlt (fun x => { x with
    bgEn := bitsOf v 31 1 = 1, bgPattern := if no then x.bgPattern else ask, engInterval := BitVec.ofNat 10 e, bankInterval := BitVec.ofNat 10 b })
  if no then s1.repF uMp 0x02 f 0x240200 else s1

/-- A write of the secure injection registers (R413). -/
def State.injWrite (s : State) (r v : Nat) : State :=
  match r with
  | 0x100 => s.setFlt (fun f => { f with injTarget := BitVec.ofNat 16 v })
  | 0x108 => s.setFlt (fun f => { f with injMask := BitVec.ofNat 32 v })
  | 0x110 => taken s (execInjGo (BitVec.ofNat 32 v) s)
  | _ => s

/-- A 32-bit write in the FLT window. -/
def State.fltWrite (s : State) (w : Who) (r v : Nat) : State :=
  let f := whoFn w
  match r with
  | 0 =>
    let a := bitsOf v 8 3
    let b := bitsOf v 0 3
    ((s.clampFn f (clamped a (min a 4) + clamped b (min b 4))).setFlt (fun x => { x with
      alertMin := BitVec.ofNat 3 (min a 4), blazeMin := BitVec.ofNat 3 (min b 4) })).cfgChanged
  | 0x38 =>
    let p := clampN 10 1000 (bitsOf v 0 10)
    ((s.clampFn f (clamped p (bitsOf v 0 10))).setFlt (fun x => { x with wdogPeriod := BitVec.ofNat 10 p })).cfgChanged
  | 0x40 => if bitsOf v 31 1 = 1 then s.clearBlaze else s
  | 0x200 => s.bgCtrlWrite f v
  | _ =>
    if r = 0x10 || r = 0x18 || r = 0x20 then
      let q := clampN 1 3600 (bitsOf v 0 12)
      (s.clampFn f (clamped q (bitsOf v 0 12))).setExit ((r - 8) / 8) (bitsOf v 31 1 = 1) q
    else if r = 0x100 || r = 0x108 || r = 0x110 then (if w == .secure then s.injWrite r v else s.repF uTru 0x02 f (0x240000 + r))
    else s

/-! ## Power (Tables 15.5-15.11) -/

/-- A value in mV: rounded down to a multiple of 5, then clamped (R442). -/
def mvOf (lo hi v : Nat) : Nat := clampN lo hi (v / 5 * 5)

/-- A write of PWR_VCTL by f (Table 15.7, R425, R442). -/
def State.vctlWrite (s : State) (f v : Nat) : State :=
  let t0 := bitsOf v 44 10
  let hi0 := bitsOf v 32 12
  let lo0 := bitsOf v 20 12
  let set0 := bitsOf v 8 12
  let t := clampN 300 700 t0
  let lo := mvOf 620 920 lo0
  let hi := max lo (mvOf 620 920 hi0)
  let set := mvOf 620 920 set0
  let n := clamped t t0 + clamped hi hi0 + clamped lo lo0 + clamped set set0
  (((s.clampFn f n).setPwr (fun p => { p with
    paceTarget := BitVec.ofNat 10 t, vmax := BitVec.ofNat 12 hi, vmin := BitVec.ofNat 12 lo, vset := BitVec.ofNat 12 set
    pace := bitsOf v 7 1 = 1 && !p.vrmDead, vrmAddr := BitVec.ofNat 7 v })).cfgChanged).fixTarget

/-- A write of PWR_SAG by f (Tables 15.3, 15.10). -/
def State.sagWrite (s : State) (f v : Nat) : State :=
  let k0 := bitsOf v 16 10
  let t0 := bitsOf v 0 10
  let t := mvOf 850 980 t0
  let k := min (t - 20) (mvOf 800 950 k0)
  ((s.clampFn f (clamped k k0 + clamped t t0)).setPwr (fun p => { p with sagSkid := BitVec.ofNat 10 k, sagStop := BitVec.ofNat 10 t })).cfgChanged

/-- A 32-bit write in the PWR window by f. -/
def State.pwrWrite (s : State) (f r v : Nat) : State :=
  match r with
  | 8 =>
    let x := clampN 200 1000 (bitsOf v 0 10)
    ((s.clampFn f (clamped x (bitsOf v 0 10))).setPwr (fun p => { p with iccMax := BitVec.ofNat 10 x })).cfgChanged
  | 0x30 =>
    let x := clampN 85 105 (bitsOf v 0 8)
    ((s.clampFn f (clamped x (bitsOf v 0 8))).setPwr (fun p => { p with tjLimit := BitVec.ofNat 8 x })).cfgChanged
  | 0xFC => if v % 2 = 1 then s.setPwr (fun p => { p with waited := [] }) else s
  | 0x100 => s.sagWrite f v
  | 0x110 =>
    let a := clampN 120 1000 (bitsOf v 16 12)
    let b := clampN 600 4000 (bitsOf v 0 12)
    ((s.clampFn f (clamped a (bitsOf v 16 12) + clamped b (bitsOf v 0 12))).setPwr (fun p => { p with
      prioReq := BitVec.ofNat 12 a, fullReq := BitVec.ofNat 12 b })).cfgChanged
  | 0x118 => s.holdCapWrite v
  | 0x128 => s.holdCheckWrite f v s.pwr.vHold.toNat
  | _ => s

/-! ## The map -/

/-- The offset (a multiple of 8) of PF BAR0 holds a 64-bit register that is written whole. -/
def isWide (o : Nat) : Bool :=
  if 0x100000 ≤ o && o < 0x110000 then 0x400 ≤ o - 0x100000 && o - 0x100000 < 0x520 && (o - 0x100000) % 0x20 < 0x10
  else if 0x140000 ≤ o && o < 0x140000 + 0x100 * 257 then true
  else if 0x300000 ≤ o && o < 0x500000 then (o - 0x300000) % 0x2000 = 0 || o = 0x301800
  else if 0x900000 ≤ o && o < 0x940000 then (o - 0x900000) % 0x4000 = 0x40
  else o = 0x2C0000 || o = 0x940000 || (0x940100 ≤ o && o < 0x940180) || o = 0x280308 || o = 0x240208 || o = 0x200020

/-- A write of a whole 64-bit register at offset o of PF BAR0 or of device register space (Table 6.8). -/
def State.wideWrite (s : State) (w : Who) (o v : Nat) : State :=
  let f := whoFn w
  if 0x100000 ≤ o && o < 0x110000 then
    let r := o - 0x100400
    s.baseWrite (match w with | .pf p => pfOf p.val | .secure => 0) (r / 0x20) (r % 0x20 = 8) v
  else if 0x140000 ≤ o && o < 0x200000 then s.winWrite f ((o - 0x140000) / 0x100) (o % 0x100 / 0x10) (o % 0x10 = 8) v
  else if o = 0x301800 then s.chGlobalWrite f v
  else if 0x300000 ≤ o && o < 0x500000 then s.linkCfgWrite f ((o - 0x300000) / 0x2000) (BitVec.ofNat 64 v)
  else if 0x900000 ≤ o && o < 0x940000 then s.updMem ((o - 0x900000) / 0x4000) (fun m => { m with maintBase := BitVec.ofNat 42 (bitsOf v 6 42) })
  else match o with
    | 0x2C0000 => s.tlyCtrlWrite f v
    | 0x940000 => s.cohCtrlWrite f v
    | 0x280308 => s.wmWrite w v
    | 0x240208 => s.setFlt (fun x => { x with bgSeed := BitVec.ofNat 64 v })
    | 0x200020 => s.vctlWrite f v
    | _ => s.eaWrite f ((o - 0x940100) / 0x10) (o % 0x10 = 8) v

/-- A 32-bit write at offset o of PF BAR0 or of device register space. -/
def State.narrowWrite (s : State) (w : Who) (o v : Nat) : State :=
  let f := whoFn w
  if o < 0x100000 then
    match o with
    | 8 => s.resetWrite f v
    | 0x10 => s.hpWrite f v
    | _ => s
  else if o < 0x110000 then s.ownWrite (match w with | .pf p => pfOf p.val | .secure => 0) (o - 0x100000) v
  else if o < 0x110000 + 0x100 * 258 then s.fnWrite f ((o - 0x110000) / 0x100) (o % 0x100) v
  else if 0x200000 ≤ o && o < 0x240000 then s.pwrWrite f (o - 0x200000) v
  else if 0x240000 ≤ o && o < 0x280000 then s.fltWrite w (o - 0x240000) v
  else if 0x280000 ≤ o && o < 0x2C0000 then s.truWrite w (o - 0x280000) v
  else if 0x2C0000 ≤ o && o < 0x300000 then s.tlyWrite (o - 0x2C0000) v
  else if 0x300000 ≤ o && o < 0x500000 then
    if (o - 0x300000) % 0x2000 = 0xFC && v % 2 = 1 then s.updLink ((o - 0x300000) / 0x2000) (fun x => { x with cnt := [] }) else s
  else if 0x500000 ≤ o && o < 0x840000 then s.engWrite w (o - 0x500000) v
  else if 0x900000 ≤ o && o < 0x940000 then s.memWrite w ((o - 0x900000) / 0x4000) ((o - 0x900000) % 0x4000) v
  else if 0x950000 ≤ o && o < 0x960000 then
    if o % 0x1000 = 0xFC && v % 2 = 1 then s.updHome ((o - 0x950000) / 0x1000) (fun x => { x with cnt := [] }) else s
  else match o with
    | 0xA00000 => s.lndCtrlWrite f v
    | 0xA000FC => if v % 2 = 1 then s.setLnd (fun l => { l with corr := 0, uncorr := 0, scrubFix := 0 }) else s
    | 0xA40000 => s.limitWrite f false v
    | 0xA42000 => if v % 2 = 1 then (upTo 64).foldl (fun (z : State) (g : Nat) => z.updGrp g (fun x => { x with cnt := [] })) s else s
    | 0xAC0000 => s.limitWrite f true v
    | 0xAC2000 => if v % 2 = 1 then (upTo 64).foldl (fun (z : State) (g : Nat) => z.updCoder g (fun x => { x with cnt := [] })) s else s
    | _ => s

/-- A write of 4 or 8 bytes at an offset of PF BAR0: a half of a 64-bit register leaves its other half, and two 32-bit registers are written in turn, the lower first (log 39). -/
def State.regWrite (s : State) (w : Who) (off : Nat) (wide : Bool) (val : Nat) : State :=
  let p := match w with | .pf p => p.val | .secure => 0
  let b := off / 8 * 8
  let o := off / 4 * 4
  if isWide b then s.wideWrite w b (if wide then val else putBits (wordsAt (s.word true p) b true) (8 * (o - b)) 32 val)
  else if wide then (s.narrowWrite w b (bitsOf val 0 32)).narrowWrite w (b + 4) (bitsOf val 32 32)
  else s.narrowWrite w o (bitsOf val 0 32)

/-- A write in a VF's BAR0 (Table 2.2). -/
def State.vfNarrow (s : State) (p f r v : Nat) : State := if r < 0x8000 then s.ownWrite f r v else s.msixWrite p f 9 0x8000 r v

/-- A write of 4 or 8 bytes in a VF's BAR0. -/
def State.vfWrite (s : State) (p f off : Nat) (wide : Bool) (val : Nat) : State :=
  let b := off / 8 * 8
  let o := off / 4 * 4
  if 0x400 ≤ b && b < 0x500 && b % 0x20 < 0x10 then
    let old := wordsAt (s.ownWord f) b true
    s.baseWrite f ((b - 0x400) / 0x20) (b % 0x20 = 8) (if wide then val else putBits old (8 * (o - b)) 32 val)
  else if wide then (s.vfNarrow p f b (bitsOf val 0 32)).vfNarrow p f (b + 4) (bitsOf val 32 32)
  else s.vfNarrow p f o (bitsOf val 0 32)

/-- A write of 4 or 8 bytes in a PF's BAR2 (R39). -/
def State.bar2Write (s : State) (p off : Nat) (wide : Bool) (val : Nat) : State :=
  let b := off / 8 * 8
  if wide then (s.msixWrite p (pfOf p) 10 0 b (bitsOf val 0 32)).msixWrite p (pfOf p) 10 0 (b + 4) (bitsOf val 32 32)
  else s.msixWrite p (pfOf p) 10 0 (off / 4 * 4) (bitsOf val 0 32)

/-- The access names at least one register. -/
def State.hasReg (s : State) (via : Via) (off : Nat) (wide : Bool) : Bool :=
  if wide then (s.viaWord via (off / 8 * 8)).isSome || (s.viaWord via (off / 8 * 8 + 4)).isSome else (s.viaWord via (off / 4 * 4)).isSome

/-- REGISTER_WRITE (R10-R13). -/
def execRegisterWrite (via : Via) (off : BitVec 24) (wide : Bool) (val : W64) (s : State) : Host.Outcome State Fault Refusal :=
  .next (s.when (s.viaOk via && s.hasReg via off.toNat wide) (fun t => match via with
    | .pf p => t.regWrite (.pf p) off.toNat wide val.toNat
    | .vf p v => t.vfWrite p.val (v.val + 1) off.toNat wide val.toNat
    | .bar2 p => t.bar2Write p.val off.toNat wide val.toNat))

/-- EMPTY_OFFSET_ACCESS (R13): an F0 of KIND 0x01 with the offset; a read returns 0. -/
def execEmptyOffsetAccess (via : Via) (off : BitVec 24) (isWrite : Bool) (s : State) : Host.Outcome State Fault Refusal :=
  .next (s.when (s.viaOk via && off.toNat < barSize via && !s.hasReg via off.toNat false) (fun t =>
    let t1 := t.repF uHost 0x01 (viaFn via) off.toNat
    if isWrite then t1 else t1.emit (.regRead 0)))

end Sys2Proof.Machine
end

