-- ==== Sys2Proof/Machine/EngMem.lean ====
section
/-! DEFINITION. Loads and stores of engines: permission, the L1 and L2, scratch, the Tally window, host memory, device registers, and what makes an access wait (R103, R180, R181, R195, R264-R266, R281-R285, R308-R312). -/

namespace Sys2Proof.Machine

/-! ## Permission (R195, R205) -/

/-- First byte of the device registers (Table 6.8), and an offset in them. -/
def devBase : Nat := 0xFF0000000000

/-- The engine's own ENG windows: those of its physical engine and of its cluster (Table 6.13). -/
def State.ownWindow (s : State) (e off : Nat) : Bool :=
  let n := s.peOf e
  (0x500000 + 0x4000 * n ≤ off && off < 0x504000 + 0x4000 * n) || (0x740000 + 0x10000 * (e / 8) ≤ off && off < 0x750000 + 0x10000 * (e / 8))

/-- One byte's access by engine e is permitted (Table 6.8, R59, R285, R373). -/
def State.engByteOk (s : State) (e a : Nat) (write : Bool) : Bool :=
  match zoneOf (e / 8) a with
  | .tally => !write
  | .device => s.engSec e || (!write && s.ownWindow e (a - devBase))
  | _ => s.byteOk (s.engFn e) (s.engSec e) (e / 8) a write

/-- An access of n bytes at `a` is permitted. -/
def State.engAccessOk (s : State) (e a n : Nat) (write : Bool) : Bool :=
  s.engByteOk e a write && s.engByteOk e (a + n - 1) write

/-! ## Reads of the Tally window and of device registers (R103, Table 6.8) -/

/-- A read of the Tally window: zero and an F0 where R103 hides the entry. -/
def State.tallyRead (s : State) (e a n : Nat) : State × W64 :=
  let f := s.engFn e
  let sec := s.engSec e
  (s.tallyAdvise f sec (e / 8) a n,
    if s.tallyHides f sec (tallyIdx a) then 0 else BitVec.ofNat 64 (bitsOf (s.entry (tallyIdx a)).toNat (8 * (a % 32)) (8 * n)))

/-- A read of device registers: 8 bytes read a 64-bit register or two of 32 bits; fewer are taken from the 32-bit word (log 39). An empty offset reads 0 and counts no advisory: R13 names a BAR alone (DESIGN CHOICE, log 84). -/
def State.devRead (s : State) (e a n : Nat) : W64 :=
  let off := a - devBase
  if n = 8 then s.regRead (s.engSec e) 0 (off / 8 * 8) true
  else BitVec.ofNat 64 (bitsOf (s.regRead (s.engSec e) 0 (off / 4 * 4) false).toNat (8 * (off % 4)) (8 * n))

/-- A read at `a` is of TLY_ENTRY_DATA, of an entry that R103 hides from engine e. -/
def State.dataHidden (s : State) (e a : Nat) : Bool :=
  0x2C0110 ≤ a - devBase && a - devBase < 0x2C0130 && s.tallyHides (s.engFn e) (s.engSec e) s.tly.entrySel.toNat

/-- A load from device registers: TLY_ENTRY_DATA of a hidden entry reads zero and counts an F0 (R103). -/
def State.devLoad (s : State) (e a n : Nat) : State × W64 :=
  if s.dataHidden e a then (s.repT uTally 0x02 0 (s.engFn e) s.tly.entrySel.toNat false (s.engSec e), 0) else (s, s.devRead e a n)

/-! ## The caches (R263-R273) -/

/-- A request of engine e's cluster for the sector of address `a`. -/
def State.engReq (s : State) (e a hpa : Nat) (k : ReqKind) (mask : W64) (d : Sector) : State :=
  s.sendReq ⟨e / 8, k, a / 64, mask, d, false, some e, a, 0, 0, false, s.engSec e, hpa⟩

/-- The L2 of cluster c is in use (R279, R280). -/
def State.l2On (s : State) (c : Nat) : Bool := (s.memCl c).l2State = 1

/-- An access that bypasses the L2 of cluster c waits until the flush has written sector n back (R280). -/
def State.flushed (s : State) (c n : Nat) : State := ((s.gather c n).l2Clean c n).dropSec c n

/-- A read that the L1 does not serve: the L2, or a request to the home; a non-caching one while the L2 is not in use (R269, R273, R280). -/
def State.l2Read (s : State) (e a hpa : Nat) : State × Option (Sector × Bool) :=
  let c := e / 8
  let n := a / 64
  let slot := s.leSlot e
  let sec := s.engSec e
  let held := fun (t : State) => ((t.memCl c).sector n).st != .I && ((t.memCl c).sector n).hpa = hpa
  if !s.l2On c then ((s.flushed c n).engReq e a hpa .rdNc 0 0, none)
  else
    let s1 := if held s then s.gather c n else s
    if held s1 then
      let y := (s1.memCl c).sector n
      let s2 := (s1.memCount c 0 1 sec).l2Touch c n
      (if s2.l1On c slot then s2.l1Fill c slot n ⟨1, y.data, y.poison, false⟩ else s2, some (y.data, y.poison))
    else
      ((s1.memCount c 1 1 sec).engReq e a hpa (if s1.mayAlloc c (some e) n then .rdS else .rdNc) 0 0, none)

/-- Engine e's L1 holds the sector of address `a`, whose bytes stand at host address hpa (0: the Landing). -/
def State.l1Own (s : State) (e a hpa : Nat) : Option L1Sec :=
  let y := (s.memCl (e / 8)).sector (a / 64)
  if s.l1On (e / 8) (s.leSlot e) && y.st != .I && y.hpa = hpa then (s.l1 (e / 8) (s.leSlot e)).sector (a / 64) else none

/-- A hit of engine e on sector n in its L1 or victim cache (R264, R265). -/
def State.l1Use (s : State) (e n : Nat) : State :=
  let c := e / 8
  let slot := s.leSlot e
  let inVc := ((s.l1 c slot).way (n / 4)).isNone
  let r := (s.l1 c slot).bring (n / 4)
  ((s.updL1 c slot (fun _ => r.1)).writeBack c slot r.2).l1Count c slot (if inVc then 2 else 0) (s.engSec e)

/-- A miss of engine e in its L1. -/
def State.l1Miss (s : State) (e : Nat) : State :=
  if s.l1On (e / 8) (s.leSlot e) then s.l1Count (e / 8) (s.leSlot e) 1 (s.engSec e) else s

/-- A read through the caches: the sector, or none while it is on its way (R264, R265, R268). -/
def State.cacheRead (s : State) (e a hpa : Nat) : State × Option (Sector × Bool) :=
  match s.l1Own e a hpa with
  | some x =>
    if x.par then
      let s1 := s.parityFound (e / 8) (s.leSlot e) (a / 64) (x.st = 2)
      if x.st = 2 then (s1, none) else s1.l2Read e a hpa
    else (s.l1Use e (a / 64), some (x.data, x.poison))
  | none => (s.l1Miss e).l2Read e a hpa

/-! ## Own stores (R308, R310, R311) -/

/-- Two ranges share a byte. -/
def meets (a n b m : Nat) : Bool := a < b + m && b < a + n

/-- The engine's store that shares a byte with n bytes at `a` and is not yet performed, the latest one. -/
def Eng.ownStore (x : Eng) (c a n : Nat) : Option Store :=
  x.stores.reverse.find? (fun st => !st.performed && meets (canon c a) n (canon c st.addr) st.size)

/-- Loads whose data has not arrived. -/
def Eng.openLoads (x : Eng) : List (Nat × Nat) := x.flight.filterMap (fun f => f.wait)

/-- Some store is not yet performed. -/
def Eng.openStores (x : Eng) : Bool := x.stores.any (fun st => !st.performed)

/-- What forerunner mode lets a load take from the store buffer (R311). -/
def Eng.forward (x : Eng) (c a n : Nat) : Option W64 :=
  match x.ownStore c a n with
  | some st =>
    let b := canon c a
    let o := canon c st.addr
    if x.fore && o ≤ b && b + n ≤ o + st.size then some (BitVec.ofNat 64 (bitsOf st.val.toNat (8 * (b - o)) (8 * n))) else none
  | none => none

/-- A load must wait before it is performed (R310, R311). -/
def Eng.loadWaits (x : Eng) (c a n : Nat) : Bool :=
  ((x.ownStore c a n).isSome && (x.forward c a n).isNone) || (x.fore && !x.openLoads.isEmpty)

/-- A store must wait before it is performed (R310, R311). -/
def Eng.storeWaits (x : Eng) (c a n : Nat) : Bool :=
  x.openLoads.any (fun w => meets (canon c a) n (canon c w.1) w.2) || (x.fore && (!x.openLoads.isEmpty || x.openStores))

/-- A store waits for a scratch bank to wake (R285). -/
def Eng.bankWaits (x : Eng) (c : Nat) : Bool :=
  x.stores.any (fun st => !st.performed && (match zoneOf c st.addr with | .scratch _ => true | _ => false))

/-! ## Loads and stores -/

/-- A load's place in flight: its value and poison, or the wait for it (R185, R186, R194). -/
def loadFlight (v : W64) (poison : Bool) (wait : Option (Nat × Nat)) : InFlight :=
  ⟨4, .lsu, v, if poison then 0x200 else 0, if poison then 0x200 else 0, wait⟩

/-- Engine e has triggered a load. -/
def State.fly (s : State) (e : Nat) (f : InFlight) : State := s.updLe e (fun x => { x with flight := x.flight ++ [f] })

/-- A cached load. -/
def State.loadCached (s : State) (e a n hpa : Nat) : State :=
  let r := s.cacheRead e a hpa
  match r.2 with
  | some d => r.1.fly e (loadFlight (secVal d.1 a n) d.2 none)
  | none => r.1.fly e (loadFlight 0 false (some (a, n)))

/-- A load of n bytes at `a`, permitted and aligned (R180, R281-R285). -/
def State.loadGo (s : State) (e a n : Nat) : State :=
  let c := e / 8
  match (s.le e).forward c a n with
  | some v => s.fly e (loadFlight v false none)
  | none =>
    match zoneOf c a with
    | .landing => s.loadCached e a n 0
    | .host => s.loadCached e a n (((s.hpaOf (s.engFn e) (s.engSec e) a false).getD 0) / 64 * 64)
    | .scratch k =>
      if s.bankState k (scrBank (canon c a)) = 1 then s.fly e (loadFlight 0 false (some (a, n)))
      else
        let s1 := s.scrCheck (canon c a) (s.engSec e)
        let v := s1.scrRead (canon c a) n
        s1.fly e (loadFlight (BitVec.ofNat 64 v.1) v.2 none)
    | .tally =>
      let r := s.tallyRead e a n
      r.1.fly e (loadFlight r.2 false none)
    | .device =>
      let r := s.devLoad e a n
      r.1.fly e (loadFlight r.2 false none)
    | _ => s

/-- A store joins those not yet performed (R308). -/
def State.addStore (s : State) (e a n : Nat) (v : W64) : State :=
  s.updLe e (fun x => { x with stores := x.stores ++ [⟨a, n, v, s.tick, false⟩] })

/-- Bytes of a store in their sector, and their mask. -/
def storeSector (a n : Nat) (v : W64) : Sector := BitVec.ofNat 512 (bitsOf v.toNat 0 (8 * n) <<< (8 * (a % 64)))
def storeMask (a n : Nat) : W64 := BitVec.ofNat 64 ((2 ^ n - 1) <<< (a % 64))

/-- A store to the Landing: at once into a sector the cluster may write, after the earlier stores that wait for it; else after its request; past an L2 that is not in use, as WR_INV (R264, R273, R280, R299). -/
def State.storeLanding (s : State) (e a n : Nat) (v : W64) : State :=
  let c := e / 8
  let sn := a / 64
  let slot := s.leSlot e
  let sec := s.engSec e
  let hit := s.l1On c slot && ((s.l1 c slot).sector sn).isSome
  let s0 := if s.l1On c slot then s.l1Count c slot (b2n (!hit)) sec else s
  if !s0.l2On c then ((s0.flushed c sn).addStore e a n v).engReq e a 0 .wrInv (storeMask a n) (storeSector a n v)
  else
    let s1 := s0.l2Check c sn
    let y := (s1.memCl c).sector sn
    let s2 := if hit then s1 else s1.memCount c (b2n (y.st == .I)) 1 sec
    if y.st == .M || y.st == .E then (s2.performStores c sn).l1Store c e a n v
    else
      let s3 := s2.addStore e a n v
      if y.st != .I then s3.engReq e a 0 .upg 0 0
      else if s3.mayAlloc c (some e) sn then s3.engReq e a 0 .rdX 0 0
      else s3.engReq e a 0 .wrInv (storeMask a n) (storeSector a n v)

/-- A store to a device register by the secure world; one of fewer than 4 bytes writes its value to the 32-bit register (log 39). An empty offset takes nothing and counts no advisory (DESIGN CHOICE, log 84). -/
def State.devStore (s : State) (a n : Nat) (v : W64) : State :=
  let off := a - devBase
  if n = 8 then s.regWrite .secure (off / 8 * 8) true v.toNat else s.regWrite .secure (off / 4 * 4) false (bitsOf v.toNat 0 (8 * n))

/-- A store of n bytes at `a`, permitted and aligned (R180, Table 10.5). -/
def State.storeGo (s : State) (e a n : Nat) (v : W64) : State :=
  let c := e / 8
  match zoneOf c a with
  | .landing => s.storeLanding e a n v
  | .host =>
    let hpa := ((s.hpaOf (s.engFn e) (s.engSec e) a true).getD 0) / 64 * 64
    ((s.dropSec c (a / 64)).addStore e a n v).engReq e a hpa .wrInv (storeMask a n) (storeSector a n v)
  | .scratch k =>
    if s.bankState k (scrBank (canon c a)) = 1 then s.addStore e a n v else s.scrWrite (canon c a) n (bitsOf v.toNat 0 (8 * n))
  | .device => s.devStore a n v
  | _ => s

/-! ## Bytes a long operation reads (R230) -/

/-- One sector of a long operation's read, through the engine's L1 as a load's (R230, R264). -/
def State.engGet (s : State) (h : HostIn) (e a : Nat) : State :=
  let c := e / 8
  let n := a / 64
  let cached := zoneOf c a == .landing || zoneOf c a == .host
  let hpa := if zoneOf c a == .host then ((s.hpaOf (s.engFn e) (s.engSec e) a false).getD 0) / 64 * 64 else 0
  if !cached then s
  else match (s.l1Own e a hpa).filter (fun x => !x.par) with
    | some _ => s.l1Use e n
    | none =>
      let s1 := match s.l1Own e a hpa with
        | some x => s.parityFound c (s.leSlot e) n (x.st = 2)
        | none => s.l1Miss e
      let s2 := s1.unitGet h (s.engFn e) (s.engSec e) c (some e) a
      let y := (s2.memCl c).sector n
      if s2.l1On c (s2.leSlot e) && y.st != .I && y.hpa = hpa then s2.l1Fill c (s2.leSlot e) n ⟨1, y.data, y.poison, false⟩ else s2

/-- What a long operation's read of n bytes at `a` does before its data comes (R230): sectors through the engine's caches, scratch words checked, the advisories of the Tally window and of TLY_ENTRY_DATA. -/
def State.engFetch (s : State) (h : HostIn) (e a n : Nat) : State :=
  let sec := s.engSec e
  let c := e / 8
  let late := s.lateAt h (s.engFn e) sec c a n
  let before := fun (x : Nat) => match late with | some t => x / 64 ≤ t / 64 | none => true
  let s1 := (((sectorsOf a n).filter before).foldl (fun t x => t.engGet h e x) s).scrFetch sec c a n
  let s2 := s1.tallyAdvise (s.engFn e) sec c a n
  if zoneOf c a == .device then (upTo n).foldl (fun t k => (t.devLoad e (a + k) 1).1) s2 else s2

/-- A byte and its poison as engine e's loads read it. -/
def State.engByte (s : State) (h : HostIn) (e a : Nat) : Byte × Bool :=
  match zoneOf (e / 8) a with
  | .device => ((s.devLoad e a 1).2.setWidth 8, false)
  | _ => s.unitSee h (s.engFn e) (s.engSec e) (e / 8) a

/-- Engine e's sectors that it has stored into are written to the Landing and stay clean (R266). -/
def State.flushWriter (s : State) (e : Nat) : State :=
  let c := e / 8
  (s.l2Sectors c).foldl (fun t a =>
    if ((t.memCl c).sector a).writers.getLsbD (e % 8) then (t.gather c a).l2Clean c a else t) s

end Sys2Proof.Machine
end

