-- ==== Sys2Proof/Machine/Library.lean ====
section
/-! DEFINITION. What the channel library does for a transaction, where the manual states it: its descriptor, the result words it commits, the status it fails with (R81, R82, R153, R158, R159, R198, R334, R367). The library's own words are free values (log 8); these are the values its requests and Tally operations carry (log 99). -/

namespace Sys2Proof.Machine

/-- The word at engine e's program counter stands in the channel library (R369). -/
def State.inLibrary (s : State) (e : Nat) : Bool := 0x7000 ≤ (s.le e).pc.toNat

/-- The work record of the entry at i, of a transaction command (R196). -/
def State.workOf (s : State) (i : Nat) : Option WorkRec := Sp.look s.qm.work none i

/-- Galley ratio of a transaction command, 0 for none (Table 3.4). -/
def WorkRec.ratio (w : WorkRec) : Nat := bitsOf (pkN w.pkt 14 1) 0 2
/-- The transaction is sealed (Table 3.4). -/
def WorkRec.isSealed (w : WorkRec) : Bool := bitsOf (pkN w.pkt 14 1) 2 1 = 1
/-- LENGTH (Table 3.4). -/
def WorkRec.len (w : WorkRec) : Nat := pkN w.pkt 32 4

/-- TOTAL: LENGTH, or the galleys of its blocks (R367), and the 28 bytes of a sealed record (R334). -/
def WorkRec.total (w : WorkRec) : Nat :=
  (if w.ratio = 0 then w.len else galSize w.ratio * ((w.len + 4095) / 4096)) + (if w.isSealed then 28 else 0)

/-- The descriptor of Table 5.9 for a transaction of OPC `opc`. -/
def WorkRec.descriptor (w : WorkRec) (opc : Nat) : List Byte :=
  let third := fun (off : Nat) => if opc = 2 then pkN w.pkt off 2 else 0xFFFF
  leBytes opc 1 ++ leBytes (pkN w.pkt 14 1) 1 ++ leBytes 0 2 ++ leBytes (pkN w.pkt 8 2) 2 ++ leBytes (third 10) 2 ++ leBytes (third 12) 2 ++
    leBytes 0 2 ++ leBytes w.total 4 ++ leBytes (if opc ≤ 2 then pkN w.pkt 24 8 else 0) 8 ++
    leBytes (if opc = 4 then pkN w.pkt 36 4 else 0) 4 ++ leBytes 0 4

/-- The result words of a commit: those of Table 3.5 for a transaction of the channel library, else those the program gives. The reply of an EXCHANGE without a service has the length received (R81); of one with a service the program gives the length of the data (R367). RESULT0 of an entry without a work record is 0 (R198). -/
def State.commitWords (s : State) (lib : Bool) (i : Nat) (a b : W32) : W32 × W32 :=
  let n := s.entry i
  let opc := n.opc.toNat
  if !lib || 5 ≤ opc then (a, b)
  else
    let w := s.workOf i
    let r0 : W32 := BitVec.ofNat 32 ((w.map WorkRec.len).getD 0)
    if opc = 4 then
      (r0, match w with
        | some x => if x.ratio = 0 && !x.isSealed then BitVec.ofNat 32 (s.flow i 0).rxBytes else b
        | none => b)
    else (r0, BitVec.ofNat 32 (fields [(0, n.resent.toNat), (16, n.ackMask.toNat)]))

/-- CH has stopped sending the entry at i to one of its groups for reason k: 2 the timeout of R158, 3 a refusal (R159). -/
def State.stoppedFor (s : State) (i k : Nat) : Bool := (upTo 3).any (fun g => (s.entry i).names g && (s.flow i g).stopKind = k)

/-- The status and value of a failure by engine e's program: for the channel library DEVICE_FAULT of an entry without a work record (R198), TIMEOUT and NOT_PERMITTED of a stopped flow (R158, R159), TIMEOUT with the address after BARERR (R314), POISONED of poisoned data (R307); else the program's own (R114). -/
def State.failWith (s : State) (e i given value : Nat) : Nat × Nat :=
  let x := s.le e
  if !s.inLibrary e || 5 ≤ (s.entry i).opc.toNat then (failStatus given, value)
  else if (s.workOf i).isNone then (stDeviceFault, value)
  else if s.stoppedFor i 2 then (stTimeout, value)
  else if s.stoppedFor i 3 then (stNotPermitted, value)
  else if x.bits.getLsbD 6 then (stTimeout, (s.pe (s.peOf e)).barErrAddr.toNat % 2 ^ 32)
  else if x.bits.getLsbD 9 then (stPoisoned, value)
  else (failStatus given, value)

end Sys2Proof.Machine
end

