-- ==== Sys2Proof/Machine/EngStep.lean ====
section
/-! DEFINITION. One step of an engine: results that become visible, traps, freezes, the effect of each kind of word, the order of fetch units, commits, mismatches (R171-R206, R211, R226, R243-R248). -/

namespace Sys2Proof.Machine

/-! ## Words -/

/-- The word at the program counter. -/
def State.wordAt (s : State) (e : Nat) : Nat := s.progWord (s.le e).pc.toNat

/-- Words of the fetch unit that begins with word w (R174). -/
def unitLen (w : Nat) : BitVec 15 := if w = 0x3FD0 then 2 else 1

/-- Address of the fetch unit after the one at `a` in sequence. -/
def State.unitAfter (s : State) (a : BitVec 15) : BitVec 15 := a + unitLen (s.progWord a.toNat)

/-- A control word. -/
def isCtl (w : Nat) : Bool := dstOf w = 0x7F
/-- A move from EVQ. -/
def fromEvq (w : Nat) : Bool := !isCtl w && srcOf w = 0x6C
/-- A branch trigger (R188). -/
def isBranch (w : Nat) : Bool := !isCtl w && 0x3C ≤ dstOf w && dstOf w ≤ 0x3F
/-- A load, a store: access size. -/
def isLoad (w : Nat) : Bool := !isCtl w && 0x30 ≤ dstOf w && dstOf w ≤ 0x33
def isStore (w : Nat) : Bool := !isCtl w && 0x34 ≤ dstOf w && dstOf w ≤ 0x37
def accSize (w : Nat) : Nat := 2 ^ (dstOf w % 4)
/-- An FP trigger port. -/
def isFp (w : Nat) : Bool := !isCtl w && 0x25 ≤ dstOf w && dstOf w ≤ 0x2D
/-- LOU.GO. -/
def isGo (w : Nat) : Bool := !isCtl w && dstOf w = 0x3A
/-- The program word at PC, or the operand word of its REPEAT G, fails its check (R174, R177). -/
def State.badWord (s : State) (e : Nat) : Bool :=
  s.progFails (e / 8) (s.le e).pc.toNat || (s.wordAt e = 0x3FD0 && s.progFails (e / 8) ((s.le e).pc + 1).toNat)
/-- A word that submits a request: the second of RQ.CH, the fourth of RQ.GAL or RQ.CPH (R200, R201). -/
def Eng.submits (x : Eng) (w : Nat) : Bool :=
  !isCtl w && ((dstOf w = 0x6D && x.rqCh.isSome) || (dstOf w = 0x6E && x.rqGal.length = 3) || (dstOf w = 0x6F && x.rqCph.length = 3))

/-- Address of a load or store: the LSU address, for a load plus T (R181). -/
def Eng.lsuTarget (x : Eng) (w : Nat) (v : W64) : W64 :=
  if isStore w then x.lat.lsuAddr.setWidth 64 else x.lat.lsuAddr.setWidth 64 + v

/-- A code of Table 7.8 that is an FP trigger (R232). -/
def fpCode (v : W64) : Bool := 3 ≤ v.toNat && v.toNat ≤ 6

/-- The FP outcome of the word, if it is an FP trigger (R206, R232). -/
def Eng.fpResult (x : Eng) (w : Nat) (v : W64) : Option FpOut :=
  if isFp w then some (fpOp (dstOf w) (fpRm x.fpctl) x.lat.fpA v)
  else if isGo w && fpCode v then some (fpLong v.toNat (fpRm x.fpctl) x.lat.louA x.lat.louB)
  else none

/-! ## Results that become visible (R185, R186, R194) -/

/-- Set a result port. -/
def Ports.put (p : Ports) (r : RPort) (v : W64) : Ports :=
  match r with
  | .alu => { p with alu := v } | .mul => { p with mul := v } | .fadd => { p with fadd := v } | .fmul => { p with fmul := v }
  | .fcmp => { p with fcmp := v } | .fcvt => { p with fcvt := v } | .lsu => { p with lsu := v }

/-- A result becomes visible with its flags. -/
def Eng.show1 (x : Eng) (f : InFlight) : Eng := ({ x with ports := x.ports.put f.port f.val }).unitBits f.mask.toNat f.bits.toNat

/-- Results due at this step become visible. -/
def Eng.shown (x : Eng) : Eng :=
  (x.flight.filter (fun f => f.due = 0 && f.wait.isNone)).foldl Eng.show1
    { x with flight := x.flight.filter (fun f => !(f.due = 0 && f.wait.isNone)) }

/-- Every result in flight becomes visible, in the order of the triggers (R203). -/
def Eng.drained (x : Eng) : Eng := x.flight.foldl Eng.show1 { x with flight := [] }

/-- One step has passed. -/
def Eng.aged (x : Eng) : Eng := { x with flight := x.flight.map (fun f => { f with due := f.due - 1 }) }

/-- A load that should be visible now has no data yet (R186). -/
def Eng.late (x : Eng) : Bool := x.flight.any (fun f => f.due = 0 && f.wait.isSome)

/-- The engine as a step finds it. -/
def State.ready (s : State) (e : Nat) : State := s.updLe e Eng.shown

/-! ## Order of fetch units (R188-R191, R204) -/

/-- BR.ERET takes effect: ports and latches restored, INTRAP cleared, ERPC1 for ERCNT times and then ERPC2 (R204). A long operation that the handler began and that still runs is not shown to the program (R203). -/
def Eng.eret (x : Eng) (p : Option Target) : Eng :=
  let y := match x.tsave with
    | some v =>
      let z : Eng := { x with lat := v.lat, ports := v.ports, tsave := none, lou := x.lou.map (fun (o : LongOp) => ({ o with hidden := true } : LongOp)) }
      (z.putBit 5 v.ldone).putBit 7 v.lfail
    | none => x
  { y.putBit 26 false with
    pc := x.trap.erpc1, p0 := match p with | some t => some t | none => some (.to x.trap.erpc2)
    rep := if x.trap.ercnt = 0 then none else some (x.trap.ercnt.toNat, 0) }

/-- The fetch unit of `len` words at PC has ended: the next one is a target due or follows in sequence (R189). -/
def Eng.endUnit (x : Eng) (len : BitVec 15) (taken : Option Target) : Eng :=
  match x.p0 with
  | none => { x with pc := x.pc + len, p0 := x.p1, p1 := taken, rep := none }
  | some (.to a) => { x with pc := a, p0 := x.p1, p1 := taken, rep := none }
  | some .eret => { (x.eret x.p1) with p1 := taken }

/-- How a step leaves the order: a branch taken, a count for the next fetch unit, or the order already placed. -/
structure Adv where
  taken : Option Target
  rep : Option Nat
  placed : Bool

def Adv.seq : Adv := ⟨none, none, false⟩

/-- The order after a word of `len` words: a repetition left is executed, otherwise the fetch unit has ended (R189, R190). -/
def Eng.seqNext (x : Eng) (len : BitVec 15) (taken : Option Target) : Eng :=
  match x.rep with
  | some (n, m) => if 2 ≤ n then { x with rep := some (n - 1, m) } else x.endUnit len taken
  | none => x.endUnit len taken

/-- A count for the fetch unit at PC: none skips it (R190). -/
def Eng.repeated (y : Eng) (len : BitVec 15) (n : Nat) : Eng := if n = 0 then y.endUnit len none else { y with rep := some (n, n) }

/-- The program moves on after the word w. -/
def State.advance0 (s : State) (e w : Nat) (a : Adv) : State :=
  if a.placed then s
  else
    let y := (s.le e).seqNext (unitLen w) a.taken
    s.updLe e (fun _ => match a.rep with
      | none => y
      | some n => y.repeated (unitLen (s.progWord y.pc.toNat)) n)

/-! ## Traps (R184, R195, R205, R206, R239) -/

/-- A GATE is refused with DENIED (R212, R381). -/
def State.gateDenied (s : State) (e : Nat) : Bool := s.tru.secState != 1 || s.secBlock e || (s.le e).gsave.isSome

/-- The secure entry that GATE names; none: index not below GATES, or not ENTRY (R381, Table 6.11). -/
def State.gateTarget (s : State) (e : Nat) : Option (BitVec 15) :=
  let k := bitsOf (s.le e).limm.toNat 0 12
  match s.eng.secImg with
  | some m => if k < s.tru.gates.toNat && s.progWord (m.entryAt k).toNat = 0x3FD2 then some (m.entryAt k) else none
  | none => none

/-- A word consumes the result of a long operation (R239). -/
def Eng.consumes (x : Eng) (w : Nat) : Bool :=
  if isCtl w then w = 0x3FD6 || w = 0x3FD1
  else
    dstOf w = 0x3A || dstOf w = 0x70 || srcOf w = 0x28 || srcOf w = 0x29 ||
      (x.bwin = 0 && (srcOf w = 0x45 || srcOf w = 0x47 || srcOf w = 0x61)) ||
      (dstOf w = 0x3C && (bitsOf x.lat.brCond.toNat 0 12 = 5 || bitsOf x.lat.brCond.toNat 0 12 = 7))

/-- The word is illegal where it stands (R184, R197, Table 6.11). -/
def State.illegal (s : State) (e w : Nat) : Bool :=
  let x := s.le e
  let after : Bool := match x.rep with | some (_, m) => m ≠ 0 | none => false
  !wordLegal w || (x.mustEntry && w != 0x3FD2) || (after && ((isCtl w && w != 0x3FFF) || isBranch w)) ||
    (w = 0x3FD0 && s.progWord (x.pc + 1).toNat / 16 != 0) || (!isCtl w && dstOf w = 0x3F && !x.bits.getLsbD 26) ||
    (w = 0x3FD3 && x.gsave.isNone) || (w = 0x3FD1 && !s.gateDenied e && (s.gateTarget e).isNone)

/-- The program counter lies in the program memory of the other world (R373, R374). -/
def State.wrongWorld (s : State) (e : Nat) : Bool :=
  let low := (s.le e).pc.toNat < s.tru.wm.pgm.toNat * 1024
  if s.engSec e then !low else low

/-- A load or store that Table 6.8 refuses. -/
def State.refusedAccess (s : State) (e w : Nat) (v : W64) : Bool :=
  (isLoad w || isStore w) && !s.engAccessOk e ((s.le e).lsuTarget w v).toNat (accSize w) (isStore w)

/-- QWAIT has passed since the queue freeze began (R193). -/
def State.qwaitOver (s : State) (e : Nat) : Bool :=
  match (s.le e).freeze with
  | some (2, t) => t + ms (s.engCl (e / 8)).qwait.toNat ≤ s.tick
  | _ => false

/-- The trap condition at the word, as ECAUSE (Table 6.11): ILLEGAL before ACCESS before ALIGN (R205). A value not there yet is waited for first. -/
def State.trapOf (s : State) (e : Nat) : Option Nat :=
  let x := s.le e
  let w := s.wordAt e
  let v := s.srcRead e (srcOf w)
  let known := !(fromEvq w && x.evq.isEmpty) || s.qwaitOver e
  if s.badWord e || x.late then none
  else if s.illegal e w then some 1
  else if s.wrongWorld e then some 2
  else if !known then none
  else if s.refusedAccess e w v then some 2
  else if (isLoad w || isStore w) && (x.lsuTarget w v).toNat % accSize w ≠ 0 then some 3
  else if x.micro.isSome && !x.bits.getLsbD 26 && x.consumes w then some 5
  else match x.fpResult w v with
    | some o => if isGo w && x.lou.isSome then none else if fpCause x.fpctl o ≠ 0 then some 4 else none
    | none => none

/-! ## Freezes (R186, R192, R206, R226, R247) -/

/-- The outbound transports of the step: receiving queue, address and payload (R243, R244). -/
def Eng.transports (x : Eng) (w : Nat) (v : W64) : List (RecvQueue × W64 × W64) :=
  if isCtl w then []
  else (if fromEvq w then [(.evq, 0, v)] else []) ++
    (if isLoad w then [(.mem, x.lsuTarget w v, 0)] else if isStore w then [(.mem, x.lsuTarget w v, v)]
     else if dstOf w = 0x6D then [(.ch, 0, v)] else if dstOf w = 0x6E then [(.gal, 0, v)] else if dstOf w = 0x6F then [(.cph, 0, v)]
     else if dstOf w = 0x70 then [(.qm, 0, v)]
     else if isGo w && (v = 7 || v = 8) then [(.mem, x.lat.louA, x.lat.louB)]
     else if isGo w && 0x10 ≤ v.toNat && v.toNat ≤ 0x13 then [(.tally, x.lat.louA, x.lat.louB)] else [])

/-- The word submits a request to a full queue (R201, Table 6.5). -/
def Eng.rqFull (x : Eng) (w : Nat) : Bool :=
  x.submits w && ((dstOf w = 0x6D && 8 ≤ x.chQ.length) || (dstOf w = 0x6E && 8 ≤ x.galQ.length) || (dstOf w = 0x6F && 8 ≤ x.cphQ.length))

/-- The engine's wide grant is needed and not held (Table 15.2). -/
def State.needsWide (s : State) (e w : Nat) : Bool := (isFp w || isGo w) && !s.hasGrant 3 (whoWide e)

/-- The word accesses a scratch bank whose addresses are being remapped: for the 64 ns that R416 allows (DESIGN CHOICE, log 96). -/
def State.remapStall (s : State) (e w a : Nat) : Bool :=
  (isLoad w || isStore w) && (match zoneOf (e / 8) a with
    | .scratch k => (s.memCl k).remapAt.any (fun r => r.1 = scrBank (canon (e / 8) a) && s.tick ≤ r.2 + 6)
    | _ => false)

/-- What keeps the word from executing now, as the code of Table 6.5. -/
def State.blocked (s : State) (e : Nat) : Option Nat :=
  let x := s.le e
  let c := e / 8
  let w := s.wordAt e
  let v := s.srcRead e (srcOf w)
  let a := (x.lsuTarget w v).toNat
  if s.badWord e then some 10
  else if x.late || x.bankWaits c then some 1
  else if (x.transports w v) != [] && 3 < (s.pe (s.peOf e)).stage.length + (x.transports w v).length then some 1
  else if fromEvq w && x.evq.isEmpty then some 2
  else if x.rqFull w then some 2
  else if (isGo w || w = 0x3FD1 || w = 0x3FD3) && x.lou.isSome then some 3
  else if w = 0x3FD6 && !x.bits.getLsbD 5 then some 3
  else if (w = 0x3FD1 || w = 0x3FD3) && !x.openLoads.isEmpty then some 1
  else if isLoad w && x.loadWaits c a (accSize w) then some 1
  else if isStore w && x.storeWaits c a (accSize w) then some 1
  else if s.remapStall e w a then some 9
  else if x.submits w && x.openStores then some 1
  else if s.needsWide e w then some 4
  else none

/-! ## Requests (R200, R201, R343, R364) -/

/-- BADREQ of a queue (1 CH, 2 GAL, 3 CPH) for TID t, with the access-refused bit (Table 6.6). -/
def State.badReqOf (s : State) (e : Nat) (t : W32) (queue : Nat) (refused : Bool) : State :=
  s.postTo e t 8 0 (queue + 4 * b2n refused)

/-- BADREQ for the current TID. -/
def State.badReq (s : State) (e queue : Nat) (refused : Bool) : State := s.badReqOf e (s.le e).tid queue refused

/-- n bytes at `a` may be named by a request for function f of cluster c: as the program's loads and stores, device registers apart (log 41); the library may also name its staging storage (R195, R369). -/
def State.reqPerm (s : State) (f : Nat) (sec lib : Bool) (c a n : Nat) (write : Bool) : Bool :=
  s.rangePerm f sec c a n write ||
    (!write && zoneOf c a == .tally && zoneOf c (a + n - 1) == .tally) || (lib && zoneOf c a == .system && zoneOf c (a + n - 1) == .system)

/-- n bytes at `a` may be named by engine e's request. -/
def State.reqRange (s : State) (e a n : Nat) (write : Bool) : Bool := s.reqPerm (s.engFn e) (s.engSec e) (s.inLibrary e) (e / 8) a n write

/-- The control word of a channel request has a field out of range (Table 6.10). -/
def chFieldsBad (v : Nat) : Bool :=
  if bitsOf v 37 1 = 1 then
    bitsOf v 38 26 ≠ 0 || bitsOf v 34 3 ≠ 0 || bitsOf v 32 2 = 3 || bitsOf v 0 25 = 0 || 16777216 < bitsOf v 0 25
  else
    bitsOf v 38 26 ≠ 0 || bitsOf v 32 2 = 3 || bitsOf v 13 3 ≠ 0 || bitsOf v 0 13 = 0 || 4096 < bitsOf v 0 13 ||
      (bitsOf v 34 1 = 1 && bitsOf v 0 13 ≠ 32)

/-- The transaction's ACK_TIMEOUT: of its command's expert form, else of the link its descriptor is first sent on (R158). -/
def State.ackTime (s : State) (i l : Nat) : Nat :=
  match Sp.look s.qm.work none i with
  | some w => if w.word.getLsbD 59 then pkN w.pkt 56 4 else (s.link l).cfg.ackTimeout.toNat
  | none => (s.link l).cfg.ackTimeout.toNat

/-- Keep a frame, in place of one with the same SEQ. -/
def keepFrame (fs : List Stored) (x : Stored) : List Stored :=
  if fs.any (fun y => y.f.seq = x.f.seq) then fs.map (fun y => if y.f.seq = x.f.seq then x else y) else fs ++ [x]

/-- A frame of slot g of the entry at i enters the link store and goes on its link (R153, R161, R162). -/
def State.chSend (s : State) (i g : Nat) (f : Frame) (desc expect : Bool) : State :=
  let e := s.entry i
  let grp := e.grp g
  let again := f.seq.toNat < (s.flow i g).txNext
  let f1 := if again then { f with flags := f.flags ||| 0x10 } else f
  let s1 := s.updFlow i g (fun x => { x with
    stored := keepFrame x.stored ⟨f1, s.tick, false, s.tick⟩, txNext := max x.txNext (f.seq.toNat + 1)
    descSent := x.descSent || desc, expectReply := if desc then expect else x.expectReply })
  let s2 := if again then s1.updEntry i (fun x => { x with resent := sat16 x.resent 1 }) else s1
  let cur := match s2.selLink i g with | some l => if s2.linkUp l then some (e.sel g, l) else s2.pickLink grp | none => s2.pickLink grp
  let pick := if desc then s2.pickLink grp else cur
  match pick with
  | none => if e.state == .active && desc then s2.loseGroup i g ((((s2.group grp).links.head?).map (fun x => x.2)).getD 0) else s2
  | some x =>
    let s3 := s2.updEntry i (fun n => n.setSel g x.1)
    let s4 := if desc then s3.updFlow i g (fun y => { y with timeout := if y.timeout = 0 then s3.ackTime i x.2 else y.timeout }) else s3
    let fl := s4.flow i g
    if fl.stopped || fl.pausedTo.isSome then s4
    else (if again then s4.cntLink x.2 6 1 else s4).queueFrame x.2 f1

/-- Bytes of frames that link l's part of the cluster frame store keeps: DATA frames until their ACK (R152). -/
def State.storeBytes (s : State) (l : Nat) : Nat :=
  (s.ch.flows.map (fun f => if s.selLink (f.1 / 4) (f.1 % 4) = some l then (f.2.stored.map (fun x => 20 + x.f.payload.length)).sum else 0)).sum

/-- The link that slot g of the entry at i uses, or will use (R161). -/
def State.linkFor (s : State) (i g : Nat) : Option Nat :=
  match s.selLink i g with
  | some l => if s.linkUp l then some l else (s.pickLink ((s.entry i).grp g)).map (fun x => x.2)
  | none => (s.pickLink ((s.entry i).grp g)).map (fun x => x.2)

/-- The transmit store of the request's link has room for its frame: 32 KiB per link (R152); a request that stores nothing needs none. -/
def State.chFits (s : State) (r : ChReq) : Bool :=
  let v := r.ctl.toNat
  bitsOf v 37 1 = 1 || (match s.linkFor (tidIdx r.tid) (bitsOf v 32 2) with
    | some l => s.storeBytes l + 20 + bitsOf v 0 13 ≤ 32768
    | none => true)

/-- CH takes a channel request: it checks it, posts the buffer, or reads the payload and sends the frame (R200, R201), the descriptor of the channel library being that of Table 5.9 at SEQ 0 (R153); one whose TID has gone is discarded and counted (R108). -/
def State.chTake (s : State) (h : HostIn) (e : Nat) (r : ChReq) : State :=
  let a := r.addr
  let t := r.tid
  let i := tidIdx t
  let en := s.entry i
  let v := r.ctl.toNat
  let g := bitsOf v 32 2
  let rx := bitsOf v 37 1 = 1
  let desc : Bool := bitsOf v 34 1 = 1
  let expect : Bool := bitsOf v 36 1 = 1
  let n := if rx then bitsOf v 0 25 else bitsOf v 0 13
  if chFieldsBad v || (s.tidLive t && !en.names g) then s.badReqOf e t 1 false
  else if !s.reqPerm r.func r.secure r.lib (e / 8) a.toNat n rx then s.badReqOf e t 1 true
  else if !s.tidLive t then s.lateMessage t
  else if rx then s.updFlow i g (fun x => { x with buf := some (a.toNat, n) })
  else if desc && expect && (s.flow i g).buf.isNone then s.badReqOf e t 1 false
  else if !(en.state == .opened || en.state == .active || (en.state == .held && !en.lostMask.getLsbD g)) then s
  else
    let s1 := s.unitFetch h r.func r.secure (e / 8) none a.toNat n
    let d := s1.unitRead h r.func r.secure (e / 8) a.toNat n
    let flags := fun (last : Nat) => fields [(0, last), (1, bitsOf v 34 1), (5, b2n (d.2.1 || d.2.2.isSome))]
    let frame := fun (last seq : Nat) (bs : List Byte) => s1.mkFrame 1 (flags last) (en.grp g) en.func.toNat t seq bs
    match (if r.lib && desc then s.workOf i else none) with
    | some w => s1.chSend i g (frame (b2n (en.opc = 1)) 0 (w.descriptor en.opc.toNat)) desc expect
    | none => s1.chSend i g (frame (bitsOf v 35 1) (bitsOf v 16 16) d.1) desc expect

/-- CH takes requests in order while their frames fit (R200). -/
def State.takeChs (s : State) (h : HostIn) (e : Nat) : List ChReq → State
  | [] => s
  | r :: rs => if s.chFits r then ((s.updLe e (fun x => { x with chQ := rs })).chTake h e r).takeChs h e rs else s

/-- CH takes what it can of engine e's channel requests. -/
def State.takeCh (s : State) (h : HostIn) (e : Nat) : State := s.takeChs h e (s.le e).chQ

/-- Word 1 of a channel request submits it (R200, R201). -/
def State.chRequest (s : State) (e : Nat) (a w : W64) : State :=
  s.updLe e (fun x => { x with chQ := x.chQ ++ [⟨x.tid, a, w, s.engFn e, s.engSec e, s.inLibrary e⟩] })

/-- A request of engine e with the fields common to both units. -/
def State.svcOf (s : State) (e op : Nat) (w0 w1 : W64) (len : Nat) : SvcReq :=
  { op := op, src := bitsOf w0.toNat 0 48, dst := bitsOf w1.toNat 0 48, res := 0, aad := 0, aadLen := 0, len := len, ratio := 0
    stream := false, slot := 0, expGen := 0, iv := 0, ivKind := 0, tag := BitVec.ofNat 16 (bitsOf w1.toNat 48 16)
    func := s.engFn e, secure := s.engSec e, engine := some e, tid := (s.le e).tid, handle := 0 }

/-- Two ranges of a request overlap. -/
def overlaps (c a n b m : Nat) : Bool := n ≠ 0 && m ≠ 0 && meets (canon c a) n (canon c b) m

/-- The fourth word of a galley request submits it (R364). -/
def State.galRequest (s : State) (e : Nat) (w0 w1 w2 w3 : W64) : State :=
  let c := e / 8
  let v := w3.toNat
  let op := bitsOf v 34 1
  let ratio := bitsOf v 32 2
  let len := bitsOf v 0 21
  let stream : Bool := bitsOf v 35 1 = 1
  let res := bitsOf w2.toNat 0 48
  let r : SvcReq := { s.svcOf e op w0 w1 len with res := res, ratio := ratio, stream := stream }
  let packed := galSize ratio * r.blocks
  let srcN := if op = 0 then len else packed
  let dstN := if op = 0 then packed else len
  let resN := if res = 0 then 0 else 8
  let bad := bitsOf w0.toNat 48 16 ≠ 0 || bitsOf w2.toNat 48 16 ≠ 0 || bitsOf v 36 28 ≠ 0 || bitsOf v 21 11 ≠ 0 || (op = 0 && stream) ||
    ratio = 0 || len = 0 || 1048576 < len || res % 8 ≠ 0 || overlaps c r.src srcN r.dst dstN || overlaps c r.src srcN res resN ||
    overlaps c r.dst dstN res resN
  if bad then s.badReq e 2 false
  else if !(s.reqRange e r.src srcN false && s.reqRange e r.dst dstN true && (res = 0 || s.reqRange e res 8 true)) then s.badReq e 2 true
  else if op = 1 && !stream && 65536 < len then s.svcDone r stNotPermitted 0 0
  else (s.updLe e (fun x => { x with galQ := x.galQ ++ [r] })).takeGal e

/-- The transaction IV and captured GEN of engine e's work record (R334); a transaction that drew none has no stated IV (log 40). -/
def State.txnIv (s : State) (e : Nat) : BitVec 96 × BitVec 24 :=
  let t := (s.le e).tid
  match Sp.look s.qm.work none (tidIdx t) with
  | some w => if bitsOf (pkN w.pkt 14 1) 2 1 = 1 && !w.gate then (w.iv, w.gen) else (Config.noTxnIv t.toNat, 0)
  | none => (Config.noTxnIv t.toNat, 0)

/-- The fourth word of a cipher request submits it (R332, R342, R343). -/
def State.cphRequest (s : State) (e : Nat) (w0 w1 w2 w3 : W64) : State :=
  let v := w3.toNat
  let op := bitsOf v 34 2
  let len := bitsOf v 0 25
  let aadLen := bitsOf w2.toNat 48 13
  let stream : Bool := bitsOf v 33 1 = 1
  let txn : Bool := bitsOf v 32 1 = 1 && op = 0
  let gen : BitVec 24 := BitVec.ofNat 24 (bitsOf v 40 24)
  let iv := s.txnIv e
  let r : SvcReq :=
    { s.svcOf e op w0 w1 len with
      aad := bitsOf w2.toNat 0 48, aadLen := aadLen, stream := stream, slot := bitsOf v 36 4
      expGen := if txn then iv.2 else gen, iv := if txn then iv.1 else 0, ivKind := if txn then 2 else 1 }
  let srcN := if op = 1 then len + 28 else len
  let dstN := if op = 0 then len + 28 else len
  let bad := bitsOf w0.toNat 48 16 ≠ 0 || bitsOf w2.toNat 61 3 ≠ 0 || bitsOf v 25 7 ≠ 0 || len = 0 || 16777216 < len || 4096 < aadLen ||
    (2 ≤ op && (aadLen ≠ 0 || len % 16 ≠ 0))
  if bad then s.badReq e 3 false
  else if !(s.reqRange e r.src srcN false && s.reqRange e r.dst dstN true && (aadLen = 0 || s.reqRange e r.aad aadLen false)) then s.badReq e 3 true
  else if 2 ≤ op && !lcService s.deck.lc then s.svcDone r stMode 0 0
  else if op = 1 && !stream && 65536 < len then s.svcDone r stNotPermitted 0 0
  else if op = 0 && !txn && (s.slot r.keyAt).type ≠ 0 then
    match s.drawIv r.keyAt with
    | (t, some d) => (t.updLe e (fun x => { x with cphQ := x.cphQ ++ [{ r with iv := d }] })).takeCph e
    | (t, none) => t.svcDone r stNotPermitted 0 0
  else (s.updLe e (fun x => { x with cphQ := x.cphQ ++ [r] })).takeCph e

/-! ## Effects of words -/

/-- A trigger of a pipeline of fixed latency (R185). -/
def State.trigger (s : State) (e d : Nat) (o : UnitOut) : State :=
  s.fly e ⟨latency d, portOf d, o.val, BitVec.ofNat 32 o.mask, BitVec.ofNat 32 o.bits, none⟩

/-- A load or store with its auto-increment (R181). -/
def State.access (s : State) (e w : Nat) (v : W64) : State :=
  let x := s.le e
  let a := (x.lsuTarget w v).toNat
  let n := accSize w
  let s1 := if x.lat.lsuAuto then s.updLe e (fun y => { y with lat := { y.lat with lsuAddr := y.lat.lsuAddr + BitVec.ofNat 48 n } }) else s
  if isStore w then s1.storeGo e a n v else s1.loadGo e a n

/-- LOU.GO (R226, R228). -/
def Eng.goLong (x : Eng) (v : W64) (now : Nat) : Eng :=
  ({ x with lou := some ⟨v.setWidth 8, 256 ≤ v.toNat, x.lat.louA, x.lat.louB, x.fpctl, now, false, false⟩ }).putBit 5 false

/-- A write to a request queue (R200, R201); `drop`: QWAIT has expired on a full queue (R193). -/
def State.queueWord (s : State) (e d : Nat) (v : W64) (drop : Bool) : State :=
  let x := s.le e
  if d = 0x6D then
    match x.rqCh with
    | none => s.updLe e (fun y => { y with rqCh := some v })
    | some a => let t := s.updLe e (fun y => { y with rqCh := none }); if drop then t else t.chRequest e a v
  else if d = 0x6E then
    match x.rqGal with
    | [a, b, c] => let t := s.updLe e (fun y => { y with rqGal := [] }); if drop then t else t.galRequest e a b c v
    | l => s.updLe e (fun y => { y with rqGal := l ++ [v] })
  else
    match x.rqCph with
    | [a, b, c] => let t := s.updLe e (fun y => { y with rqCph := [] }); if drop then t else t.cphRequest e a b c v
    | l => s.updLe e (fun y => { y with rqCph := l ++ [v] })

/-- A branch (R188, R189): the target taken, if any. -/
def Eng.branch (x : Eng) (d : Nat) (v : W64) : Option Target :=
  let c := x.lat.brCond.toNat
  if d = 0x3F then some .eret
  else if d = 0x3C && x.bit (bitsOf c 0 12) != (bitsOf c 12 1 = 1 : Bool) then none
  else some (.to (v.setWidth 15))

/-- DONE is written (R202). -/
def State.doneWrite (s : State) (e : Nat) : State :=
  ((s.updLe e (fun x => { x with doneAt := some (x.pc, s.tick) })).takeGal e).takeCph e

/-- The effect of a move of value v to destination d (Table 6.3). -/
def State.moveTo (s : State) (e w : Nat) (v : W64) (drop : Bool) : State × Adv :=
  let d := dstOf w
  let x := s.le e
  if plainDst d then (s.updLe e (fun y => y.dstWrite d v), Adv.seq)
  else if d < 0x20 then (s.trigger e d (aluOp d x.lat.aluA v (x.bits.getLsbD 0)), Adv.seq)
  else if d < 0x24 then (s.trigger e d (mulOp d x.lat.mulA v), Adv.seq)
  else if d < 0x2E then (s.trigger e d (fpUnit d (fpRm x.fpctl) x.lat.fpA v), Adv.seq)
  else if d < 0x38 then (s.access e w v, Adv.seq)
  else if d = 0x3A then (s.updLe e (fun y => y.goLong v s.tick), Adv.seq)
  else if d < 0x40 then
    let s1 := if d = 0x3E then s.updLe e (fun y => { y with brLink := s.unitAfter (s.unitAfter (s.unitAfter y.pc)) }) else s
    (s1, ⟨x.branch d v, none, false⟩)
  else if d = 0x70 then (s.doneWrite e, Adv.seq)
  else (s.queueWord e d v drop, Adv.seq)

/-- The secure entry of a GATE: the caller's state is saved, the dispatch values are set (R211). -/
def State.gateEnter (s : State) (e : Nat) (target : BitVec 15) : State :=
  let z := ((s.le e).drained).endUnit 1 none
  let im := s.imageAt target
  let low := (z.bits.setWidth 256).setWidth 4096 &&& ~~~ (BitVec.ofNat 4096 0x4018000)
  let x : Eng :=
    { z with
      gsave := some ⟨z.g, z.bits, z.bwin, z.fpctl, z.trap, z.lat, z.ports, z.tsave, z.bits.getLsbD 26, z.pc, z.p0, z.p1, z.fore, z.rep, z.micro⟩
      g := (upTo 8).foldl (fun (t : Sp W64) (k : Nat) => Sp.put t 0 (8 + k) 0) z.g
      bits := low ||| BitVec.ofNat 4096 (0x8000 + 0x10000 * b2n im.2.2)
      bwin := 0, fpctl := 0, trap := { z.trap with vec := im.2.1, ercnt := 0 }, lat := Latches.init, ports := Ports.init, tsave := none
      pc := target, p0 := none, p1 := none, rep := none, micro := none, fore := im.2.2, mustEntry := true }
  s.updLe e (fun _ => x)

/-- GATE (R211, R212, R381). -/
def State.gateWord (s : State) (e : Nat) : State × Adv :=
  if s.gateDenied e then (s.updLe e (fun x => { x with g := Sp.put x.g 0 0 0x0E }), Adv.seq)
  else match s.gateTarget e with
    | some a => (s.gateEnter e a, ⟨none, none, true⟩)
    | none => (s, Adv.seq)

/-- RETURN_GATE (R211): like the GATE it lets every result in flight become visible first. -/
def State.gateReturn (s : State) (e : Nat) : State × Adv :=
  match (s.le e).gsave with
  | some v => (s.updLe e (fun x => x.drained.ungate v none), ⟨none, none, true⟩)
  | none => (s, Adv.seq)

/-- The effect of a control word (Table 6.4). -/
def State.control (s : State) (e w : Nat) : State × Adv :=
  let k := srcOf w
  let x := s.le e
  if k < 0x40 then (s.updLe e (fun y => { y with limm := y.immxStep k }), Adv.seq)
  else if k < 0x50 then (s, ⟨none, some (k - 0x3F), false⟩)
  else if k = 0x50 then (s, ⟨none, some (x.repCount (s.progWord (x.pc + 1).toNat % 16)), false⟩)
  else if k = 0x51 then s.gateWord e
  else if k = 0x53 then s.gateReturn e
  else if k = 0x54 then
    (if x.openLoads.isEmpty && !x.openStores then s else s.updLe e (fun y => { y with barrier := some (false, s.tick) }), Adv.seq)
  else if k = 0x55 then
    (((s.updLe e (fun y => { y with barrier := some (true, s.tick), barErr := false })).takeGal e).takeCph e, Adv.seq)
  else (s, Adv.seq)

/-! ## A step commits (R175, R243-R247) -/

/-- An FP trigger while an FP trap is enabled: the engine freezes until the operation is complete (R206, R232). -/
def Eng.fpHolds (x : Eng) (w : Nat) (v : W64) : Bool := fpTraps x.fpctl && (isFp w || (isGo w && fpCode v))

/-- The long operation in flight is one that an FP trigger waits for (R206). -/
def LongOp.held (o : LongOp) : Bool := fpTraps o.fpctl && fpCode (o.code.setWidth 64) && !o.badArg

/-- The step has switched between programs: GATE, RETURN_GATE or the restore of BR.ERET (Table 6.5). -/
def Eng.switched (x y : Eng) : Bool := x.gsave.isSome != y.gsave.isSome || (x.bits.getLsbD 26 && !y.bits.getLsbD 26)

/-- The freeze that the committed step leaves the engine in: DONE, a barrier, an FP trigger that may trap, a switch (Table 6.5). `x`: the engine before the step. -/
def State.afterFreeze (s : State) (e : Nat) (x : Eng) (w : Nat) (v : W64) : State :=
  let y := s.le e
  if y.doneAt.isSome then s.freezeAt e 11
  else if y.barrier.isSome then s.freezeAt e 5
  else if x.fpHolds w v then s.freezeAt e 6
  else if x.switched y then s.freezeAt e 7
  else s

/-- The step counts, and what a word leaves for the next: whether it was an IMMX (R182), whether an ENTRY is still due (R197). -/
def Eng.stepped (y : Eng) (due immx : Bool) : Eng :=
  { y with immx := immx, mustEntry := y.mustEntry && !due, steps := y.steps + 1, stepSeq := y.stepSeq + 1 }

/-- The step at the program counter is executed and commits. -/
def State.doStep (s0 : State) (e : Nat) (drop : Bool) : State :=
  let s := (s0.thaw e).peCount e 0 1
  let x := s.le e
  let w := s.wordAt e
  let v := s.srcRead e (srcOf w)
  let n := s.peOf e
  let s1 := if fromEvq w then s.updLe e Eng.evNext else s
  let r := if isCtl w then s1.control e w else s1.moveTo e w v drop
  let s2 := r.1.updLe e (fun y => y.stepped x.mustEntry (isCtl w && srcOf w < 0x40))
  let s3 := (s2.advance0 e w r.2).updLe e Eng.aged
  let s4 := (s3.pushStage e (x.transports w v)).updPe n (fun p => { p with stepSeq := x.stepSeq + 1, retryNow := 0 })
  s4.afterFreeze e x w v

/-- A register-file check fails at the step, by an injection (Table 14.6): the lanes are decided (R249). -/
def State.checkFails (s : State) (e : Nat) : State :=
  let n := s.peOf e
  let m := s.injMaskOf (uPe n)
  ((s.thaw e).fire (uPe n)).lanesFaulty e (bitsOf m 8 1 = 1) (bitsOf m 9 1 = 1) 1 true

/-- The step ends in a comparison (R243): commit, or a mismatch that freezes the engine for a retry (R248). -/
def State.compared (s : State) (e : Nat) (ok drop : Bool) : State :=
  let u := uPe (s.peOf e)
  if s.armed u 0x300 then s.checkFails e
  else if !ok || s.armed u 0x10000 then s.freezeAt e 8
  else s.doStep e drop

/-- Engine e may execute a step: running, its lanes in service, no freeze but one that its word decides. -/
def State.mayStep (s : State) (e : Nat) : Bool :=
  let x := s.le e
  let p := s.pe (s.peOf e)
  s.live && s.inService e && x.running && p.role == .active && p.testing.isNone && !p.migrating && !p.persistent &&
    x.barrier.isNone && x.doneAt.isNone && (match x.freeze with
      | none => true
      | some f => (1 ≤ f.1 && f.1 ≤ 4) || f.1 = 7 || f.1 = 9 || f.1 = 10 || (f.1 = 6 && !x.lou.any LongOp.held))

/-- The word at the program counter that a row executes: the freeze it meets, or its step. -/
def State.tryStep (s : State) (e : Nat) (ok : Bool) : State :=
  match s.blocked e with
  | none => s.compared e ok false
  | some 4 =>
    let t := s.askGrant 3 1 (whoWide e)
    if t.hasGrant 3 (whoWide e) then t.compared e ok false else t.freezeAt e 4
  | some c => s.freezeAt e c

/-- A row of the instruction set: it acts on engine e when the word at its program counter is `mine` and raises no trap. -/
def State.stepRow (s : State) (e : Nat) (ok : Bool) (mine : Eng → Nat → W64 → Bool) : State :=
  let t := s.settleParity
  if !t.mayStep e then t
  else
    let r := t.ready e
    if mine (r.le e) (r.wordAt e) (r.srcRead e (srcOf (r.wordAt e))) && (r.trapOf e).isNone then r.tryStep e ok else t

/-- No host memory is read. -/
def HostIn.empty : HostIn := ⟨[], [], none⟩

end Sys2Proof.Machine
end

