-- ==== Sys2Proof/Machine/EngRows.lean ====
section
/-! DEFINITION. The rows of the instruction set (Tables 6.3, 6.4, 7.8): one for each kind of word. Each executes the step at the program counter of an engine whose word is of its kind; the meaning of the word is that of EngStep. -/

namespace Sys2Proof.Machine

/-! ## Which words a row executes -/

/-- A move from a source other than EVQ to destination d. -/
def onPort (d : Nat) (_ : Eng) (w : Nat) (_ : W64) : Bool := !isCtl w && !fromEvq w && dstOf w = d

/-- A move without a trigger. -/
def isMove (x : Eng) (w : Nat) (_ : W64) : Bool :=
  !isCtl w && !fromEvq w && (plainDst (dstOf w) || (0x6D ≤ dstOf w && dstOf w ≤ 0x6F && !x.submits w))

/-- A move from EVQ, but for the submission of a channel request. -/
def isEvq (x : Eng) (w : Nat) (_ : W64) : Bool := fromEvq w && !(dstOf w = 0x6D && x.rqCh.isSome)

/-- A control word of opcodes lo to hi. -/
def ctlRange (lo hi : Nat) (_ : Eng) (w : Nat) (_ : W64) : Bool := isCtl w && lo ≤ srcOf w && srcOf w ≤ hi

/-- LOU.GO with code c. -/
def goCode (c : Nat) (_ : Eng) (w : Nat) (v : W64) : Bool := isGo w && !fromEvq w && v.toNat = c

/-- A code of Table 7.8. -/
def louCode (v : W64) : Bool := louAssigned v.toNat

/-- LOU.GO with a value that Table 7.8 does not assign. -/
def goBad (_ : Eng) (w : Nat) (v : W64) : Bool := isGo w && !fromEvq w && !louCode v

/-- Word 1 of a channel request, from whatever source. -/
def submitsCh (x : Eng) (w : Nat) (_ : W64) : Bool := !isCtl w && dstOf w = 0x6D && x.rqCh.isSome

/-- The fourth word of a galley request with the OP, of a cipher request with the OP. -/
def submitsGal (op : Nat) (x : Eng) (w : Nat) (v : W64) : Bool := onPort 0x6E x w v && x.rqGal.length = 3 && bitsOf v.toNat 34 1 = op
def submitsCph (op : Nat) (x : Eng) (w : Nat) (v : W64) : Bool := onPort 0x6F x w v && x.rqCph.length = 3 && bitsOf v.toNat 34 2 = op

/-! ## The rows -/

/-- MOVE: to a register, operand, bit or special port, or a word of a request that does not submit it (R176). -/
def execMove (e : LeId) (ok : Bool) (s : State) : Host.Outcome State Fault Refusal := .next (s.stepRow e.val ok (isMove))

/-- EVQ_READ: the next event leaves the queue as the step commits (R178, R199, R244). -/
def execEvqRead (e : LeId) (ok : Bool) (s : State) : Host.Outcome State Fault Refusal := .next (s.stepRow e.val ok (isEvq))

/-- ALU.ADD: A + T (R214, R185). -/
def execAluAdd (e : LeId) (ok : Bool) (s : State) : Host.Outcome State Fault Refusal := .next (s.stepRow e.val ok (onPort 0x11))

/-- ALU.SUB: A - T (R214, R185). -/
def execAluSub (e : LeId) (ok : Bool) (s : State) : Host.Outcome State Fault Refusal := .next (s.stepRow e.val ok (onPort 0x12))

/-- ALU.AND: A and T (R214, R185). -/
def execAluAnd (e : LeId) (ok : Bool) (s : State) : Host.Outcome State Fault Refusal := .next (s.stepRow e.val ok (onPort 0x13))

/-- ALU.OR: A or T (R214, R185). -/
def execAluOr (e : LeId) (ok : Bool) (s : State) : Host.Outcome State Fault Refusal := .next (s.stepRow e.val ok (onPort 0x14))

/-- ALU.XOR: A xor T (R214, R185). -/
def execAluXor (e : LeId) (ok : Bool) (s : State) : Host.Outcome State Fault Refusal := .next (s.stepRow e.val ok (onPort 0x15))

/-- ALU.ANDN: A and not T (R214, R185). -/
def execAluAndn (e : LeId) (ok : Bool) (s : State) : Host.Outcome State Fault Refusal := .next (s.stepRow e.val ok (onPort 0x16))

/-- ALU.SHL: A shifted left (R216, R185). -/
def execAluShl (e : LeId) (ok : Bool) (s : State) : Host.Outcome State Fault Refusal := .next (s.stepRow e.val ok (onPort 0x17))

/-- ALU.SHR: A shifted right logically (R216, R185). -/
def execAluShr (e : LeId) (ok : Bool) (s : State) : Host.Outcome State Fault Refusal := .next (s.stepRow e.val ok (onPort 0x18))

/-- ALU.SAR: A shifted right arithmetically (R216, R185). -/
def execAluSar (e : LeId) (ok : Bool) (s : State) : Host.Outcome State Fault Refusal := .next (s.stepRow e.val ok (onPort 0x19))

/-- ALU.ROL: A rotated left (R216, R185). -/
def execAluRol (e : LeId) (ok : Bool) (s : State) : Host.Outcome State Fault Refusal := .next (s.stepRow e.val ok (onPort 0x1A))

/-- ALU.EQ: 1 if A = T (R214, R185). -/
def execAluEq (e : LeId) (ok : Bool) (s : State) : Host.Outcome State Fault Refusal := .next (s.stepRow e.val ok (onPort 0x1B))

/-- ALU.LT: 1 if A < T signed (R214, R185). -/
def execAluLt (e : LeId) (ok : Bool) (s : State) : Host.Outcome State Fault Refusal := .next (s.stepRow e.val ok (onPort 0x1C))

/-- ALU.LTU: 1 if A < T unsigned (R214, R185). -/
def execAluLtu (e : LeId) (ok : Bool) (s : State) : Host.Outcome State Fault Refusal := .next (s.stepRow e.val ok (onPort 0x1D))

/-- ALU.ADDC: A + T + CARRY (R215, R185). -/
def execAluAddc (e : LeId) (ok : Bool) (s : State) : Host.Outcome State Fault Refusal := .next (s.stepRow e.val ok (onPort 0x1E))

/-- ALU.SUBB: A - T - CARRY (R215, R185). -/
def execAluSubb (e : LeId) (ok : Bool) (s : State) : Host.Outcome State Fault Refusal := .next (s.stepRow e.val ok (onPort 0x1F))

/-- MUL.LO: low 64 bits of A × T (R179, R186). -/
def execMulLo (e : LeId) (ok : Bool) (s : State) : Host.Outcome State Fault Refusal := .next (s.stepRow e.val ok (onPort 0x21))

/-- MUL.HIU: high 64 bits, unsigned (R179, R186). -/
def execMulHiu (e : LeId) (ok : Bool) (s : State) : Host.Outcome State Fault Refusal := .next (s.stepRow e.val ok (onPort 0x22))

/-- MUL.HIS: high 64 bits, signed (R179, R186). -/
def execMulHis (e : LeId) (ok : Bool) (s : State) : Host.Outcome State Fault Refusal := .next (s.stepRow e.val ok (onPort 0x23))

/-- FADD.D (R219, R206). -/
def execFaddD (e : LeId) (ok : Bool) (s : State) : Host.Outcome State Fault Refusal := .next (s.stepRow e.val ok (onPort 0x25))

/-- FSUB.D (R219, R206). -/
def execFsubD (e : LeId) (ok : Bool) (s : State) : Host.Outcome State Fault Refusal := .next (s.stepRow e.val ok (onPort 0x26))

/-- FADD.S (R219, R206). -/
def execFaddS (e : LeId) (ok : Bool) (s : State) : Host.Outcome State Fault Refusal := .next (s.stepRow e.val ok (onPort 0x27))

/-- FSUB.S (R219, R206). -/
def execFsubS (e : LeId) (ok : Bool) (s : State) : Host.Outcome State Fault Refusal := .next (s.stepRow e.val ok (onPort 0x28))

/-- FMUL.D (R219, R206). -/
def execFmulD (e : LeId) (ok : Bool) (s : State) : Host.Outcome State Fault Refusal := .next (s.stepRow e.val ok (onPort 0x29))

/-- FMUL.S (R219, R206). -/
def execFmulS (e : LeId) (ok : Bool) (s : State) : Host.Outcome State Fault Refusal := .next (s.stepRow e.val ok (onPort 0x2A))

/-- FCMP.D (R224, R206). -/
def execFcmpD (e : LeId) (ok : Bool) (s : State) : Host.Outcome State Fault Refusal := .next (s.stepRow e.val ok (onPort 0x2B))

/-- FCMP.S (R224, R206). -/
def execFcmpS (e : LeId) (ok : Bool) (s : State) : Host.Outcome State Fault Refusal := .next (s.stepRow e.val ok (onPort 0x2C))

/-- FCVT (R225, R206). -/
def execFcvt (e : LeId) (ok : Bool) (s : State) : Host.Outcome State Fault Refusal := .next (s.stepRow e.val ok (onPort 0x2D))

/-- LD8 (R180, R181, R310). -/
def execLd8 (e : LeId) (ok : Bool) (s : State) : Host.Outcome State Fault Refusal := .next (s.stepRow e.val ok (onPort 0x30))

/-- LD16 (R180, R181, R310). -/
def execLd16 (e : LeId) (ok : Bool) (s : State) : Host.Outcome State Fault Refusal := .next (s.stepRow e.val ok (onPort 0x31))

/-- LD32 (R180, R181, R310). -/
def execLd32 (e : LeId) (ok : Bool) (s : State) : Host.Outcome State Fault Refusal := .next (s.stepRow e.val ok (onPort 0x32))

/-- LD64 (R180, R181, R310). -/
def execLd64 (e : LeId) (ok : Bool) (s : State) : Host.Outcome State Fault Refusal := .next (s.stepRow e.val ok (onPort 0x33))

/-- ST8 (R180, R181, R308). -/
def execSt8 (e : LeId) (ok : Bool) (s : State) : Host.Outcome State Fault Refusal := .next (s.stepRow e.val ok (onPort 0x34))

/-- ST16 (R180, R181, R308). -/
def execSt16 (e : LeId) (ok : Bool) (s : State) : Host.Outcome State Fault Refusal := .next (s.stepRow e.val ok (onPort 0x35))

/-- ST32 (R180, R181, R308). -/
def execSt32 (e : LeId) (ok : Bool) (s : State) : Host.Outcome State Fault Refusal := .next (s.stepRow e.val ok (onPort 0x36))

/-- ST64 (R180, R181, R308). -/
def execSt64 (e : LeId) (ok : Bool) (s : State) : Host.Outcome State Fault Refusal := .next (s.stepRow e.val ok (onPort 0x37))

/-- LOU.GO with code 0x01 (R226, R217). -/
def execDivu (e : LeId) (ok : Bool) (s : State) : Host.Outcome State Fault Refusal := .next (s.stepRow e.val ok (goCode 0x01))

/-- LOU.GO with code 0x02 (R226, R217). -/
def execDivs (e : LeId) (ok : Bool) (s : State) : Host.Outcome State Fault Refusal := .next (s.stepRow e.val ok (goCode 0x02))

/-- LOU.GO with code 0x03 (R226, R232). -/
def execFdivD (e : LeId) (ok : Bool) (s : State) : Host.Outcome State Fault Refusal := .next (s.stepRow e.val ok (goCode 0x03))

/-- LOU.GO with code 0x04 (R226, R232). -/
def execFdivS (e : LeId) (ok : Bool) (s : State) : Host.Outcome State Fault Refusal := .next (s.stepRow e.val ok (goCode 0x04))

/-- LOU.GO with code 0x05 (R226, R232). -/
def execFsqrtD (e : LeId) (ok : Bool) (s : State) : Host.Outcome State Fault Refusal := .next (s.stepRow e.val ok (goCode 0x05))

/-- LOU.GO with code 0x06 (R226, R232). -/
def execFsqrtS (e : LeId) (ok : Bool) (s : State) : Host.Outcome State Fault Refusal := .next (s.stepRow e.val ok (goCode 0x06))

/-- LOU.GO with code 0x07 (R226, R230). -/
def execCrc32c (e : LeId) (ok : Bool) (s : State) : Host.Outcome State Fault Refusal := .next (s.stepRow e.val ok (goCode 0x07))

/-- LOU.GO with code 0x08 (R226, R230). -/
def execBcmp (e : LeId) (ok : Bool) (s : State) : Host.Outcome State Fault Refusal := .next (s.stepRow e.val ok (goCode 0x08))

/-- LOU.GO with code 0x09 (R226, R228). -/
def execBscan (e : LeId) (ok : Bool) (s : State) : Host.Outcome State Fault Refusal := .next (s.stepRow e.val ok (goCode 0x09))

/-- LOU.GO with code 0x0A (R226, R228). -/
def execPopcnt (e : LeId) (ok : Bool) (s : State) : Host.Outcome State Fault Refusal := .next (s.stepRow e.val ok (goCode 0x0A))

/-- LOU.GO with an unassigned code or nonzero T bits 63:8 (R228). -/
def execLouBadarg (e : LeId) (ok : Bool) (s : State) : Host.Outcome State Fault Refusal := .next (s.stepRow e.val ok (goBad))

/-- LOU.GO with code 0x10 (R226, R231). -/
def execTlActivate (e : LeId) (ok : Bool) (s : State) : Host.Outcome State Fault Refusal := .next (s.stepRow e.val ok (goCode 0x10))

/-- LOU.GO with code 0x11 (R226, R231). -/
def execTlMark (e : LeId) (ok : Bool) (s : State) : Host.Outcome State Fault Refusal := .next (s.stepRow e.val ok (goCode 0x11))

/-- LOU.GO with code 0x12 (R226, R119, R231). -/
def execTlCommit (e : LeId) (ok : Bool) (s : State) : Host.Outcome State Fault Refusal := .next (s.stepRow e.val ok (goCode 0x12))

/-- LOU.GO with code 0x13 (R226, R114, R231). -/
def execTlFail (e : LeId) (ok : Bool) (s : State) : Host.Outcome State Fault Refusal := .next (s.stepRow e.val ok (goCode 0x13))

/-- BR.IF (R188). -/
def execBrIf (e : LeId) (ok : Bool) (s : State) : Host.Outcome State Fault Refusal := .next (s.stepRow e.val ok (onPort 0x3C))

/-- BR.JUMP (R188). -/
def execBrJump (e : LeId) (ok : Bool) (s : State) : Host.Outcome State Fault Refusal := .next (s.stepRow e.val ok (onPort 0x3D))

/-- BR.CALL (R188, Table 6.3). -/
def execBrCall (e : LeId) (ok : Bool) (s : State) : Host.Outcome State Fault Refusal := .next (s.stepRow e.val ok (onPort 0x3E))

/-- BR.ERET (R204). -/
def execBrEret (e : LeId) (ok : Bool) (s : State) : Host.Outcome State Fault Refusal := .next (s.stepRow e.val ok (onPort 0x3F))

/-- RQ.CH: word 1 submits a channel request, and CH takes what the link store has room for, reading the payload then (R152, R200). -/
def execRqCh (e : LeId) (ok : Bool) (host : HostIn) (s : State) : Host.Outcome State Fault Refusal := .next ((s.stepRow e.val ok submitsCh).when (s.live && s.inService e.val) (fun t => t.takeCh host e.val))

/-- A galley request with OP 0 (R364). -/
def execGalCompress (e : LeId) (ok : Bool) (s : State) : Host.Outcome State Fault Refusal := .next (s.stepRow e.val ok (submitsGal 0))

/-- A galley request with OP 1 (R364). -/
def execGalExpand (e : LeId) (ok : Bool) (s : State) : Host.Outcome State Fault Refusal := .next (s.stepRow e.val ok (submitsGal 1))

/-- A cipher request with OP 0 (R343). -/
def execCphSeal (e : LeId) (ok : Bool) (s : State) : Host.Outcome State Fault Refusal := .next (s.stepRow e.val ok (submitsCph 0))

/-- A cipher request with OP 1 (R343). -/
def execCphUnseal (e : LeId) (ok : Bool) (s : State) : Host.Outcome State Fault Refusal := .next (s.stepRow e.val ok (submitsCph 1))

/-- A cipher request with OP 2 (R342). -/
def execCphRawEncrypt (e : LeId) (ok : Bool) (s : State) : Host.Outcome State Fault Refusal := .next (s.stepRow e.val ok (submitsCph 2))

/-- A cipher request with OP 3 (R342). -/
def execCphRawDecrypt (e : LeId) (ok : Bool) (s : State) : Host.Outcome State Fault Refusal := .next (s.stepRow e.val ok (submitsCph 3))

/-- DONE: the engine freezes until its requests are taken and its stores acknowledged (R202). -/
def execDone (e : LeId) (ok : Bool) (s : State) : Host.Outcome State Fault Refusal := .next (s.stepRow e.val ok (onPort 0x70))

/-- IMMX n (R182). -/
def execImmx (e : LeId) (ok : Bool) (s : State) : Host.Outcome State Fault Refusal := .next (s.stepRow e.val ok (ctlRange 0x00 0x3F))

/-- REPEAT k (R190). -/
def execRepeatN (e : LeId) (ok : Bool) (s : State) : Host.Outcome State Fault Refusal := .next (s.stepRow e.val ok (ctlRange 0x40 0x4F))

/-- REPEAT G with its operand word (R190, R191). -/
def execRepeatG (e : LeId) (ok : Bool) (s : State) : Host.Outcome State Fault Refusal := .next (s.stepRow e.val ok (ctlRange 0x50 0x50))

/-- GATE (R211, R212, R381). -/
def execGate (e : LeId) (ok : Bool) (s : State) : Host.Outcome State Fault Refusal := .next (s.stepRow e.val ok (ctlRange 0x51 0x51))

/-- RETURN_GATE (R211). -/
def execReturnGate (e : LeId) (ok : Bool) (s : State) : Host.Outcome State Fault Refusal := .next (s.stepRow e.val ok (ctlRange 0x53 0x53))

/-- ENTRY (Table 6.4). -/
def execEntry (e : LeId) (ok : Bool) (s : State) : Host.Outcome State Fault Refusal := .next (s.stepRow e.val ok (ctlRange 0x52 0x52))

/-- NOP (Table 6.4). -/
def execNop (e : LeId) (ok : Bool) (s : State) : Host.Outcome State Fault Refusal := .next (s.stepRow e.val ok (ctlRange 0x7F 0x7F))

/-- BAR.ORDER (R183, R313). -/
def execBarOrder (e : LeId) (ok : Bool) (s : State) : Host.Outcome State Fault Refusal := .next (s.stepRow e.val ok (ctlRange 0x54 0x54))

/-- BAR.DONE (R183, R314). -/
def execBarDone (e : LeId) (ok : Bool) (s : State) : Host.Outcome State Fault Refusal := .next (s.stepRow e.val ok (ctlRange 0x55 0x55))

/-- WAIT_LONG (R183). -/
def execWaitLong (e : LeId) (ok : Bool) (s : State) : Host.Outcome State Fault Refusal := .next (s.stepRow e.val ok (ctlRange 0x56 0x56))

end Sys2Proof.Machine
end

