-- ==== Sys2Proof/Machine/EngEnd.lean ====
section
/-! DEFINITION. What ends or interrupts the work of an engine: long operations, traps, barriers, queue waits, the end of a program, retries, migrations, rewritten words (R177, R193, R202-R206, R226-R239, R248, R255, R313, R314). -/

namespace Sys2Proof.Machine

/-! ## Long operations (R217, R228-R232) -/

/-- What a long operation gives: outcome, LOU.OUT0 and LOU.OUT1, and the bits of window 0 it sets. -/
structure LongOut where
  outcome : Nat
  out0 : W64
  out1 : W64
  sets : Nat

/-- A failing operation other than the Tally's (R229). -/
def LongOut.fail (outcome sets : Nat) : LongOut := ⟨outcome, 0, BitVec.ofNat 64 outcome, sets⟩

/-- The Tally operation of code c on the current TID (Table 4.5, R82, R114, R119): the outcome. -/
def State.tallyOp (s : State) (e code : Nat) (a b : W64) : State × Nat :=
  let t := (s.le e).tid
  let i := tidIdx t
  let n := s.entry i
  if n.gen != tidGen t then (s, 1)
  else if code = 0x10 then
    if n.state == .opened then (s.setEntry i { n with state := .active, outPend := n.reqMask, engine := BitVec.ofNat 7 e }, 0) else (s, 2)
  else if code = 0x11 then
    if n.state == .active then
      (s.setEntry i { n with
        ckptPc := BitVec.ofNat 15 (bitsOf a.toNat 0 15), ckptSeq := BitVec.ofNat 16 (bitsOf a.toNat 16 16), ckptValid := true
        nextSeq := BitVec.ofNat 16 (bitsOf a.toNat 32 16), resent := b.setWidth 16 }, 0)
    else (s, 2)
  else if code = 0x12 then
    if n.state != .active then (s, 2)
    else if n.reqMask &&& ~~~ n.ackMask != 0 then (s, 3)
    else
      let r := s.commitWords (s.inLibrary e) i (a.setWidth 32) (b.setWidth 32)
      (s.commitEntry i r.1 r.2, 0)
  else if n.state.pre then
    let f := s.failWith e i (bitsOf a.toNat 0 8) (bitsOf b.toNat 0 32)
    (s.abortEntry i f.1 f.2 true, 0)
  else (s, 2)

/-- The Tally admits engine e's operation and records its outcome; one admitted before is answered from the record (R231). -/
def State.tallyAdmit (s : State) (e : Nat) (o : LongOp) : State × LastOp :=
  let t := (s.le e).tid
  let old := Sp.look s.tly.lastOps none e
  match (if o.admitted then old else none) with
  | some r => (s, r)
  | none =>
    let i := tidIdx t
    let r := s.tallyOp e o.code.toNat o.a o.b
    let st := if r.2 = 1 then 7 else (r.1.entry i).state.code
    let rec_ : LastOp := ⟨t, o.code, o.a, o.b, BitVec.ofNat 64 r.2, BitVec.ofNat 64 st⟩
    (r.1.setTly (fun y => { y with lastOps := Sp.put y.lastOps none e (some rec_) }), rec_)

/-- A read of n bytes at `a` meets poison, or a host that does not answer, whose sector the home delivers with poison (Table 10.4). -/
def State.engPoisoned (s : State) (h : HostIn) (e a n : Nat) : Bool :=
  (s.lateAt h (s.engFn e) (s.engSec e) (e / 8) a n).isSome || (upTo n).any (fun k => (s.engByte h e (a + k)).2)

/-- CRC32C (R228, R230). -/
def State.crcOp (s : State) (h : HostIn) (e : Nat) (a b : W64) : State × LongOut :=
  let n := bitsOf b.toNat 0 17
  let x := a.toNat
  if n = 0 || 65536 < n || bitsOf b.toNat 17 15 ≠ 0 then (s, LongOut.fail 4 0)
  else if !((upTo n).all (fun k => s.engByteOk e (x + k) false)) then (s, LongOut.fail 5 0)
  else
    let s1 := s.engFetch h e x n
    if s1.engPoisoned h e x n then (s1, LongOut.fail 6 0x200)
    else
      let bs := (upTo n).map (fun k => (s1.engByte h e (x + k)).1)
      (s1, ⟨0, (crc32cFrom (BitVec.ofNat 32 (bitsOf b.toNat 32 32)) bs).setWidth 64, 0, 0⟩)

/-- The offset at which BCMP stops: the first refused or differing byte. -/
def State.bcmpStop (s : State) (h : HostIn) (e x y n : Nat) : Option Nat :=
  (upTo n).find? (fun k => !(s.engByteOk e (x + k) false && s.engByteOk e (y + k) false) || (s.engByte h e (x + k)).1 != (s.engByte h e (y + k)).1)

/-- BCMP (R228, R230). -/
def State.bcmpOp (s : State) (h : HostIn) (e : Nat) (a b : W64) : State × LongOut :=
  let n := bitsOf b.toNat 48 16 + 1
  let x := a.toNat
  let y := bitsOf b.toNat 0 48
  let stop := s.bcmpStop h e x y n
  let len := match stop with | some k => k + 1 | none => n
  let refused : Bool := match stop with | some k => !(s.engByteOk e (x + k) false && s.engByteOk e (y + k) false) | none => false
  if refused then (s, LongOut.fail 5 0)
  else
    let s2 := (s.engFetch h e x len).engFetch h e y len
    if s2.engPoisoned h e x len || s2.engPoisoned h e y len then (s2, LongOut.fail 6 0x200)
    else match stop with
      | none => (s2, ⟨0, BitVec.ofNat 64 n, 0, 0⟩)
      | some k =>
        let p := (s2.engByte h e (x + k)).1.toNat
        let q := (s2.engByte h e (y + k)).1.toNat
        (s2, ⟨0, BitVec.ofNat 64 k, BitVec.ofNat 64 (fields [(16, 1), (8, p), (0, q)]), 0⟩)

/-- The code starts an operation: its dispatch entry is VALID and below 0xF0 (R228, R237). -/
def State.codeRuns (s : State) (o : LongOp) : Bool := !o.badArg && o.code.toNat < 0xF0 && s.eng.dispValid o.code.toNat

/-- A code of a Tally operation (Table 7.8). -/
def tallyCode (c : Nat) : Bool := 0x10 ≤ c && c ≤ 0x13

/-- The operation's result (Table 7.8). -/
def State.longResult (s : State) (h : HostIn) (e : Nat) (o : LongOp) : State × LongOut :=
  let c := o.code.toNat
  if !s.codeRuns o then (s, LongOut.fail 4 0)
  else if c = 1 then (s, ⟨0, (divu o.a o.b).1, (divu o.a o.b).2, 0⟩)
  else if c = 2 then (s, ⟨0, (divs o.a o.b).1, (divs o.a o.b).2, 0⟩)
  else if c < 7 then
    let r := fpLong c (fpRm o.fpctl) o.a o.b
    (s, ⟨0, BitVec.ofNat 64 r.val, 0, fpSticky r⟩)
  else if c = 7 then s.crcOp h e o.a o.b
  else if c = 8 then s.bcmpOp h e o.a o.b
  else if c = 9 then (s, ⟨0, BitVec.ofNat 64 (lowBit o.a.toNat), BitVec.ofNat 64 (highBit o.a.toNat), 0⟩)
  else if c = 10 then (s, ⟨0, BitVec.ofNat 64 (popc 64 o.a.toNat), 0, 0⟩)
  else
    let r := s.tallyAdmit e o
    (r.1, ⟨r.2.out.toNat, r.2.out, r.2.st, 0⟩)

/-- LOU.OUT0, LOU.OUT1, LDONE, LFAIL and sticky flags are written (R226, R229). -/
def Eng.longDone (x : Eng) (r : LongOut) : Eng :=
  let y : Eng := { x with lou := none, ports := { x.ports with lou0 := r.out0, lou1 := r.out1 } }
  ((y.unitBits r.sets r.sets).putBit 7 (r.outcome ≠ 0)).putBit 5 true

/-- The micro-registers after an operation hold what the unprinted microcode left in them (R233, log 9). -/
def Eng.microLeft (x : Eng) (draw : Nat) : Eng :=
  { x with
    uregs := (upTo 30).foldl (fun (t : Sp W64) (k : Nat) => Sp.put t 0 k (Config.microReg k draw)) x.uregs
    ucnt := (Config.microReg 32 draw).setWidth 16, uflags := (Config.microReg 33 draw).setWidth 4, ustack := [] }

/-- The micro-registers after microcode that the model has executed. -/
def Eng.microKept (x : Eng) (m : Mic) : Eng := { x with uregs := m.u, ucnt := m.cnt, uflags := m.flags, ustack := m.stack }

/-- What the sequencer reads (R230, R233). -/
def State.micEnv (s : State) (h : HostIn) (e : Nat) (o : LongOp) : MicEnv :=
  ⟨o, s.eng, fun a =>
    let bs := (upTo 8).map (fun k => s.engByte h e (a + k))
    (BitVec.ofNat 64 (leNat (bs.map (fun b => b.1))), bs.any (fun b => b.2))⟩

/-- The frame of the latest micro-trap, U30 and U31 (R238). -/
def Mic.frameOut (m : Mic) : LongOut := ⟨7, Sp.look m.u 0 30, Sp.look m.u 0 31, 0⟩

/-- What an operation gives that its microcode ends (R229, R235, R238, R239): DONE gives the operation's own result, for microcode never changes what an operation computes (R241, DEDUCED, log 9). -/
def State.microResult (s : State) (h : HostIn) (e : Nat) (o : LongOp) (m : Mic) (r : MicEnd) : State × LongOut :=
  match r with
  | .passed => (s, m.frameOut)
  | .ended k _ =>
    if k = 0 then s.longResult h e o
    else if k = 7 then (s, m.frameOut)
    else if tallyCode o.code.toNat then (s, ⟨k, BitVec.ofNat 64 k, BitVec.ofNat 64 (s.entry (tidIdx (s.le e).tid)).state.code, 0⟩)
    else (s, LongOut.fail k 0)

/-- A micro-trap was passed to the program, or its handler abandoned the operation (R239). -/
def MicEnd.trapped (r : MicEnd) : Bool :=
  match r with | .passed => true | .ended _ inHandler => inHandler

/-- The operation may read its bytes: no store of the engine to them waits (R310). -/
def Eng.longMayRead (x : Eng) (c : Nat) (o : LongOp) : Bool :=
  if o.code = 7 then (x.ownStore c o.a.toNat (bitsOf o.b.toNat 0 17)).isNone
  else if o.code = 8 then
    let n := bitsOf o.b.toNat 48 16 + 1
    (x.ownStore c o.a.toNat n).isNone && (x.ownStore c (bitsOf o.b.toNat 0 48) n).isNone
  else true

/-- A freeze of this cause lets the LOU run (R227). -/
def Eng.louRuns (x : Eng) : Bool := match x.freeze with | none => true | some f => f.1 = 3 || f.1 = 6

/-- The operation o of engine e has ended with r; one that a trap handler began and left is not shown (R203, R226). -/
def State.longEnds (s : State) (e : Nat) (o : LongOp) (r : LongOut) : State :=
  let t := s.updLe e (fun x => if o.hidden then { x with lou := none } else x.longDone r)
  if (t.le e).freeze.any (fun f => f.1 = 6) && o.held then t.thaw e else t

/-- The microcode of operation o is executed from where it stands (R235-R239): the result, the frame's pass to the program, and its log entry. -/
def State.runMicro (s : State) (h : HostIn) (e : Nat) (o : LongOp) (p : MicroAt) : State :=
  let m := Mic.outcome (s.micEnv h e o) p
  let r := s.microResult h e o m.1 m.2
  let t := (r.1.longEnds e o r.2).updLe e (fun x =>
    let y := x.microKept m.1
    match m.2 with
    | .passed => if o.hidden then y else { y with micro := some (r.2.out0, r.2.out1) }
    | .ended _ _ => y)
  if m.2.trapped then t.peReport (t.peOf e) 0x07 (Sp.look m.1.u 0 30).toNat else t

/-- LONG_OP_COMPLETE (R226-R239): the operation ends. `micro`: none where the microcode of its ROM runs to its end, else where the sequencer stands. While a freeze pauses the sequencer, only a Tally request already issued is answered (R227); while a patch word is being rewritten, nothing ends (R234). -/
def execLongOpComplete (e : LeId) (host : HostIn) (micro : Option MicroAt) (s : State) : Host.Outcome State Fault Refusal :=
  .next (s.when (s.live && s.inService e.val && (s.le e.val).running && (s.pe (s.peOf e.val)).louBad.isNone) (fun t => match (t.le e.val).lou with
    | none => t
    | some o =>
      if (t.le e.val).louRuns then
        if !(t.le e.val).longMayRead (e.val / 8) o then t
        else match (if t.codeRuns o then micro else none) with
          | some p => t.runMicro host e.val o p
          | none =>
            let r := t.longResult host e.val o
            ((r.1.longEnds e.val o r.2).updLe e.val (fun x => x.microLeft t.fresh)).drawn
      else if t.codeRuns o && tallyCode o.code.toNat && !o.admitted then
        (t.tallyAdmit e.val o).1.updLe e.val (fun x => { x with lou := some { o with admitted := true } })
      else t))

/-- A place of patch RAM (R233). -/
def microPatch : MicroPlace → Bool
  | .micro a => 0xC00 ≤ a.toNat
  | .nano a => 0x180 ≤ a.toNat

/-- The address or index of a place, as reports name it. -/
def microNumber : MicroPlace → Nat
  | .micro a => a.toNat
  | .nano a => a.toNat

/-- MICROWORD_REWRITE (R234): a single-bit nanoword error is corrected and logged; any other failing word of patch RAM pauses the LOU until it has been rewritten; a failure in the ROM, or a second one before the rewrite ends, is a lane fault. -/
def execMicrowordRewrite (e : LeId) (ev : MicroEvent) (s : State) : Host.Outcome State Fault Refusal :=
  .next (s.when (s.live && s.inService e.val && (s.le e.val).lou.isSome) (fun t =>
    let n := t.peOf e.val
    let bad := (t.pe n).louBad
    match ev with
    | .corrected a => t.peReport n 0x14 a.toNat
    | .fails place lane =>
      if !(microPatch place) || bad = some place then (t.updPe n (fun p => { p with louBad := none })).laneCheck e.val lane
      else if bad.isNone then t.updPe n (fun p => { p with louBad := some place }) else t
    | .rewritten place => if bad = some place then (t.updPe n (fun p => { p with louBad := none })).peReport n 0x12 (microNumber place) else t))

/-- PROGRAM_WORD_REWRITE (R177): the word at the program counter fails its check and the engine freezes, or the rewrite from the Deck copy ends and the word is fetched again; a second mismatch before that is a lane fault. -/
def execProgramWordRewrite (w : WordAt) (s : State) : Host.Outcome State Fault Refusal :=
  let e := w.engine
  .next (s.when (s.live && s.inService e.val && (s.le e.val).running) (fun t =>
    let c := e.val / 8
    let a := (t.le e.val).pc.toNat
    match w.ev with
    | .fails flip lane =>
      if t.progFails c a then t.laneCheck e.val lane
      else
        let t1 := t.updEngCl c (fun k => { k with badProg := Sp.put k.badProg 0 a flip })
        if t1.progFails c a then t1.freezeAt e.val 10 else t
    | .rewritten =>
      if t.progFails c a then
        let t1 := (t.updEngCl c (fun k => { k with badProg := Sp.put k.badProg 0 a 0 })).peReport (t.peOf e.val) 0x12 a
        if (t.le e.val).freeze.any (fun f => f.1 = 10) then t1.thaw e.val else t1
      else t))

/-! ## Traps (R203-R205) -/

/-- The addresses ERPC1 and ERPC2 of a trap at PC, and ERCNT (R203). -/
def State.trapResume (s : State) (e : Nat) : BitVec 15 × BitVec 15 × Nat :=
  let x := s.le e
  let dest := fun (p : Option Target) (d : BitVec 15) => match p with | some (.to a) => a | some .eret => x.trap.erpc1 | none => d
  let a1 := dest x.p0 (s.unitAfter x.pc)
  match x.rep with
  | some (n, _) => if 2 ≤ n then (x.pc, a1, n - 1) else (a1, dest x.p1 (s.unitAfter a1), 0)
  | none => (a1, dest x.p1 (s.unitAfter a1), 0)

/-- A trap that is not terminal: state saved, the handler at TRAPVEC (R203). `tcause`: that of an FP trap (R223). -/
def State.takeTrap (s : State) (e cause tcause : Nat) : State :=
  let r := s.trapResume e
  let s1 := (s.thaw e).peCount e 6 1
  s1.updLe e (fun x0 =>
    let x := x0.drained
    let y : Eng := { x with
      tsave := some ⟨x.lat, x.ports, x.bits.getLsbD 5, x.bits.getLsbD 7⟩
      trap := { x.trap with etpc := x.pc, erpc1 := r.1, erpc2 := r.2.1, ercnt := BitVec.ofNat 16 r.2.2, ecause := BitVec.ofNat 8 cause }
      fpctl := if cause = 4 then BitVec.ofNat 32 (putBits x.fpctl.toNat 12 3 tcause) else x.fpctl
      micro := if cause = 5 then none else x.micro
      pc := x.trap.vec, p0 := none, p1 := none, rep := none, mustEntry := false }
    y.putBit 26 true)

/-- The trap is terminal (R205). -/
def Eng.terminal (x : Eng) (cause : Nat) : Bool := cause = 1 || cause = 2 || x.trap.vec = 0 || x.bits.getLsbD 26

/-- TRAP_ENTRY (R203-R206): it waits, as a freeze of cause 3, for a long operation in flight, and for loads in flight; then the engine switches to the handler (cause 7). -/
def execTrapEntry (e : LeId) (s : State) : Host.Outcome State Fault Refusal :=
  let t := s.settleParity
  .next (if !t.mayStep e.val then t
  else
    let r := t.ready e.val
    match r.trapOf e.val with
    | none => t
    | some c =>
      let x := r.le e.val
      let w := r.wordAt e.val
      let fp := match x.fpResult w (r.srcRead e.val (srcOf w)) with | some o => fpCause x.fpctl o | none => 0
      let r1 := if c = 4 then r.freezeAt e.val 6 else r
      if x.terminal c then r1.terminalTrap e.val c
      else if x.lou.isSome then t.freezeAt e.val 3
      else if !x.openLoads.isEmpty then t.freezeAt e.val 1
      else (r1.takeTrap e.val c fp).freezeAt e.val 7)

/-! ## Barriers and the end of a program (R202, R266, R313-R315) -/

/-- An early-acknowledge region takes effect at a host address (R315, Tables 10.9, 10.10). -/
def State.earlyAck (s : State) (a : Nat) : Bool :=
  zoneOf 0 a == .host && (upTo 8).any (fun k =>
    let b := (Sp.look s.coh.eaBase 0 k).toNat
    let l := (Sp.look s.coh.eaLimit 0 k).toNat
    bitsOf b 63 1 = 1 && bitsOf b 16 32 ≤ a / 0x10000 && a / 0x10000 ≤ bitsOf l 16 32)

/-- Every earlier access of the engine is performed (R313). -/
def Eng.performed (x : Eng) : Bool := x.openLoads.isEmpty && !x.openStores

/-- Every earlier store of engine e is acknowledged or abandoned (R314). -/
def State.acked (s : State) (e : Nat) : Bool := (s.le e).stores.all (fun st => s.earlyAck st.addr)

/-- Requests of the engine not yet taken. -/
def Eng.untaken (x : Eng) : Bool := !x.chQ.isEmpty || !x.galQ.isEmpty || !x.cphQ.isEmpty

/-- A wait that began at `t` has lasted QWAIT (R193, R314). -/
def State.qwaited (s : State) (e t : Nat) : Bool := t + ms (s.engCl (e / 8)).qwait.toNat ≤ s.tick

/-- BARRIER_COMPLETE (R313, R314). -/
def execBarrierComplete (e : LeId) (s : State) : Host.Outcome State Fault Refusal :=
  .next (s.when (s.live && s.inService e.val && (s.le e.val).running) (fun t0 =>
    let t := (t0.takeGal e.val).takeCph e.val
    let x := t.le e.val
    match x.barrier with
    | none => t0
    | some (done, since) =>
      if !x.performed then t0
      else if !done then (t.updLe e.val (fun y => { y with barrier := none })).thaw e.val
      else if t.acked e.val && (!x.untaken || t.qwaited e.val since) then
        ((t.flushWriter e.val).updLe e.val (fun y =>
          let z : Eng := { y with barrier := none, barErr := false, stores := [] }
          let z1 := if y.barErr then z.putBit 6 true else z
          if y.untaken then z1.putBit 8 true else z1)).thaw e.val
      else t))

/-- When the wait of BAR.DONE or DONE for its stores began. -/
def Eng.ackSince (x : Eng) : Option Nat :=
  match x.doneAt with
  | some d => some d.2
  | none => match x.barrier with | some (true, t) => some t | _ => none

/-- ENDPOINT_TIMEOUT_EXPIRY: stores performed and not acknowledged in time are abandoned and logged (R314). -/
def execEndpointTimeoutExpiry (e : LeId) (s : State) : Host.Outcome State Fault Refusal :=
  .next (s.when (s.live && s.inService e.val && (s.le e.val).running) (fun t => match (t.le e.val).ackSince with
    | none => t
    | some t0 =>
      let dueNow := fun (st : Store) => st.performed && !t.earlyAck st.addr && max st.issued t0 + us t.coh.endpointTo.toNat ≤ t.tick
      ((t.le e.val).stores.filter dueNow).foldl (fun u st =>
        ((u.updLe e.val (fun x => { x with stores := x.stores.filter (fun z => z != st), barErr := true })).updPe (u.peOf e.val)
          (fun p => { p with barErrAddr := BitVec.ofNat 64 st.addr })).peReport (u.peOf e.val) 0x03 st.addr) t))

/-- Requests still untaken when QWAIT expires at DONE are withdrawn and logged (R202). -/
def State.withdrawRequests (s : State) (e : Nat) : State :=
  let x := s.le e
  let s0 := s.updLe e (fun y => ({ y with chQ := [], galQ := [], cphQ := [] } : Eng).putBit 8 true)
  let s1 := x.chQ.foldl (fun t _ => t.peReport (t.peOf e) 0x0A 1) s0
  let s2 := x.galQ.foldl (fun t _ => t.peReport (t.peOf e) 0x0A 2) s1
  x.cphQ.foldl (fun t _ => t.peReport (t.peOf e) 0x0A 3) s2

/-- The step whose queue wait has reached QWAIT completes: an EVQ read gives 0, a request is discarded, QTIMEOUT is set (R193). -/
def State.qwaitStep (s : State) (e : Nat) : State :=
  let r := s.ready e
  let x := r.le e
  let w := r.wordAt e
  let waits : Bool := (fromEvq w && x.evq.isEmpty) || x.rqFull w
  if (r.trapOf e).isSome then s.updLe e (fun y => y.putBit 8 true)
  else if waits then (r.updLe e (fun y => y.putBit 8 true)).compared e true (x.rqFull w)
  else s

/-- QWAIT_EXPIRY (R193, R202, R314). -/
def execQwaitExpiry (e : LeId) (s : State) : Host.Outcome State Fault Refusal :=
  .next (s.when (s.live && s.inService e.val && (s.le e.val).running) (fun t0 =>
    let t := (t0.takeGal e.val).takeCph e.val
    let x := t.le e.val
    match x.doneAt, x.barrier with
    | some d, _ => if x.untaken && t.qwaited e.val d.2 then t.withdrawRequests e.val else t
    | none, some (true, since) => if x.untaken && t.qwaited e.val since then t.updLe e.val (fun y => y.putBit 8 true) else t
    | none, some (false, _) => t
    | none, none => if t.mayStep e.val && t.qwaitOver e.val then t.qwaitStep e.val else t))

/-- The transaction is still OPEN or ACTIVE and the engine has had no LOST or ABORTED event: TL_FAIL and an F0 (R202). -/
def State.openAtDone (s : State) (e : Nat) (word : BitVec 15) : State :=
  let x := s.le e
  let i := tidIdx x.tid
  let st := (s.entry i).state
  if s.tidLive x.tid && (st == .opened || st == .active) && !x.ended then
    let s1 := s.peReport (s.peOf e) 0x09 word.toNat
    s1.failEntry i s1.lastIndex
  else s

/-- PROGRAM_END (R202, R266). -/
def execProgramEnd (e : LeId) (s : State) : Host.Outcome State Fault Refusal :=
  .next (s.when (s.live && s.inService e.val && (s.le e.val).running) (fun t0 =>
    let t := (t0.takeGal e.val).takeCph e.val
    let x := t.le e.val
    match x.doneAt with
    | none => t0
    | some d =>
      if x.performed && t.acked e.val && !x.untaken then
        (((t.flushWriter e.val).openAtDone e.val d.1).updLe e.val (fun y => { y with stores := [] })).goIdle e.val
      else t))

/-! ## Retries and migrations (R248, R255) -/

/-- The failed step can be executed and commit now: it neither waits nor traps (log 34). -/
def State.canStep (s : State) (e : Nat) : Bool := s.mayStep e && ((s.ready e).trapOf e).isNone && ((s.ready e).blocked e).isNone

/-- The failed step is executed, or left to its row where it waits or traps (log 34). -/
def State.stepAgain (s : State) (e : Nat) : State := if s.canStep e then (s.ready e).compared e true false else s

/-- LANE_RETRY (R248): the retry commits, or mismatches again until it is persistent. -/
def execLaneRetry (e : LeId) (ok : Bool) (s : State) : Host.Outcome State Fault Refusal :=
  let n := s.peOf e.val
  let p := s.pe n
  let frozen : Bool := (s.le e.val).freeze.any (fun f => f.1 = 8)
  .next (s.when (s.live && s.inService e.val && (s.le e.val).running && frozen && p.role == .active && p.testing.isNone && !p.migrating && !p.persistent)
    (fun t =>
      let t1 := t.peCount e.val 16 1
      if ok && !t.armed (uPe n) 0x10000 then
        let seq := t1.stepDue n
        let t2 := (t1.thaw e.val).updPe n (fun q => { q with retryNow := 0 })
        if t2.canStep e.val && !t2.armed (uPe n) 0x300 then
          (((t2.stepAgain e.val).peCount e.val 17 1).dupLog n 1 seq 0 false).peReport n 0x10 seq
        else t2.stepAgain e.val
      else
        let k := p.retryNow.toNat + 1
        let t2 := t1.updPe n (fun q => { q with retryNow := BitVec.ofNat 3 k })
        if (t.engCl (e.val / 8)).retryLimit.toNat ≤ k then
          (if t.armed (uPe n) 0x10000 then t2.fire (uPe n) else t2).persist n
        else t2))

/-- MIGRATION_COMPLETE (R255, R257): the spare is bound, and executes the failed step as its first. -/
def execMigrationComplete (e : LeId) (s : State) : Host.Outcome State Fault Refusal :=
  let n := s.peOf e.val
  .next (s.when (s.live && s.inService e.val && (s.pe n).migrating) (fun t => match t.spareOf (e.val / 8) with
    | none => t.noSpare n e.val
    | some m =>
      let t1 := (t.dupLogP n 5).updPe n (fun q => { q with migrating := false, logical := 128 })
      let t2 := ((t1.updPe m (fun q => { q with stepSeq := (t.le e.val).stepSeq })).takeSpare m e.val).thaw e.val
      if (t.le e.val).running then t2.stepAgain e.val else t2))

end Sys2Proof.Machine
end

