-- ==== Sys2Proof/Machine/Sideband.lean ====
section
/-! DEFINITION. The sideband buses that reach the module from outside: SMBus and JTAG (R465-R469). -/

namespace Sys2Proof.Machine

/-! ## SMBus (R465-R467) -/

/-- The 7-bit address of the target (R465). -/
def smbAddress : Nat := 0x58 + Config.smbStraps.toNat

/-- The target answers: reset is released and the module is powered (R465). -/
def State.smbusOn (s : State) : Bool := s.on

/-- A READ at this offset returns OK (R466). -/
def smbReadable (o : Nat) : Bool :=
  o % 8 = 0 &&
    ((0x200000 ≤ o && o < 0x280000) || o = 0 || o = 8 || o = 0x10 || o = 0x280000 || o = 0x280008 || o = 0x280018 || o = 0x280300 ||
      o = 0x280310 || o = 0x180000 || o = 0x180010)

/-- A command byte not acknowledged: a wrong PEC (R465). -/
def State.smbNack (s : State) (cmd : Nat) : State := s.emit (.smbus cmd [])

/-- SMB_POINTER (Table 17.3): bytes 2:0 are the offset. -/
def execSmbPointer (val : W32) (pecOk : Bool) (s : State) : Host.Outcome State Fault Refusal :=
  .next (s.when s.smbusOn (fun t =>
    if pecOk then t.setFlt (fun f => { f with smbPtr := BitVec.ofNat 32 (bitsOf val.toNat 0 24) }) else t.smbNack 0x10))

/-- The status and value that READ returns (R466). -/
def State.smbAnswer (s : State) : Nat × W64 :=
  let o := s.flt.smbPtr.toNat
  if smbReadable o then (stOk, s.regRead false 0 o true) else (stNotPermitted, 0)

/-- SMB_READ (R466): status, value, and the pointer advances by 8. -/
def execSmbRead (pecOk : Bool) (s : State) : Host.Outcome State Fault Refusal :=
  .next (s.when s.smbusOn (fun t =>
    if pecOk then
      let a := t.smbAnswer
      (t.emit (.smbus 0x11 (leBytes a.1 1 ++ leBytes a.2.toNat 8))).setFlt (fun f =>
        { f with smbPtr := BitVec.ofNat 32 (bitsOf (f.smbPtr.toNat + 8) 0 24) })
    else t.smbNack 0x11))

/-- SMB_WRITE (R466): FLT_BLAZE_CLASS as a PF write; anywhere else ignored and logged. -/
def execSmbWrite (val : W64) (pecOk : Bool) (s : State) : Host.Outcome State Fault Refusal :=
  .next (s.when s.smbusOn (fun t =>
    if !pecOk then t.smbNack 0x12
    else if t.flt.smbPtr = 0x240040 then (if val.getLsbD 31 then t.clearBlaze else t)
    else t.rep0 uMp 0x02 t.flt.smbPtr.toNat))

/-- ALERT_RESPONSE (R467): answered with the target's own address while SMB_ALERT_N is asserted; the alert stays. -/
def execAlertResponse (s : State) : Host.Outcome State Fault Refusal :=
  .next (s.when (s.smbusOn && s.flt.alert) (fun t => t.emit (.smbus 0x0C (leBytes smbAddress 1))))

/-- SMBUS_TIMEOUT (R465): the transfer is abandoned before its command has had any effect. -/
def execSmbusTimeout (s : State) : Host.Outcome State Fault Refusal := .next s

/-! ## JTAG (R469) -/

/-- The instruction is available in the lifecycle state (Table 13.4). -/
def jtagOk (l : Lc) (i : JtagIns) : Bool :=
  match i with
  | .bypass => true
  | .idcode => true
  | .secureData => l == .manufacture || l == .provision
  | _ => l == .manufacture || l == .provision || l == .service

/-- IDCODE (R469). -/
def idcode : Nat := fields [(28, bitsOf Config.siliconRevision.toNat 0 4), (12, 0x9256), (0, 0xA6B)]

/-- The model's code of an instruction, as the instruction register holds it (log 20). -/
def JtagIns.code : JtagIns → Byte
  | .bypass => 0xFF
  | .idcode => 0
  | .boundary => 1
  | .secureData => 2
  | .other c => c

/-- JTAG_INSTRUCTION (R469), in a module held in reset too (Table 17.4): the data register it selects; the contents of the boundary-scan and test data registers are free values. -/
def execJtagInstruction (i : JtagIns) (s : State) : Host.Outcome State Fault Refusal :=
  .next (s.when ((s.on || s.start.held.isSome) && jtagOk s.deck.lc i) (fun t =>
    let v : W64 := match i with
      | .bypass => 0
      | .idcode => BitVec.ofNat 64 idcode
      | _ => Config.boundaryScan t.fresh
    ({ t with fresh := t.fresh + 1 }.setFlt (fun f => { f with jtag := JtagIns.code i })).emit (.jtag v)))

end Sys2Proof.Machine
end

