-- ==== Sys2Proof/Machine/Dispatch.lean ====
section
/-! DEFINITION. The effect of each command on everything but the queue: one arm per command. -/

namespace Sys2Proof.Machine

def exec (i : Instr) (s : State) : Host.Outcome State Fault Refusal :=
  match i with
  | .registerWrite via off wide val => Sys2Proof.Machine.execRegisterWrite via off wide val s
  | .emptyOffsetAccess via off isWrite => Sys2Proof.Machine.execEmptyOffsetAccess via off isWrite s
  | .refclkLoss p => Sys2Proof.Machine.execRefclkLoss p s
  | .refclkReturn p => Sys2Proof.Machine.execRefclkReturn p s
  | .portTrainingEnd p cxl speed width => Sys2Proof.Machine.execPortTrainingEnd p cxl speed width s
  | .configRequest r => Sys2Proof.Machine.execConfigRequest r s
  | .doeDiscovery p index => Sys2Proof.Machine.execDoeDiscovery p index s
  | .doeUnsupportedObject p vendor type => Sys2Proof.Machine.execDoeUnsupportedObject p vendor type s
  | .cdatTableAccess p entry => Sys2Proof.Machine.execCdatTableAccess p entry s
  | .ideKeyManagement p session stream sub key => Sys2Proof.Machine.execIdeKeyManagement p session stream sub key s
  | .getVersion p => Sys2Proof.Machine.execGetVersion p s
  | .getCapabilities p => Sys2Proof.Machine.execGetCapabilities p s
  | .negotiateAlgorithms p hash asym dhe aead => Sys2Proof.Machine.execNegotiateAlgorithms p hash asym dhe aead s
  | .getDigests p => Sys2Proof.Machine.execGetDigests p s
  | .getCertificate p slot off len => Sys2Proof.Machine.execGetCertificate p slot off len s
  | .challenge p slot nonce => Sys2Proof.Machine.execChallenge p slot nonce s
  | .getMeasurements p index => Sys2Proof.Machine.execGetMeasurements p index s
  | .keyExchange p slot exchange => Sys2Proof.Machine.execKeyExchange p slot exchange s
  | .finish p session verify => Sys2Proof.Machine.execFinish p session verify s
  | .heartbeat p session => Sys2Proof.Machine.execHeartbeat p session s
  | .keyUpdate p session => Sys2Proof.Machine.execKeyUpdate p session s
  | .endSession p session => Sys2Proof.Machine.execEndSession p session s
  | .vfEnableWrite p enable numVfs => Sys2Proof.Machine.execVfEnableWrite p enable numVfs s
  | .functionLevelReset p v => Sys2Proof.Machine.execFunctionLevelReset p v s
  | .flrComplete v => Sys2Proof.Machine.execFlrComplete v s
  | .queueEnable via q val => Sys2Proof.Machine.execQueueEnable via q val s
  | .queueDisable via q val => Sys2Proof.Machine.execQueueDisable via q val s
  | .queueDrained f q => Sys2Proof.Machine.execQueueDrained f q s
  | .sqTailDoorbell via q val => Sys2Proof.Machine.execSqTailDoorbell via q val s
  | .cqHeadDoorbell via q val => Sys2Proof.Machine.execCqHeadDoorbell via q val s
  | .commandFetch pkt poison => Sys2Proof.Machine.execCommandFetch pkt poison s
  | .completionPost f q => Sys2Proof.Machine.execCompletionPost f q s
  | .coalesceDelayExpiry f q => Sys2Proof.Machine.execCoalesceDelayExpiry f q s
  | .msixVectorUnmask p f vec => Sys2Proof.Machine.execMsixVectorUnmask p f vec s
  | .portLoss p cause => Sys2Proof.Machine.execPortLoss p cause s
  | .portUp p => Sys2Proof.Machine.execPortUp p s
  | .viralReceived p => Sys2Proof.Machine.execViralReceived p s
  | .cxlMemRead p addr => Sys2Proof.Machine.execCxlMemRead p addr s
  | .cxlMemWrite p addr mask data poison => Sys2Proof.Machine.execCxlMemWrite p addr mask data poison s
  | .identify h => Sys2Proof.Machine.execIdentify h s
  | .getLog h => Sys2Proof.Machine.execGetLog h s
  | .setQuota h => Sys2Proof.Machine.execSetQuota h s
  | .setExpert h => Sys2Proof.Machine.execSetExpert h s
  | .write h => Sys2Proof.Machine.execWrite h s
  | .read h => Sys2Proof.Machine.execRead h s
  | .mirrorWrite h => Sys2Proof.Machine.execMirrorWrite h s
  | .send h => Sys2Proof.Machine.execSend h s
  | .exchange h => Sys2Proof.Machine.execExchange h s
  | .run h => Sys2Proof.Machine.execRun h s
  | .abort h => Sys2Proof.Machine.execAbort h s
  | .resume h => Sys2Proof.Machine.execResume h s
  | .query h => Sys2Proof.Machine.execQuery h s
  | .compress h => Sys2Proof.Machine.execCompress h s
  | .expand h => Sys2Proof.Machine.execExpand h s
  | .seal h => Sys2Proof.Machine.execSeal h s
  | .unseal h => Sys2Proof.Machine.execUnseal h s
  | .keyLoad h host => Sys2Proof.Machine.execKeyLoad h host s
  | .keyErase h => Sys2Proof.Machine.execKeyErase h s
  | .imageLoad h host => Sys2Proof.Machine.execImageLoad h host s
  | .imageBind h => Sys2Proof.Machine.execImageBind h s
  | .imageInfo h => Sys2Proof.Machine.execImageInfo h s
  | .powerStatus h => Sys2Proof.Machine.execPowerStatus h s
  | .setEnvelope h => Sys2Proof.Machine.execSetEnvelope h s
  | .bankState h => Sys2Proof.Machine.execBankState h s
  | .faultRead h => Sys2Proof.Machine.execFaultRead h s
  | .faultMode h => Sys2Proof.Machine.execFaultMode h s
  | .inject h => Sys2Proof.Machine.execInject h s
  | .selftest h => Sys2Proof.Machine.execSelftest h s
  | .gatewayCall h => Sys2Proof.Machine.execGatewayCall h s
  | .handover h => Sys2Proof.Machine.execHandover h s
  | .measureGet h => Sys2Proof.Machine.execMeasureGet h s
  | .groupCreate h => Sys2Proof.Machine.execGroupCreate h s
  | .groupDelete h => Sys2Proof.Machine.execGroupDelete h s
  | .groupAssign h => Sys2Proof.Machine.execGroupAssign h s
  | .linkStatus h => Sys2Proof.Machine.execLinkStatus h s
  | .serviceOpcode h op => Sys2Proof.Machine.execServiceOpcode h op s
  | .entryAllocate h => Sys2Proof.Machine.execEntryAllocate h s
  | .reuseHoldExpiry ix => Sys2Proof.Machine.execReuseHoldExpiry ix s
  | .checkpointGuardExpiry => Sys2Proof.Machine.execCheckpointGuardExpiry s
  | .abortNoteDelayExpiry ix => Sys2Proof.Machine.execAbortNoteDelayExpiry ix s
  | .noteWritten ix => Sys2Proof.Machine.execNoteWritten ix s
  | .checkpointStart => Sys2Proof.Machine.execCheckpointStart s
  | .checkpointComplete => Sys2Proof.Machine.execCheckpointComplete s
  | .resolveWaitExpiry tid => Sys2Proof.Machine.execResolveWaitExpiry tid s
  | .doubtTableClose => Sys2Proof.Machine.execDoubtTableClose s
  | .tlyRlogNext p val => Sys2Proof.Machine.execTlyRlogNext p val s
  | .linkEnable p l val => Sys2Proof.Machine.execLinkEnable p l val s
  | .linkDisable p l val => Sys2Proof.Machine.execLinkDisable p l val s
  | .trainingComplete l => Sys2Proof.Machine.execTrainingComplete l s
  | .trainingLimitExpiry l => Sys2Proof.Machine.execTrainingLimitExpiry l s
  | .probingLimitExpiry l => Sys2Proof.Machine.execProbingLimitExpiry l s
  | .probeInterval l => Sys2Proof.Machine.execProbeInterval l s
  | .downHoldExpiry l => Sys2Proof.Machine.execDownHoldExpiry l s
  | .lockLoss l => Sys2Proof.Machine.execLockLoss l s
  | .linkSilenceExpiry l => Sys2Proof.Machine.execLinkSilenceExpiry l s
  | .lrefLoss c => Sys2Proof.Machine.execLrefLoss c s
  | .lrefReturn c => Sys2Proof.Machine.execLrefReturn c s
  | .dataFrame l f => Sys2Proof.Machine.execDataFrame l f s
  | .ackFrame l f => Sys2Proof.Machine.execAckFrame l f s
  | .nakFrame l f => Sys2Proof.Machine.execNakFrame l f s
  | .creditFrame l f => Sys2Proof.Machine.execCreditFrame l f s
  | .idleFrame l f => Sys2Proof.Machine.execIdleFrame l f s
  | .probeFrame l f => Sys2Proof.Machine.execProbeFrame l f s
  | .queryFrame l f => Sys2Proof.Machine.execQueryFrame l f s
  | .idleInterval => Sys2Proof.Machine.execIdleInterval s
  | .creditReportTimer l => Sys2Proof.Machine.execCreditReportTimer l s
  | .replayTimeout l => Sys2Proof.Machine.execReplayTimeout l s
  | .frameTransmit l ctrl => Sys2Proof.Machine.execFrameTransmit l ctrl s
  | .ackTimeout ix g => Sys2Proof.Machine.execAckTimeout ix g s
  | .busyRetryExpiry ix g => Sys2Proof.Machine.execBusyRetryExpiry ix g s
  | .outcomeResend tid g => Sys2Proof.Machine.execOutcomeResend tid g s
  | .queryResend tid g => Sys2Proof.Machine.execQueryResend tid g s
  | .frameLifeExpiry ix g => Sys2Proof.Machine.execFrameLifeExpiry ix g s
  | .chCntClear p l val => Sys2Proof.Machine.execChCntClear p l val s
  | .dispatch ix e => Sys2Proof.Machine.execDispatch ix e s
  | .move e ok => Sys2Proof.Machine.execMove e ok s
  | .evqRead e ok => Sys2Proof.Machine.execEvqRead e ok s
  | .aluAdd e ok => Sys2Proof.Machine.execAluAdd e ok s
  | .aluSub e ok => Sys2Proof.Machine.execAluSub e ok s
  | .aluAnd e ok => Sys2Proof.Machine.execAluAnd e ok s
  | .aluOr e ok => Sys2Proof.Machine.execAluOr e ok s
  | .aluXor e ok => Sys2Proof.Machine.execAluXor e ok s
  | .aluAndn e ok => Sys2Proof.Machine.execAluAndn e ok s
  | .aluShl e ok => Sys2Proof.Machine.execAluShl e ok s
  | .aluShr e ok => Sys2Proof.Machine.execAluShr e ok s
  | .aluSar e ok => Sys2Proof.Machine.execAluSar e ok s
  | .aluRol e ok => Sys2Proof.Machine.execAluRol e ok s
  | .aluEq e ok => Sys2Proof.Machine.execAluEq e ok s
  | .aluLt e ok => Sys2Proof.Machine.execAluLt e ok s
  | .aluLtu e ok => Sys2Proof.Machine.execAluLtu e ok s
  | .aluAddc e ok => Sys2Proof.Machine.execAluAddc e ok s
  | .aluSubb e ok => Sys2Proof.Machine.execAluSubb e ok s
  | .mulLo e ok => Sys2Proof.Machine.execMulLo e ok s
  | .mulHiu e ok => Sys2Proof.Machine.execMulHiu e ok s
  | .mulHis e ok => Sys2Proof.Machine.execMulHis e ok s
  | .faddD e ok => Sys2Proof.Machine.execFaddD e ok s
  | .fsubD e ok => Sys2Proof.Machine.execFsubD e ok s
  | .faddS e ok => Sys2Proof.Machine.execFaddS e ok s
  | .fsubS e ok => Sys2Proof.Machine.execFsubS e ok s
  | .fmulD e ok => Sys2Proof.Machine.execFmulD e ok s
  | .fmulS e ok => Sys2Proof.Machine.execFmulS e ok s
  | .fcmpD e ok => Sys2Proof.Machine.execFcmpD e ok s
  | .fcmpS e ok => Sys2Proof.Machine.execFcmpS e ok s
  | .fcvt e ok => Sys2Proof.Machine.execFcvt e ok s
  | .ld8 e ok => Sys2Proof.Machine.execLd8 e ok s
  | .ld16 e ok => Sys2Proof.Machine.execLd16 e ok s
  | .ld32 e ok => Sys2Proof.Machine.execLd32 e ok s
  | .ld64 e ok => Sys2Proof.Machine.execLd64 e ok s
  | .st8 e ok => Sys2Proof.Machine.execSt8 e ok s
  | .st16 e ok => Sys2Proof.Machine.execSt16 e ok s
  | .st32 e ok => Sys2Proof.Machine.execSt32 e ok s
  | .st64 e ok => Sys2Proof.Machine.execSt64 e ok s
  | .divu e ok => Sys2Proof.Machine.execDivu e ok s
  | .divs e ok => Sys2Proof.Machine.execDivs e ok s
  | .fdivD e ok => Sys2Proof.Machine.execFdivD e ok s
  | .fdivS e ok => Sys2Proof.Machine.execFdivS e ok s
  | .fsqrtD e ok => Sys2Proof.Machine.execFsqrtD e ok s
  | .fsqrtS e ok => Sys2Proof.Machine.execFsqrtS e ok s
  | .crc32c e ok => Sys2Proof.Machine.execCrc32c e ok s
  | .bcmp e ok => Sys2Proof.Machine.execBcmp e ok s
  | .bscan e ok => Sys2Proof.Machine.execBscan e ok s
  | .popcnt e ok => Sys2Proof.Machine.execPopcnt e ok s
  | .louBadarg e ok => Sys2Proof.Machine.execLouBadarg e ok s
  | .tlActivate e ok => Sys2Proof.Machine.execTlActivate e ok s
  | .tlMark e ok => Sys2Proof.Machine.execTlMark e ok s
  | .tlCommit e ok => Sys2Proof.Machine.execTlCommit e ok s
  | .tlFail e ok => Sys2Proof.Machine.execTlFail e ok s
  | .longOpComplete e host micro => Sys2Proof.Machine.execLongOpComplete e host micro s
  | .microwordRewrite e ev => Sys2Proof.Machine.execMicrowordRewrite e ev s
  | .brIf e ok => Sys2Proof.Machine.execBrIf e ok s
  | .brJump e ok => Sys2Proof.Machine.execBrJump e ok s
  | .brCall e ok => Sys2Proof.Machine.execBrCall e ok s
  | .brEret e ok => Sys2Proof.Machine.execBrEret e ok s
  | .rqCh e ok host => Sys2Proof.Machine.execRqCh e ok host s
  | .galCompress e ok => Sys2Proof.Machine.execGalCompress e ok s
  | .galExpand e ok => Sys2Proof.Machine.execGalExpand e ok s
  | .cphSeal e ok => Sys2Proof.Machine.execCphSeal e ok s
  | .cphUnseal e ok => Sys2Proof.Machine.execCphUnseal e ok s
  | .cphRawEncrypt e ok => Sys2Proof.Machine.execCphRawEncrypt e ok s
  | .cphRawDecrypt e ok => Sys2Proof.Machine.execCphRawDecrypt e ok s
  | .qwaitExpiry e => Sys2Proof.Machine.execQwaitExpiry e s
  | .done e ok => Sys2Proof.Machine.execDone e ok s
  | .programEnd e => Sys2Proof.Machine.execProgramEnd e s
  | .immx e ok => Sys2Proof.Machine.execImmx e ok s
  | .repeatN e ok => Sys2Proof.Machine.execRepeatN e ok s
  | .repeatG e ok => Sys2Proof.Machine.execRepeatG e ok s
  | .gate e ok => Sys2Proof.Machine.execGate e ok s
  | .returnGate e ok => Sys2Proof.Machine.execReturnGate e ok s
  | .entry e ok => Sys2Proof.Machine.execEntry e ok s
  | .nop e ok => Sys2Proof.Machine.execNop e ok s
  | .barOrder e ok => Sys2Proof.Machine.execBarOrder e ok s
  | .barDone e ok => Sys2Proof.Machine.execBarDone e ok s
  | .barrierComplete e => Sys2Proof.Machine.execBarrierComplete e s
  | .endpointTimeoutExpiry e => Sys2Proof.Machine.execEndpointTimeoutExpiry e s
  | .waitLong e ok => Sys2Proof.Machine.execWaitLong e ok s
  | .trapEntry e => Sys2Proof.Machine.execTrapEntry e s
  | .programWordRewrite w => Sys2Proof.Machine.execProgramWordRewrite w s
  | .engCntClear p pe val => Sys2Proof.Machine.execEngCntClear p pe val s
  | .laneRetry e ok => Sys2Proof.Machine.execLaneRetry e ok s
  | .refereeDecision e checkA checkB ref => Sys2Proof.Machine.execRefereeDecision e checkA checkB ref s
  | .laneTestComplete pe result => Sys2Proof.Machine.execLaneTestComplete pe result s
  | .laneResyncComplete pe => Sys2Proof.Machine.execLaneResyncComplete pe s
  | .migrationComplete e => Sys2Proof.Machine.execMigrationComplete e s
  | .transportAccept e queue copy => Sys2Proof.Machine.execTransportAccept e queue copy s
  | .rdS r a => Sys2Proof.Machine.execRdS r a s
  | .rdX r a => Sys2Proof.Machine.execRdX r a s
  | .upg r a => Sys2Proof.Machine.execUpg r a s
  | .rdNc r a => Sys2Proof.Machine.execRdNc r a s
  | .wrInv r a => Sys2Proof.Machine.execWrInv r a s
  | .ticketActivate h r => Sys2Proof.Machine.execTicketActivate h r s
  | .snpS c a => Sys2Proof.Machine.execSnpS c a s
  | .snpX c a => Sys2Proof.Machine.execSnpX c a s
  | .snpInv c a => Sys2Proof.Machine.execSnpInv c a s
  | .snpCur c a => Sys2Proof.Machine.execSnpCur c a s
  | .rsp c a => Sys2Proof.Machine.execRsp c a s
  | .grant r a => Sys2Proof.Machine.execGrant r a s
  | .retry r a => Sys2Proof.Machine.execRetry r a s
  | .grantAck r a => Sys2Proof.Machine.execGrantAck r a s
  | .data r a => Sys2Proof.Machine.execData r a s
  | .evData c a => Sys2Proof.Machine.execEvData c a s
  | .evAck c a => Sys2Proof.Machine.execEvAck c a s
  | .hostSnoop p k addr => Sys2Proof.Machine.execHostSnoop p k addr s
  | .hostReadResponse p a data poison => Sys2Proof.Machine.execHostReadResponse p a data poison s
  | .hostWriteCompletion p a => Sys2Proof.Machine.execHostWriteCompletion p a s
  | .homeTimeout a => Sys2Proof.Machine.execHomeTimeout a s
  | .clean w c expert => Sys2Proof.Machine.execClean w c expert s
  | .invalidate w c expert => Sys2Proof.Machine.execInvalidate w c expert s
  | .discard w c expert => Sys2Proof.Machine.execDiscard w c expert s
  | .maintComplete c => Sys2Proof.Machine.execMaintComplete c s
  | .l1Disable w c slot => Sys2Proof.Machine.execL1Disable w c slot s
  | .l1Enable w c slot => Sys2Proof.Machine.execL1Enable w c slot s
  | .l2Disable w c => Sys2Proof.Machine.execL2Disable w c s
  | .l2Enable w c => Sys2Proof.Machine.execL2Enable w c s
  | .flushComplete c slot => Sys2Proof.Machine.execFlushComplete c slot s
  | .memCntClear w c val => Sys2Proof.Machine.execMemCntClear w c val s
  | .bankWake c b => Sys2Proof.Machine.execBankWake c b s
  | .bankStateComplete c b => Sys2Proof.Machine.execBankStateComplete c b s
  | .patrolScrub r => Sys2Proof.Machine.execPatrolScrub r s
  | .lndCntClear w val => Sys2Proof.Machine.execLndCntClear w val s
  | .cohCntClear w h val => Sys2Proof.Machine.execCohCntClear w h val s
  | .keyCapture g => Sys2Proof.Machine.execKeyCapture g s
  | .cipherOperationEnd g host => Sys2Proof.Machine.execCipherOperationEnd g host s
  | .cipherScrubComplete g => Sys2Proof.Machine.execCipherScrubComplete g s
  | .cphCntClear w val => Sys2Proof.Machine.execCphCntClear w val s
  | .coderOperationStart c => Sys2Proof.Machine.execCoderOperationStart c s
  | .galleyConfirmation c block agrees => Sys2Proof.Machine.execGalleyConfirmation c block agrees s
  | .coderOperationEnd c host => Sys2Proof.Machine.execCoderOperationEnd c host s
  | .galleyScrubComplete c => Sys2Proof.Machine.execGalleyScrubComplete c s
  | .galCntClear w val => Sys2Proof.Machine.execGalCntClear w val s
  | .hoGive d => Sys2Proof.Machine.execHoGive d s
  | .hoRefuse d => Sys2Proof.Machine.execHoRefuse d s
  | .hoWant d => Sys2Proof.Machine.execHoWant d s
  | .hoWaitExpiry d => Sys2Proof.Machine.execHoWaitExpiry d s
  | .handoverReset d => Sys2Proof.Machine.execHandoverReset d s
  | .wdogKick => Sys2Proof.Machine.execWdogKick s
  | .secureWatchdogExpiry => Sys2Proof.Machine.execSecureWatchdogExpiry s
  | .secRestart val => Sys2Proof.Machine.execSecRestart val s
  | .loneRestartComplete ok => Sys2Proof.Machine.execLoneRestartComplete ok s
  | .lcCmd p target => Sys2Proof.Machine.execLcCmd p target s
  | .ownerKeyWrite p key => Sys2Proof.Machine.execOwnerKeyWrite p key s
  | .measExt last => Sys2Proof.Machine.execMeasExt last s
  | .debugWrite p val => Sys2Proof.Machine.execDebugWrite p val s
  | .faultReport rs => Sys2Proof.Machine.execFaultReport rs s
  | .quietPeriodExpiry c => Sys2Proof.Machine.execQuietPeriodExpiry c s
  | .blazeClear p val => Sys2Proof.Machine.execBlazeClear p val s
  | .aliveToggle => Sys2Proof.Machine.execAliveToggle s
  | .mpWatchdogKick => Sys2Proof.Machine.execMpWatchdogKick s
  | .mpWatchdogExpiry => Sys2Proof.Machine.execMpWatchdogExpiry s
  | .mpLockstepMismatch => Sys2Proof.Machine.execMpLockstepMismatch s
  | .mpRestartComplete => Sys2Proof.Machine.execMpRestartComplete s
  | .injectTimeout unit => Sys2Proof.Machine.execInjectTimeout unit s
  | .injGo val => Sys2Proof.Machine.execInjGo val s
  | .bankTestStart c => Sys2Proof.Machine.execBankTestStart c s
  | .spareEngineTestStart c => Sys2Proof.Machine.execSpareEngineTestStart c s
  | .bankTestPhaseEnd c pass => Sys2Proof.Machine.execBankTestPhaseEnd c pass s
  | .spareEngineTestEnd c pass => Sys2Proof.Machine.execSpareEngineTestEnd c pass s
  | .selftestComplete unit pass => Sys2Proof.Machine.execSelftestComplete unit pass s
  | .powerGrantRequest cls amps who => Sys2Proof.Machine.execPowerGrantRequest cls amps who s
  | .powerGrantRelease cls who => Sys2Proof.Machine.execPowerGrantRelease cls who s
  | .poolUpdate d ix => Sys2Proof.Machine.execPoolUpdate d ix s
  | .paceRead ps => Sys2Proof.Machine.execPaceRead ps s
  | .paceAdjust => Sys2Proof.Machine.execPaceAdjust s
  | .vrmPoll vout iout status => Sys2Proof.Machine.execVrmPoll vout iout status s
  | .vrmTransferFail => Sys2Proof.Machine.execVrmTransferFail s
  | .thermalSample temps => Sys2Proof.Machine.execThermalSample temps s
  | .sagStopNvCrossing mv => Sys2Proof.Machine.execSagStopNvCrossing mv s
  | .nvStopEnd mv => Sys2Proof.Machine.execNvStopEnd mv s
  | .sagSkidCrossing mv vhold => Sys2Proof.Machine.execSagSkidCrossing mv vhold s
  | .skidImageWritten => Sys2Proof.Machine.execSkidImageWritten s
  | .supplyReturn mv => Sys2Proof.Machine.execSupplyReturn mv s
  | .railUndervoltage r vhold => Sys2Proof.Machine.execRailUndervoltage r vhold s
  | .holdCheckStart vhold => Sys2Proof.Machine.execHoldCheckStart vhold s
  | .holdCheckGo p val vhold => Sys2Proof.Machine.execHoldCheckGo p val vhold s
  | .holdCheckComplete vhold => Sys2Proof.Machine.execHoldCheckComplete vhold s
  | .holdStatusUpdate vhold => Sys2Proof.Machine.execHoldStatusUpdate vhold s
  | .holdCapWrite p val => Sys2Proof.Machine.execHoldCapWrite p val s
  | .pwrCntClear w val => Sys2Proof.Machine.execPwrCntClear w val s
  | .powerOnReset => Sys2Proof.Machine.execPowerOnReset s
  | .startUpPhaseEnd ph f => Sys2Proof.Machine.execStartUpPhaseEnd ph f s
  | .warmReset p val => Sys2Proof.Machine.execWarmReset p val s
  | .perstAssert p => Sys2Proof.Machine.execPerstAssert p s
  | .perstDeassert p => Sys2Proof.Machine.execPerstDeassert p s
  | .quiesce p val => Sys2Proof.Machine.execQuiesce p val s
  | .quiesceDrained => Sys2Proof.Machine.execQuiesceDrained s
  | .configRecordWrite => Sys2Proof.Machine.execConfigRecordWrite s
  | .smbPointer val pecOk => Sys2Proof.Machine.execSmbPointer val pecOk s
  | .smbRead pecOk => Sys2Proof.Machine.execSmbRead pecOk s
  | .smbWrite val pecOk => Sys2Proof.Machine.execSmbWrite val pecOk s
  | .alertResponse => Sys2Proof.Machine.execAlertResponse s
  | .smbusTimeout => Sys2Proof.Machine.execSmbusTimeout s
  | .jtagInstruction ix => Sys2Proof.Machine.execJtagInstruction ix s
  | .framingError l framed ev => Sys2Proof.Machine.execFramingError l framed ev s
  | .holdUpStoreExhausted => Sys2Proof.Machine.execHoldUpStoreExhausted s
  | .imageLoadComplete => Sys2Proof.Machine.execImageLoadComplete s

end Sys2Proof.Machine
end

