-- ==== Sys2Proof/Safety.lean ====
section
/-! DEFINITION. What counts as a safe run of the block, and the terms the statements use: what no command may undo, the invariant that every step keeps, and a step of an engine as it begins and as it ends. -/

namespace Sys2Proof.Machine

/-- What no command may undo from `s` to `t`: the queue of waiting commands is not touched by an effect, the memory of the Landing and the scratch banks keeps its canonical form, the END fuse stays blown once it is blown (R389), and what has left the module is not taken back (log 5). -/
structure Kept (s t : State) : Prop where
  queue : t.pending = s.pending
  memory : Memory.wf s.bytes = true → Memory.wf t.bytes = true
  fuse : s.deck.fuse = true → t.deck.fuse = true
  sent : s.out <+: t.out

/-- The invariant of the model: the memory has its canonical form, and every waiting command is well formed. -/
def Inv (s : State) : Prop := Memory.wf s.bytes = true ∧ s.pending.all Instr.wellFormed = true

/-- An outcome that is a next state satisfying `P`. -/
def NextIs (o : Host.Outcome State Fault Refusal) (P : State → Prop) : Prop := ∃ t, o = .next t ∧ P t

/-- A run is safe when no step of it ends in a fault: the manual leaves no behaviour undefined (00_scope). -/
def SafeOutcome (o : Host.Outcome State Fault Refusal) : Prop := ∀ r, o ≠ .fault r

/-! ## A step of an engine -/

/-- The state in which engine e looks at its word: engines whose dirty sector failed its check have retired, and the results due are visible. -/
def State.atStep (s : State) (e : Nat) : State := s.settleParity.ready e

/-- Engine e executes word w, with source value v, at this step: it may step, its word raises no trap and meets no freeze, and no injected fault waits in its physical engine. -/
structure Executes (s : State) (e w : Nat) (v : W64) : Prop where
  may : s.settleParity.mayStep e = true
  word : (s.atStep e).wordAt e = w
  value : (s.atStep e).srcRead e (srcOf w) = v
  noTrap : (s.atStep e).trapOf e = none
  noFreeze : (s.atStep e).blocked e = none
  noFail : (s.atStep e).armed (uPe ((s.atStep e).peOf e)) 0x300 = false
  noMismatch : (s.atStep e).armed (uPe ((s.atStep e).peOf e)) 0x10000 = false

/-- The order of fetch units after a word of `len` words (R189, R190): a repetition left is executed; otherwise the target that falls due, or the next word in sequence, follows, and a branch taken falls due two fetch units later. -/
structure Order (x y : Eng) (len : BitVec 15) (branch : Option Target) : Prop where
  again : ∀ n m, x.rep = some (n, m) → 2 ≤ n → y.rep = some (n - 1, m) ∧ y.pc = x.pc ∧ y.p0 = x.p0 ∧ y.p1 = x.p1
  ends : (∀ n m, x.rep = some (n, m) → n < 2) → y.rep = none ∧ y.p0 = x.p1 ∧ y.p1 = branch ∧
    (x.p0 = none → y.pc = x.pc + len) ∧ ∀ a, x.p0 = some (.to a) → y.pc = a

/-- Results in flight come one step closer (R185). -/
def closer (fs : List InFlight) : List InFlight := fs.map (fun f => { f with due := f.due - 1 })

/-- The step of engine e from `r` to `t` changes of the engine only what `z` says, apart from the order of fetch units and the step counts; no other engine and nothing outside the engine array changes. -/
structure StepTo (r t : State) (e : Nat) (z : Eng) (len : BitVec 15) (branch : Option Target) : Prop where
  order : Order (r.le e) (t.le e) len branch
  engine : t.le e = { z with
    pc := (t.le e).pc, p0 := (t.le e).p0, p1 := (t.le e).p1, rep := (t.le e).rep, flight := closer z.flight
    steps := (r.le e).steps + 1, stepSeq := (r.le e).stepSeq + 1 }
  others : ∀ k, k ≠ e → t.le k = r.le k
  outside : t = { r with eng := t.eng }
  words : t.eng.prog = r.eng.prog

/-- No return from a trap falls due at this step of engine e. -/
def NoReturnDue (r : State) (e : Nat) : Prop := (r.le e).p0 ≠ some .eret

end Sys2Proof.Machine
end

