-- ==== Sys2Proof/Certificates/Slice0/Obligations.lean ====
section
/-! DEFINITION. The statements for the provers: what the manual's rules say of the commands, of the engines' words and of the machine as a whole. -/

open Sys2Proof Sys2Proof.Machine

namespace Sys2Proof.Cert
end Sys2Proof.Cert
open Sys2Proof.Cert

/-! ## Every command (01) -/

namespace Sys2Proof.Cert

/-- The parts of the state a command may change, but for the queue of waiting commands. -/
inductive Part where
  | tick | ports | qm | tly | deck | ch | eng | mem | bytes | poison | ecc | lnd | coh | cph | gal | tru | flt | mp | pwr | start | fresh | out
  /-- The ports but for the MSI-X tables, the viral mark and HP_ATTN_N. -/
  | portCore
  /-- The Tally entries and the generation of unlisted ones. -/
  | entries
  /-- The Deck but for its copy of the blaze. -/
  | deckCore
  /-- The lifecycle state. -/
  | lifecycle
deriving DecidableEq, Repr

/-- The part is the same in both states. -/
def Part.same (k : Part) (s t : State) : Prop :=
  match k with
  | .tick => t.tick = s.tick
  | .ports => t.ports = s.ports
  | .qm => t.qm = s.qm
  | .tly => t.tly = s.tly
  | .deck => t.deck = s.deck
  | .ch => t.ch = s.ch
  | .eng => t.eng = s.eng
  | .mem => t.mem = s.mem
  | .bytes => t.bytes = s.bytes
  | .poison => t.poison = s.poison
  | .ecc => t.ecc = s.ecc
  | .lnd => t.lnd = s.lnd
  | .coh => t.coh = s.coh
  | .cph => t.cph = s.cph
  | .gal => t.gal = s.gal
  | .tru => t.tru = s.tru
  | .flt => t.flt = s.flt
  | .mp => t.mp = s.mp
  | .pwr => t.pwr = s.pwr
  | .start => t.start = s.start
  | .fresh => t.fresh = s.fresh
  | .out => t.out = s.out
  | .portCore => ∀ p, { t.port p with msix := [], viralOut := false, attn := false } = { s.port p with msix := [], viralOut := false, attn := false }
  | .entries => t.tly.entries = s.tly.entries ∧ t.tly.genBase = s.tly.genBase
  | .deckCore => { t.deck with blaze := none } = { s.deck with blaze := none }
  | .lifecycle => t.deck.lc = s.deck.lc

/-- What a fault report may change (R394-R404): the FLT, the event bits and MSI-X tables, and in a grave stop the Tally's run, the links and their grants, the SKID grant, HP_ATTN_N, the phase and the Deck's copy of the blaze. -/
def reporting : List Part := [.ports, .qm, .tly, .deck, .ch, .flt, .pwr, .start, .out]

/-- The parts each command may change. -/
def writes : Instr → List Part
  | .registerWrite .. | .move .. | .evqRead .. | .aluAdd .. | .aluSub .. | .aluAnd .. | .aluOr .. | .aluXor .. | .aluAndn .. | .aluShl ..
  | .aluShr .. | .aluSar .. | .aluRol .. | .aluEq .. | .aluLt .. | .aluLtu .. | .aluAddc .. | .aluSubb .. | .mulLo .. | .mulHiu .. | .mulHis ..
  | .faddD .. | .fsubD .. | .faddS .. | .fsubS .. | .fmulD .. | .fmulS .. | .fcmpD .. | .fcmpS .. | .fcvt .. | .ld8 .. | .ld16 .. | .ld32 ..
  | .ld64 .. | .st8 .. | .st16 .. | .st32 .. | .st64 .. | .divu .. | .divs .. | .fdivD .. | .fdivS .. | .fsqrtD .. | .fsqrtS .. | .crc32c ..
  | .bcmp .. | .bscan .. | .popcnt .. | .louBadarg .. | .tlActivate .. | .tlMark .. | .tlCommit .. | .tlFail .. | .brIf .. | .brJump ..
  | .brCall .. | .brEret .. | .rqCh .. | .galCompress .. | .galExpand .. | .cphSeal .. | .cphUnseal .. | .cphRawEncrypt .. | .cphRawDecrypt ..
  | .qwaitExpiry .. | .done .. | .immx .. | .repeatN .. | .repeatG .. | .gate .. | .returnGate .. | .entry .. | .nop .. | .barOrder ..
  | .barDone .. | .waitLong .. | .laneRetry .. | .migrationComplete ..
    => reporting ++ [.eng, .mem, .bytes, .poison, .ecc, .lnd, .coh, .cph, .gal, .tru, .mp, .fresh, .entries, .deckCore]
  | .emptyOffsetAccess .. | .inject .. | .resolveWaitExpiry .. | .creditFrame .. | .idleFrame .. | .hoWant .. | .warmReset .. | .smbWrite .. => reporting
  | .refclkLoss .. | .portLoss .. | .viralReceived .. | .perstAssert .. => reporting ++ [.eng, .mem, .coh, .cph, .gal, .fresh, .portCore, .entries, .deckCore]
  | .refclkReturn .. | .perstDeassert .. => [.ports, .portCore]
  | .portTrainingEnd .. => reporting ++ [.portCore]
  | .configRequest .. => [.ports, .out, .portCore]
  | .doeDiscovery .. | .doeUnsupportedObject .. | .cdatTableAccess .. | .getCertificate .. | .getMeasurements .. | .alertResponse => [.out]
  | .ideKeyManagement .. | .getVersion .. | .getCapabilities .. | .negotiateAlgorithms .. | .keyExchange .. | .finish .. | .heartbeat ..
  | .keyUpdate .. | .endSession .. => [.ports, .fresh, .out, .portCore]
  | .getDigests .. | .challenge .. => [.fresh, .out]
  | .vfEnableWrite .. => [.ports, .qm, .tly, .deck, .ch, .eng, .cph, .gal, .fresh, .out, .portCore, .entries, .deckCore]
  | .functionLevelReset .. => [.ports, .qm, .tly, .deck, .ch, .eng, .cph, .gal, .fresh, .entries, .deckCore]
  | .flrComplete .. | .sqTailDoorbell .. | .identify .. | .write .. | .read .. | .mirrorWrite .. | .send .. | .exchange .. | .run .. | .query ..
  | .imageInfo .. | .powerStatus .. | .gatewayCall .. | .linkStatus .. => [.qm]
  | .queueEnable .. | .queueDisable .. | .trainingComplete .. | .probeInterval .. | .framingError .. => reporting ++ [.entries, .deckCore]
  | .queueDrained .. | .cqHeadDoorbell .. => [.qm, .tly, .deck, .ch, .entries, .deckCore]
  | .commandFetch .. => [.qm, .fresh, .out]
  | .completionPost .. => [.ports, .qm, .tly, .deck, .ch, .out, .entries, .deckCore]
  | .coalesceDelayExpiry .. => [.ports, .qm, .out]
  | .msixVectorUnmask .. => [.ports, .out]
  | .portUp .. => [.ports, .qm, .tly, .deck, .ch, .eng, .coh, .cph, .gal, .fresh, .out, .portCore, .entries, .deckCore]
  | .cxlMemRead .. | .cxlMemWrite .. => reporting ++ [.coh]
  | .getLog .. | .faultRead .. | .measureGet .. | .rdS .. | .rdX .. | .upg .. | .rdNc .. | .wrInv .. | .ticketActivate .. | .rsp .. | .evData ..
  | .homeTimeout .. => reporting ++ [.eng, .mem, .bytes, .poison, .ecc, .lnd, .coh]
  | .setQuota .. | .setExpert .. => [.ports, .qm, .mp, .out]
  | .abort .. | .tlyRlogNext .. => [.qm, .tly, .deck, .ch, .eng, .entries, .deckCore]
  | .resume .. => [.qm, .tly, .ch, .entries]
  | .compress .. | .expand .. => [.qm, .gal]
  | .seal .. | .unseal .. => [.qm, .cph]
  | .keyLoad .. | .cipherScrubComplete .. => reporting ++ [.eng, .mem, .bytes, .poison, .ecc, .lnd, .coh, .cph]
  | .keyErase .. => [.qm, .cph, .fresh]
  | .imageLoad .. => reporting ++ [.eng, .mem, .bytes, .poison, .ecc, .lnd, .coh, .mp, .deckCore]
  | .imageBind .. => [.qm, .mp]
  | .setEnvelope .. => [.qm, .mp, .pwr]
  | .bankState .. | .bankTestPhaseEnd .. => reporting ++ [.mem, .bytes, .poison, .ecc]
  | .faultMode .. | .mpRestartComplete => [.qm, .flt, .mp]
  | .selftest .. | .clean .. | .invalidate .. | .discard .. | .l1Disable .. | .l1Enable .. => reporting ++ [.mem]
  | .handover .. | .hoRefuse .. | .hoWaitExpiry .. => [.qm, .tru]
  | .groupCreate .. | .groupDelete .. | .groupAssign .. => [.qm, .ch, .mp]
  | .serviceOpcode .. | .lcCmd .. | .ownerKeyWrite .. => reporting ++ [.deckCore]
  | .entryAllocate .. => [.qm, .tly, .ch, .cph, .entries]
  | .reuseHoldExpiry .. | .checkpointGuardExpiry => [.tly]
  | .abortNoteDelayExpiry .. | .checkpointStart | .checkpointComplete | .doubtTableClose => [.tly, .deck, .deckCore]
  | .noteWritten .. => [.qm, .tly, .deck, .entries, .deckCore]
  | .linkEnable .. | .linkDisable .. => reporting ++ [.eng, .mp, .entries, .deckCore]
  | .trainingLimitExpiry .. | .probingLimitExpiry .. | .lockLoss .. | .linkSilenceExpiry .. | .lrefLoss .. | .ackFrame .. | .nakFrame ..
  | .probeFrame .. | .queryFrame .. | .replayTimeout .. => reporting ++ [.eng, .entries, .deckCore]
  | .downHoldExpiry .. | .chCntClear .. => [.ch]
  | .lrefReturn .. => [.ch, .pwr]
  | .dataFrame .. => reporting ++ [.eng, .mem, .bytes, .poison, .ecc, .lnd, .coh, .entries]
  | .idleInterval | .creditReportTimer .. => [.ch, .out]
  | .frameTransmit .. => [.tly, .ch, .eng, .flt, .out]
  | .ackTimeout .. | .busyRetryExpiry .. => [.tly, .ch, .eng, .entries]
  | .outcomeResend .. | .queryResend .. => [.tly, .ch]
  | .frameLifeExpiry .. => [.tly, .ch, .eng]
  | .dispatch .. => [.qm, .tly, .deck, .ch, .eng, .pwr, .entries, .deckCore]
  | .longOpComplete .. => reporting ++ [.eng, .mem, .bytes, .poison, .ecc, .lnd, .coh, .fresh, .entries, .deckCore]
  | .microwordRewrite .. | .programWordRewrite .. | .refereeDecision .. | .laneTestComplete ..
    => reporting ++ [.eng, .mem, .bytes, .poison, .ecc, .entries, .deckCore]
  | .programEnd .. => reporting ++ [.eng, .mem, .bytes, .poison, .ecc, .cph, .gal, .entries, .deckCore]
  | .barrierComplete .. => reporting ++ [.eng, .mem, .bytes, .poison, .ecc, .cph, .gal]
  | .endpointTimeoutExpiry .. | .engCntClear .. | .laneResyncComplete .. => reporting ++ [.eng]
  | .trapEntry .. => reporting ++ [.eng, .mem, .bytes, .poison, .ecc, .tru, .entries, .deckCore]
  | .transportAccept .. => [.eng]
  | .snpS .. | .snpX .. | .snpInv .. | .snpCur .. | .grant .. => reporting ++ [.eng, .mem, .bytes, .poison, .ecc, .coh]
  | .retry .. | .grantAck .. | .data .. | .evAck .. | .hostReadResponse .. | .hostWriteCompletion .. | .cohCntClear .. => [.coh]
  | .hostSnoop .. => [.mem, .coh, .out]
  | .maintComplete .. | .flushComplete .. | .bankWake .. => reporting ++ [.eng, .mem, .bytes, .poison, .ecc]
  | .l2Disable .. | .l2Enable .. => [.mem, .pwr]
  | .memCntClear .. => [.mem]
  | .bankStateComplete .. => [.qm, .mem, .bytes, .poison, .ecc, .pwr]
  | .patrolScrub .. => reporting ++ [.poison, .ecc, .lnd]
  | .lndCntClear .. => [.lnd]
  | .keyCapture .. => reporting ++ [.eng, .cph, .fresh]
  | .cipherOperationEnd .. => reporting ++ [.eng, .mem, .bytes, .poison, .ecc, .lnd, .coh, .cph, .fresh]
  | .cphCntClear .. => [.cph]
  | .coderOperationStart .. => [.qm, .tly, .eng, .gal]
  | .galleyConfirmation .. => reporting ++ [.eng, .gal, .fresh]
  | .coderOperationEnd .. => reporting ++ [.eng, .mem, .bytes, .poison, .ecc, .lnd, .coh, .gal, .fresh]
  | .galleyScrubComplete .. => reporting ++ [.eng, .mem, .bytes, .poison, .ecc, .lnd, .coh, .gal]
  | .galCntClear .. => [.gal]
  | .hoGive .. | .wdogKick | .measExt .. => [.tru]
  | .handoverReset .. => reporting ++ [.eng, .mem, .bytes, .poison, .ecc, .tru]
  | .secureWatchdogExpiry | .secRestart ..
    => [.qm, .tly, .deck, .ch, .eng, .mem, .bytes, .poison, .ecc, .coh, .cph, .gal, .tru, .pwr, .fresh, .entries, .deckCore]
  | .loneRestartComplete .. => reporting ++ [.eng, .tru]
  | .debugWrite .. => reporting ++ [.tru, .mp]
  | .faultReport .. => reporting ++ [.eng, .mem, .bytes, .poison, .ecc, .lnd, .cph, .gal, .fresh, .entries, .deckCore]
  | .quietPeriodExpiry .. => [.flt, .mp]
  | .blazeClear .. => [.deck, .flt]
  | .aliveToggle | .smbPointer .. | .smbRead .. => [.flt, .out]
  | .mpWatchdogKick => [.mp]
  | .mpWatchdogExpiry | .mpLockstepMismatch => reporting ++ [.eng, .mp, .deckCore]
  | .injectTimeout .. => [.qm, .flt]
  | .injGo .. => [.flt]
  | .bankTestStart .. | .spareEngineTestStart .. => [.qm, .mem, .pwr]
  | .spareEngineTestEnd .. => reporting ++ [.eng, .mem]
  | .selftestComplete .. => reporting ++ [.eng, .mem, .bytes, .poison, .ecc, .cph, .gal, .fresh]
  | .powerGrantRequest .. | .powerGrantRelease .. | .poolUpdate .. | .paceRead .. | .vrmTransferFail | .thermalSample .. | .holdCheckStart ..
  | .holdCheckComplete .. | .holdStatusUpdate .. | .pwrCntClear .. => [.pwr]
  | .paceAdjust | .vrmPoll .. => [.pwr, .out]
  | .sagStopNvCrossing .. | .sagSkidCrossing .. => [.ports, .tly, .ch, .flt, .pwr, .start, .out, .portCore]
  | .nvStopEnd .. => [.deck, .pwr, .out, .deckCore]
  | .skidImageWritten | .supplyReturn .. | .powerOnReset
    => reporting ++ [.tick, .eng, .mem, .bytes, .poison, .ecc, .lnd, .coh, .cph, .gal, .tru, .mp, .portCore, .entries, .deckCore]
  | .railUndervoltage .. => reporting ++ [.eng, .mem, .lnd, .coh, .cph, .gal, .fresh, .portCore, .entries, .deckCore]
  | .holdCheckGo .. => [.qm, .pwr]
  | .holdCapWrite .. => [.deck, .pwr, .deckCore]
  | .startUpPhaseEnd ..
    => reporting ++ [.eng, .mem, .bytes, .poison, .ecc, .lnd, .coh, .cph, .gal, .tru, .mp, .fresh, .portCore, .entries, .deckCore, .lifecycle]
  | .quiesce .. => [.qm, .start]
  | .quiesceDrained => [.tly, .pwr, .start]
  | .configRecordWrite => [.deck, .mp, .deckCore]
  | .smbusTimeout => []
  | .jtagInstruction .. => [.flt, .fresh, .out]
  | .holdUpStoreExhausted => [.pwr, .start]
  | .imageLoadComplete => [.qm, .deck, .eng, .tru, .mp, .deckCore]

end Sys2Proof.Cert

/-- A step takes the command at the front of the queue and gives its outcome on the state with the queue's rest. -/
def Sys2Proof.Cert.StepRunsFrontCommand : Prop :=
  ∀ (c : Instr) (rest : List Instr) (s : State), step { s with pending := c :: rest } = exec c { s with pending := rest }

/-- With an empty queue one TICK passes (the model's choice, log 2); nothing else changes but for a checkpoint under way, of which some more entries are read, each as it now stands (R126; how many, the manual leaves open, log 29). -/
def Sys2Proof.Cert.IdleStepPassesOneTick : Prop :=
  ∀ s : State, s.pending = [] →
    (s.tly.ckpt = none → step s = .next { s with tick := s.tick + 1 }) ∧
    (∀ r, s.tly.ckpt = some r → s.live = false ∨ s.tly.stopped = true ∨ s.pwr.stop = true → step s = .next { s with tick := s.tick + 1 }) ∧
    (∀ r, s.tly.ckpt = some r → s.live = true → s.tly.stopped = false → s.pwr.stop = false →
      ∃ n, step s = .next { s with tick := s.tick + 1, tly := { s.tly with ckpt := some (s.ckptRead r n) } })

/-- No effect of a command touches the queue, breaks the memory's canonical form, mends the END fuse or takes back what has left the module. -/
def Obligations.CommandsKeep : Prop := ∀ (c : Instr) (s t : State), exec c s = .next t → Kept s t

/-- Every step keeps the invariant, from every state that has it. -/
def Obligations.StepKeepsInv : Prop := ∀ s t : State, Inv s → step s = .next t → Inv t

/-- Each command changes only the parts of the state listed for it. -/
def Obligations.CommandFrames : Prop :=
  ∀ (c : Instr) (s t : State), exec c s = .next t → ∀ k, k ∉ writes c → k.same s t

/-- No command ends in a fault, and only a service operation whose effect the manual does not publish is refused (R77). -/
def Obligations.OnlyUnpublishedServicesStop : Prop :=
  ∀ (c : Instr) (s : State), (∀ f, exec c s ≠ .fault f) ∧ ∀ r, exec c s = .refused r → r = .unpublishedService ∧ ∃ h, c = .serviceOpcode h .other

/-- The lifecycle state changes only at a start-up, when phase C ends (R389). -/
def Sys2Proof.Cert.LifecycleChangesAtStartUp : Prop :=
  ∀ (c : Instr) (s t : State), exec c s = .next t → t.deck.lc ≠ s.deck.lc → ∃ f, c = .startUpPhaseEnd .C f


namespace Sys2Proof.Cert

/-- Offsets of PF BAR0 with what a PF reads there right after reset, 64 bits at a time (Tables 4.8 to 4.10, 5.13, 9.6, 9.14, 10.8, 11.8, 12.11, 13.7, 13.11). -/
def resetReads1 : List (Nat × Nat) :=
  [(0x2C0000, 0x20000 * 2 ^ 46 + 0x64 * 2 ^ 32 + 0xA * 2 ^ 16 + 0xFA), (0xA00000, 0x118), (0xA00008, 0), (0xA00020, 0), (0xA00030, 0), (0xA00038, 0),
    (0x940000, 0x32 * 2 ^ 32 + 0x14 * 2 ^ 12), (0xA40000, 0x20), (0xAC0000, 0x20), (0x280400, 0xA), (0x280500, 0x3E8), (0x280600, 0)]

/-- The same for the fault controller and the power arbiter (Tables 14.10 to 14.16, 15.5 to 15.12). -/
def resetReads2 : List (Nat × Nat) :=
  [(0x240000, 0x202), (0x240008, 0x4000000), (0x240010, 0xA), (0x240018, 0xA), (0x240020, 0xA), (0x240030, 0), (0x240038, 0x64), (0x240040, 0), (0x240060, 0),
    (0x240068, 0), (0x240070, 0), (0x240078, 0), (0x240080, 1), (0x240090, 0), (0x240098, 0), (0x2400A0, 0), (0x2400A8, 0), (0x2400B0, 0),
    (0x240200, 0x8258003C), (0x240208, 1)] ++
  [(0x240210, 0), (0x240218, 0), (0x200000, 0x258), (0x200008, 0x280), (0x200010, 0), (0x200018, 0), (0x200020, 0x190 * 2 ^ 44 + 0x398 * 2 ^ 32 + 0x26C * 2 ^ 20 + 0x320 * 2 ^ 8 + 0x40),
    (0x200028, 0x320 * 2 ^ 20), (0x200100, 0x37003A2), (0x200108, 0), (0x200110, 0x780258), (0x200118, 0), (0x200120, 0), (0x200128, 1), (0x200130, 0)]

/-- The same for start-up, hot plug and the ports (Tables 2.14, 16.6, 16.8). -/
def resetReads3 : List (Nat × Nat) := [(0x0, 0x20000000), (0x10, 0x64), (0x180000, 0), (0x180010, 0)]

end Sys2Proof.Cert

/-- Reset: every register listed reads, right after reset, as its table says; memory, queues and logs are empty, the engines idle; and the state meets the invariant. -/
def Obligations.ResetState : Prop :=
  Inv State.reset ∧
  (∀ (p : PortId) (o v : Nat), (o, v) ∈ resetReads1 ++ resetReads2 ++ resetReads3 → State.reset.regRead false p.val o true = BitVec.ofNat 64 v) ∧
  (∀ f, f < 0x102 → State.reset.fn f = { expert := false, suspend := false, maxQp := 8, tallyLimit := 0x1000, clamp := 0, flrLog := 0, flrBusy := false, event := 0, credits := 0 }) ∧
  (∀ f q, f < 0x102 → q < 8 → let x := State.reset.queue f q
    x.enable = false ∧ x.ports = 3 ∧ x.prefPort = false ∧ x.vector.toNat = q ∧ x.sizeM1 = 0xFF ∧ x.countM1 = 0 ∧ x.delay = 0 ∧ x.sqHead = 0 ∧ x.cqTail = 0 ∧ x.phase = true) ∧
  (∀ l, l < 256 → let x := State.reset.link l
    x.cfg = { ackTimeout := 0x3E8, resendLimit := 8, replayLimit := 4, silence := 0x12C, replayTimeout := 0x1E, fec := false, enable := false } ∧
    x.state = .disabled ∧ x.downCause = 0 ∧ State.reset.regRead false 0 (0x300008 + 0x2000 * l) true = 0 ∧ ∀ j, Sp.look x.cnt 0 j = 0) ∧
  (∀ e, e < 128 → let x := State.reset.le e
    x.running = false ∧ x.pc = 0 ∧ x.freeze = none ∧ x.steps = 0 ∧ x.fpctl = 0 ∧ (∀ k, Sp.look x.g 0 k = 0) ∧
    ∀ i, x.bits.getLsbD i = (i == 5 || i == 11 || i == 12 || i == 13 || i == 31)) ∧
  (∀ n, n < 144 → let x := State.reset.pe n
    x.role = (if n % 9 = 8 then .spare else .active) ∧ x.logical = (if n % 9 = 8 then 128 else n / 9 * 8 + n % 9) ∧ x.trapLog = 0 ∧ x.barErrAddr = 0 ∧ x.repairs = 0) ∧
  (∀ k, k < 16 → (State.reset.engCl k).qwait = 0x64 ∧ (State.reset.engCl k).repairLimit = 2 ∧ (State.reset.engCl k).retryLimit = 3 ∧
    (State.reset.memCl k).l2Enable = true ∧ (∀ b, Sp.look (State.reset.memCl k).bank 0 b = 0) ∧ (State.reset.memCl k).maintStatus = 4) ∧
  (∀ i, i < 4128 → (State.reset.slot i).type = 0 ∧ (State.reset.slot i).gen = 0 ∧ (State.reset.slot i).invoc = 0) ∧
  (∀ i, i < 1048576 → (State.reset.entry i).state = .free ∧ (State.reset.entry i).gen = 1) ∧
  State.reset.bytes = [] ∧ State.reset.flt.log = [] ∧ State.reset.pending = [] ∧ State.reset.qm.cmds = []


/-! ## Engines: results of the function units (06, 07) -/

namespace Sys2Proof.Cert

/-- The engine after a word that puts a result in flight. -/
def launch (x : Eng) (f : InFlight) : Eng := { x with flight := x.flight ++ [f], immx := false, mustEntry := false, freeze := none }

/-- The step of engine e puts one result in flight and changes nothing else of the machine (R185, R244). -/
def Gives (s : State) (e : LeId) (c : Instr) (f : InFlight) : Prop :=
  NextIs (exec c s) (fun t => StepTo (s.atStep e.val) t e.val (launch ((s.atStep e.val).le e.val) f) 1 none)

/-- CARRY, OVF, ZERO and NEG as bits 0 to 3 of window 0 (Table 6.7, Table 7.1). -/
def flags4 (carry ovf : Bool) (v : W64) : W32 :=
  (if carry then 1 else 0) ||| (if ovf then 2 else 0) ||| (if v = 0 then 4 else 0) ||| (if v.msb then 8 else 0)

/-- An ALU result: visible one step later, with all four flags, or with none changed (Table 6.3, Table 7.1). -/
def aluFlagged (v : W64) (carry ovf : Bool) : InFlight := ⟨1, .alu, v, 0xF, flags4 carry ovf v, none⟩
def aluPlain (v : W64) : InFlight := ⟨1, .alu, v, 0, 0, none⟩

/-- A signed value does not fit 64 bits. -/
def overflows (x : Int) : Bool := x < -(2 ^ 63) || 2 ^ 63 ≤ x

/-- Engine e executes a move of v to destination d at this step, from a source other than EVQ, and no return from a trap falls due. -/
structure Moves (s : State) (e : LeId) (d : Nat) (v : W64) : Prop where
  word : ∃ w, Executes s e.val w v ∧ dstOf w = d ∧ srcOf w ≠ 0x6C
  order : NoReturnDue (s.atStep e.val) e.val

/-- A Bool as a number to add. -/
def one (b : Bool) : Nat := if b then 1 else 0

end Sys2Proof.Cert

/-- The ALU rows (R214, R215, R216, Table 6.3): value and flags of every operation, the carry taken as CARRY stands at the step. -/
def Obligations.AluResults : Prop :=
  ∀ (s : State) (e : LeId) (v : W64),
    let a := ((s.atStep e.val).le e.val).lat.aluA
    let c := ((s.atStep e.val).le e.val).bits.getLsbD 0
    let n := (v &&& 63).toNat
    (Moves s e 0x11 v → Gives s e (.aluAdd e true) (aluFlagged (a + v) (2 ^ 64 ≤ a.toNat + v.toNat) (overflows (a.toInt + v.toInt)))) ∧
    (Moves s e 0x12 v → Gives s e (.aluSub e true) (aluFlagged (a - v) (a.toNat < v.toNat) (overflows (a.toInt - v.toInt)))) ∧
    (Moves s e 0x13 v → Gives s e (.aluAnd e true) (aluFlagged (a &&& v) false false)) ∧
    (Moves s e 0x14 v → Gives s e (.aluOr e true) (aluFlagged (a ||| v) false false)) ∧
    (Moves s e 0x15 v → Gives s e (.aluXor e true) (aluFlagged (a ^^^ v) false false)) ∧
    (Moves s e 0x16 v → Gives s e (.aluAndn e true) (aluFlagged (a &&& ~~~v) false false)) ∧
    (Moves s e 0x17 v → Gives s e (.aluShl e true) (aluFlagged (a <<< n) (n ≠ 0 && a.getLsbD (64 - n)) false)) ∧
    (Moves s e 0x18 v → Gives s e (.aluShr e true) (aluFlagged (a >>> n) (n ≠ 0 && a.getLsbD (n - 1)) false)) ∧
    (Moves s e 0x19 v → Gives s e (.aluSar e true) (aluFlagged (a.sshiftRight n) (n ≠ 0 && a.getLsbD (n - 1)) false)) ∧
    (Moves s e 0x1A v → Gives s e (.aluRol e true) (aluFlagged (a.rotateLeft n) (n ≠ 0 && (a.rotateLeft n).getLsbD 0) false)) ∧
    (Moves s e 0x1B v → Gives s e (.aluEq e true) (aluPlain (if a = v then 1 else 0))) ∧
    (Moves s e 0x1C v → Gives s e (.aluLt e true) (aluPlain (if a.toInt < v.toInt then 1 else 0))) ∧
    (Moves s e 0x1D v → Gives s e (.aluLtu e true) (aluPlain (if a.toNat < v.toNat then 1 else 0))) ∧
    (Moves s e 0x1E v → Gives s e (.aluAddc e true)
      (aluFlagged (a + v + BitVec.ofNat 64 (one c)) (2 ^ 64 ≤ a.toNat + v.toNat + one c) (overflows (a.toInt + v.toInt + one c)))) ∧
    (Moves s e 0x1F v → Gives s e (.aluSubb e true)
      (aluFlagged (a - v - BitVec.ofNat 64 (one c)) (a.toNat < v.toNat + one c) (overflows (a.toInt - v.toInt - one c))))

/-- The multiplier (Table 6.3, Table 7.1): the halves of the 128-bit product, three steps later, no flag changed. -/
def Sys2Proof.Cert.MultiplierResults : Prop :=
  ∀ (s : State) (e : LeId) (v : W64),
    let a := ((s.atStep e.val).le e.val).lat.mulA
    (Moves s e 0x21 v → Gives s e (.mulLo e true) ⟨3, .mul, a * v, 0, 0, none⟩) ∧
    (Moves s e 0x22 v → Gives s e (.mulHiu e true) ⟨3, .mul, ((a.setWidth 128 * v.setWidth 128) >>> 64).setWidth 64, 0, 0, none⟩) ∧
    (Moves s e 0x23 v → Gives s e (.mulHis e true) ⟨3, .mul, ((a.signExtend 128 * v.signExtend 128) >>> 64).setWidth 64, 0, 0, none⟩)

/-! ## Engines: floating point (06, 07) -/

namespace Sys2Proof.Cert

/-- A condition of an FP operation as a bit of window 0. -/
def bitIf (b : Bool) (k : Nat) : W32 := if b then 1#32 <<< k else 0

/-- The sticky flags of R219: NX 17, UF 18, OF 19, DZ 20, NV 21, DENORM_IN 22 (Table 6.7). -/
def sticky (o : FpOut) : W32 := bitIf o.nx 17 ||| bitIf o.tiny 18 ||| bitIf o.ovf 19 ||| bitIf o.dz 20 ||| bitIf o.nv 21 ||| bitIf o.dn 22

/-- An FP result with its sticky flags, which an operation sets and never clears (R219). -/
def fpGiven (n : Nat) (p : RPort) (o : FpOut) : InFlight := ⟨n, p, BitVec.ofNat 64 o.val, sticky o, sticky o, none⟩

/-- The step of engine e puts the result of an FP operation in flight; while an FP trap is enabled (FPCTL 8:4 or SUBN) the engine then freezes with cause 6 until the operation is complete (R206). -/
def GivesFp (s : State) (e : LeId) (c : Instr) (f : InFlight) : Prop :=
  let x := (s.atStep e.val).le e.val
  NextIs (exec c s) (fun t => StepTo (s.atStep e.val) t e.val
    { launch x f with freeze := if x.fpctl &&& 0x1F4 = 0 then none else some (6, s.tick) } 1 none)

/-- A comparison: FLT, FEQ and FUN (bits 23 to 25) are set to match as well (R224). -/
def cmpGiven (o : FpOut) : InFlight :=
  ⟨2, .fcmp, BitVec.ofNat 64 o.val, sticky o ||| 0x3800000#32, sticky o ||| bitIf (o.val = 1) 23 ||| bitIf (o.val = 2) 24 ||| bitIf (o.val = 8) 25, none⟩

/-- The encoding is a NaN of the format; a signalling one. -/
abbrev nanEnc (f : FpFmt) (v : Nat) : Prop := v / 2 ^ f.fbits % 2 ^ f.ebits = f.emax ∧ v % 2 ^ f.fbits ≠ 0
abbrev snanEnc (f : FpFmt) (v : Nat) : Prop := nanEnc f v ∧ v % 2 ^ f.fbits < 2 ^ (f.fbits - 1)
/-- The encoding is a subnormal number of the format; the zero of its sign. -/
abbrev subEnc (f : FpFmt) (v : Nat) : Prop := v / 2 ^ f.fbits % 2 ^ f.ebits = 0 ∧ v % 2 ^ f.fbits ≠ 0
def zeroLike (f : FpFmt) (v : Nat) : Nat := v - v % 2 ^ f.fbits
/-- Sign and magnitude of a number's encoding, in the order of the numbers; a subnormal number counts as zero (R222). -/
def orderKey (f : FpFmt) (v : Nat) : Int :=
  let m := if subEnc f v then 0 else v % 2 ^ (f.fbits + f.ebits)
  if v / 2 ^ (f.fbits + f.ebits) % 2 = 1 then -(m : Int) else (m : Int)
/-- An encoding of the format. -/
abbrev isEnc (f : FpFmt) (v : Nat) : Prop := v < 2 ^ (f.p + f.ebits)
/-- The encoding is a normal number. -/
abbrev normEnc (f : FpFmt) (v : Nat) : Prop := isEnc f v ∧ v / 2 ^ f.fbits % 2 ^ f.ebits ≠ 0 ∧ v / 2 ^ f.fbits % 2 ^ f.ebits ≠ f.emax

end Sys2Proof.Cert

/-- The FP pipelines (Table 6.3, R218, R219, R224): latency, port, operands and flags of every row, and the freeze while a trap is enabled (R206); RM is FPCTL bits 1:0, a binary32 operand is bits 31:0. -/
def Sys2Proof.Cert.FpPipelineRows : Prop :=
  ∀ (s : State) (e : LeId) (v : W64),
    let x := (s.atStep e.val).le e.val
    let rm := (x.fpctl &&& 3).toNat
    let a := x.lat.fpA.toNat
    let b := v.toNat
    let a32 := (x.lat.fpA.setWidth 32).toNat
    let b32 := (v.setWidth 32).toNat
    (Moves s e 0x25 v → GivesFp s e (.faddD e true) (fpGiven 4 .fadd (fpD.op 0 rm a b))) ∧
    (Moves s e 0x26 v → GivesFp s e (.fsubD e true) (fpGiven 4 .fadd (fpD.op 1 rm a b))) ∧
    (Moves s e 0x27 v → GivesFp s e (.faddS e true) (fpGiven 4 .fadd (fpS.op 0 rm a32 b32))) ∧
    (Moves s e 0x28 v → GivesFp s e (.fsubS e true) (fpGiven 4 .fadd (fpS.op 1 rm a32 b32))) ∧
    (Moves s e 0x29 v → GivesFp s e (.fmulD e true) (fpGiven 5 .fmul (fpD.op 2 rm a b))) ∧
    (Moves s e 0x2A v → GivesFp s e (.fmulS e true) (fpGiven 5 .fmul (fpS.op 2 rm a32 b32))) ∧
    (Moves s e 0x2B v → GivesFp s e (.fcmpD e true) (cmpGiven (fpD.cmpOp a b))) ∧
    (Moves s e 0x2C v → GivesFp s e (.fcmpS e true) (cmpGiven (fpS.cmpOp a32 b32))) ∧
    (Moves s e 0x2D v → GivesFp s e (.fcvt e true) (fpGiven 4 .fcvt (fcvtOp (a % 16) rm b)))

/-- The NaN rule (R220). Every NaN result, of any operation or conversion, is the canonical quiet NaN of its format; a signalling NaN operand sets NV, in a comparison as well; a quiet one sets no flag, but for a conversion to an integer, which sets NV. -/
def Obligations.FpNanRule : Prop :=
  let canon := fun (f : FpFmt) => if f = fpD then 0x7FF8000000000000 else 0x7FC00000
  let quiet := fun (o : FpOut) => o.dz = false ∧ o.ovf = false ∧ o.tiny = false ∧ o.nx = false
  (∀ (f : FpFmt) (k rm a b : Nat), (f = fpD ∨ f = fpS) → k ≤ 4 → isEnc f a → isEnc f b →
    (nanEnc f (f.op k rm a b).val → (f.op k rm a b).val = canon f) ∧
    (nanEnc f a ∨ k < 4 ∧ nanEnc f b → (f.op k rm a b).val = canon f ∧ quiet (f.op k rm a b) ∧
      ((f.op k rm a b).nv = true ↔ snanEnc f a ∨ k < 4 ∧ snanEnc f b) ∧ ((f.op k rm a b).dn = true ↔ subEnc f a ∨ k < 4 ∧ subEnc f b)) ∧
    ((f.cmpOp a b).nv = true ↔ snanEnc f a ∨ snanEnc f b) ∧ quiet (f.cmpOp a b)) ∧
  (∀ rm t : Nat, t < 2 ^ 64 →
    (nanEnc fpS (fcvtOp 0 rm t).val → (fcvtOp 0 rm t).val = canon fpS) ∧
    (nanEnc fpD (fcvtOp 1 rm t).val → (fcvtOp 1 rm t).val = canon fpD) ∧
    (nanEnc fpD (fcvtOp 9 rm t).val → (fcvtOp 9 rm t).val = canon fpD) ∧
    (nanEnc fpD t → fcvtOp 0 rm t = { FpOut.plain (canon fpS) with nv := decide (snanEnc fpD t) } ∧
      fcvtOp 9 rm t = { FpOut.plain (canon fpD) with nv := decide (snanEnc fpD t) } ∧
      ∀ k, k = 2 ∨ k = 3 ∨ k = 4 → (fcvtOp k rm t).nv = true ∧ quiet (fcvtOp k rm t) ∧ (fcvtOp k rm t).dn = false) ∧
    (nanEnc fpS (t % 2 ^ 32) → fcvtOp 1 rm t = { FpOut.plain (canon fpD) with nv := decide (snanEnc fpS (t % 2 ^ 32)) } ∧
      (fcvtOp 7 rm t).nv = true ∧ quiet (fcvtOp 7 rm t) ∧ (fcvtOp 7 rm t).dn = false))

/-- Subnormal operands (R222): an operation reads them as zeros of their sign and notes them. -/
def Sys2Proof.Cert.FpSubnormalOperandsFlush : Prop :=
  ∀ (f : FpFmt) (k rm a b : Nat), (f = fpD ∨ f = fpS) → k < 4 → isEnc f a → isEnc f b → subEnc f a →
    f.op k rm a b = { f.op k rm (zeroLike f a) b with dn := true } ∧ f.op k rm b a = { f.op k rm b (zeroLike f a) with dn := true } ∧
    f.cmpOp a b = { f.cmpOp (zeroLike f a) b with dn := true } ∧ f.cmpOp b a = { f.cmpOp b (zeroLike f a) with dn := true }

/-- A normal number times one, and its own conversion, is itself in every rounding direction, with no flag: reading and rounding lose nothing (R219). -/
def Sys2Proof.Cert.FpNormalNumbersSurvive : Prop :=
  ∀ (f : FpFmt) (rm v : Nat), (f = fpD ∨ f = fpS) → normEnc f v →
    f.conv rm (f.read v).1 = FpOut.plain v ∧ f.op 2 rm v (f.bias * 2 ^ f.fbits) = FpOut.plain v ∧ f.op 0 rm v 0 = FpOut.plain v

/-- Comparison (R224): 1 less, 2 equal, 4 greater by sign and magnitude, a subnormal number and -0 as +0; 8 with a NaN. -/
def Sys2Proof.Cert.FpCompareOrders : Prop :=
  ∀ (f : FpFmt) (a b : Nat), (f = fpD ∨ f = fpS) → isEnc f a → isEnc f b →
    (nanEnc f a ∨ nanEnc f b → (f.cmpOp a b).val = 8) ∧
    (¬ nanEnc f a → ¬ nanEnc f b →
      (f.cmpOp a b).val = if orderKey f a < orderKey f b then 1 else if orderKey f a = orderKey f b then 2 else 4)

/-- FCVT (R225, Table 7.4): what replaces a NaN or a value out of range, each with NV; kinds 0xA to 0xF give 0 with NV. -/
def Sys2Proof.Cert.FcvtReplacements : Prop :=
  ∀ (kind rm t : Nat), t < 2 ^ 64 →
    (10 ≤ kind → fcvtOp kind rm t = FpOut.invalid 0) ∧
    (nanEnc fpD t → (fcvtOp 2 rm t).val = 0x8000000000000000 ∧ (fcvtOp 3 rm t).val = 0x8000000000000000 ∧ (fcvtOp 4 rm t).val = 0 ∧
      (fcvtOp 2 rm t).nv = true ∧ (fcvtOp 3 rm t).nv = true ∧ (fcvtOp 4 rm t).nv = true) ∧
    (nanEnc fpS (t % 2 ^ 32) → (fcvtOp 7 rm t).val = 0xFFFFFFFF80000000 ∧ (fcvtOp 7 rm t).nv = true) ∧
    (0x43F0000000000000 ≤ t → t ≤ 0x7FF0000000000000 → (fcvtOp 2 rm t).val = 0x7FFFFFFFFFFFFFFF ∧ (fcvtOp 4 rm t).val = 0xFFFFFFFFFFFFFFFF ∧
      (fcvtOp 2 rm t).nv = true ∧ (fcvtOp 4 rm t).nv = true) ∧
    (0xC3F0000000000000 ≤ t → t ≤ 0xFFF0000000000000 → (fcvtOp 2 rm t).val = 0x8000000000000000 ∧ (fcvtOp 3 rm t).val = 0x8000000000000000 ∧
      (fcvtOp 4 rm t).val = 0 ∧ (fcvtOp 2 rm t).nv = true ∧ (fcvtOp 4 rm t).nv = true) ∧
    (fcvtOp 9 rm t).nx = false

/-- Integers below 2^53 convert to binary64 and back exactly, by any RM (R225, kinds 5, 6, 2 and 3). -/
def Sys2Proof.Cert.FcvtIntegersExact : Prop :=
  ∀ (rm : Nat) (n : Int), -(2 ^ 53) ≤ n → n ≤ 2 ^ 53 →
    let w := (BitVec.ofInt 64 n).toNat
    let d := fcvtOp 5 rm w
    d.nx = false ∧ fcvtOp 2 rm d.val = FpOut.plain w ∧ fcvtOp 3 rm d.val = FpOut.plain w ∧
      (0 ≤ n → fcvtOp 6 rm w = d ∧ fcvtOp 4 rm d.val = FpOut.plain w)


/-! ## Engines: moves, branches, control words (06) -/

namespace Sys2Proof.Cert

/-- The step of engine e executes a word of `len` words whose effect on the engine is `f`, with a branch taken or none, and changes nothing else of the machine (R175, R244). -/
def Does (s : State) (e : LeId) (c : Instr) (f : Eng → Eng) (len : BitVec 15) (b : Option Target) : Prop :=
  NextIs (exec c s) (fun t => StepTo (s.atStep e.val) t e.val { f ((s.atStep e.val).le e.val) with immx := false, mustEntry := false, freeze := none } len b)

/-- Engine e executes a control word w at this step, and no return from a trap falls due. -/
structure Controls (s : State) (e : LeId) (w : Nat) : Prop where
  word : ∃ v, Executes s e.val w v
  order : NoReturnDue (s.atStep e.val) e.val

/-- Bit i of the bit space takes the low bit of v, if a program may write it; every other write of it is ignored (R184, R194, Table 6.7). -/
def wroteBit (x : Eng) (i : Nat) (v : Bool) : Eng := if bitRW i then x.putBit i v else x

/-- What a move of v to a destination without a trigger does to the engine (Table 6.3). -/
def Stores (d : Nat) (v : W64) (x y : Eng) : Prop :=
  (d < 0x10 → y = { x with g := Sp.put x.g 0 d v }) ∧
  (d = 0x10 → y = { x with lat := { x.lat with aluA := v } }) ∧
  (d = 0x20 → y = { x with lat := { x.lat with mulA := v } }) ∧
  (d = 0x24 → y = { x with lat := { x.lat with fpA := v } }) ∧
  (d = 0x2E → y = { x with lat := { x.lat with lsuAddr := v.setWidth 48, lsuAuto := false } }) ∧
  (d = 0x2F → y = { x with lat := { x.lat with lsuAddr := v.setWidth 48, lsuAuto := true } }) ∧
  (d = 0x38 → y = { x with lat := { x.lat with louA := v } }) ∧
  (d = 0x39 → y = { x with lat := { x.lat with louB := v } }) ∧
  (d = 0x3B → y = { x with lat := { x.lat with brCond := v.setWidth 13 } }) ∧
  (0x40 ≤ d ∧ d < 0x60 → y = wroteBit x (32 * x.bwin.toNat + (d - 0x40)) (v.getLsbD 0)) ∧
  (d = 0x60 → y = { x with bwin := v.setWidth 7 }) ∧
  (d = 0x61 → y = { x with bits := y.bits } ∧ ∀ i, y.bits.getLsbD i =
    (if i / 32 = x.bwin.toNat ∧ bitRW i = true then v.getLsbD (i % 32) else x.bits.getLsbD i)) ∧
  (d = 0x62 → y = { x with trap := { x.trap with vec := v.setWidth 15 } }) ∧
  (d = 0x63 → y = { x with trap := { x.trap with etpc := v.setWidth 15 } }) ∧
  (d = 0x64 → y = { x with trap := { x.trap with erpc1 := v.setWidth 15 } }) ∧
  (d = 0x65 → y = { x with trap := { x.trap with erpc2 := v.setWidth 15 } }) ∧
  (d = 0x67 → y = { x with trap := { x.trap with ercnt := v.setWidth 16 } }) ∧
  (d = 0x68 → y = { x with fpctl := v.setWidth 32 &&& 0x71F7 })

/-- A move to one of these stores and triggers nothing: registers, operand latches, BRCOND, the bit window, BWIN, the window as a whole, the trap registers, FPCTL (Table 6.3). -/
def storing (d : Nat) : Prop :=
  d ≤ 0x10 ∨ d = 0x20 ∨ d = 0x24 ∨ d = 0x2E ∨ d = 0x2F ∨ d = 0x38 ∨ d = 0x39 ∨ d = 0x3B ∨ (0x40 ≤ d ∧ d ≤ 0x65) ∨ d = 0x67 ∨ d = 0x68

end Sys2Proof.Cert

/-- MOVE and EVQ_READ (Table 6.3, R176, R178, R194): a move to a storing destination sets it and nothing else; from EVQ it also takes the front event, and events that waited for room enter the queue (R199). A word of a request that does not submit it is kept (R200, R201). -/
def Sys2Proof.Cert.MovesStore : Prop :=
  ∀ (s : State) (e : LeId) (d : Nat) (v : W64),
    let x := (s.atStep e.val).le e.val
    (Moves s e d v → storing d → ∃ y, Stores d v x y ∧ Does s e (.move e true) (fun _ => y) 1 none) ∧
    (NoReturnDue (s.atStep e.val) e.val → storing d → (∃ w, Executes s e.val w v ∧ dstOf w = d ∧ srcOf w = 0x6C) →
      ∃ rest z y, x.evq = v :: rest ∧ Stores d v z y ∧ Does s e (.evqRead e true) (fun _ => y) 1 none ∧
        z = { x with evq := z.evq, evBy := z.evBy, evWait := z.evWait } ∧ rest <+: z.evq ∧ (x.evWait = [] → z.evq = rest ∧ z.evWait = [])) ∧
    (Moves s e 0x6D v → x.rqCh = none → Does s e (.move e true) (fun y => { y with rqCh := some v }) 1 none) ∧
    (Moves s e 0x6E v → x.rqGal.length < 3 → Does s e (.move e true) (fun y => { y with rqGal := y.rqGal ++ [v] }) 1 none) ∧
    (Moves s e 0x6F v → x.rqCph.length < 3 → Does s e (.move e true) (fun y => { y with rqCph := y.rqCph ++ [v] }) 1 none)

/-- Sources (Table 6.2): what a move reads from each port, in every state. -/
def Sys2Proof.Cert.SourcesRead : Prop :=
  ∀ (s : State) (e : LeId),
    let x := s.le e.val
    (∀ p, p < 0x10 → s.srcRead e.val p = Sp.look x.g 0 p) ∧
    (∀ p, 0x10 ≤ p → p < 0x20 → s.srcRead e.val p = BitVec.ofNat 64 (p - 0x10)) ∧
    s.srcRead e.val 0x20 = x.ports.alu ∧ s.srcRead e.val 0x21 = x.ports.mul ∧ s.srcRead e.val 0x22 = x.ports.fadd ∧
    s.srcRead e.val 0x23 = x.ports.fmul ∧ s.srcRead e.val 0x24 = x.ports.fcmp ∧ s.srcRead e.val 0x25 = x.ports.fcvt ∧
    s.srcRead e.val 0x26 = x.ports.lsu ∧ s.srcRead e.val 0x27 = x.lat.lsuAddr.setWidth 64 ∧ s.srcRead e.val 0x28 = x.ports.lou0 ∧
    s.srcRead e.val 0x29 = x.ports.lou1 ∧ s.srcRead e.val 0x2A = x.brLink.setWidth 64 ∧
    (∀ k, k < 32 → s.srcRead e.val (0x40 + k) = if x.bit (32 * x.bwin.toNat + k) then 1 else 0) ∧
    (∀ k, k < 32 → (s.srcRead e.val 0x61).getLsbD k = x.bit (32 * x.bwin.toNat + k)) ∧ (s.srcRead e.val 0x61).toNat < 2 ^ 32 ∧
    s.srcRead e.val 0x60 = x.bwin.setWidth 64 ∧ s.srcRead e.val 0x62 = x.trap.vec.setWidth 64 ∧ s.srcRead e.val 0x63 = x.trap.etpc.setWidth 64 ∧
    s.srcRead e.val 0x64 = x.trap.erpc1.setWidth 64 ∧ s.srcRead e.val 0x65 = x.trap.erpc2.setWidth 64 ∧
    s.srcRead e.val 0x66 = x.trap.ecause.setWidth 64 ∧ s.srcRead e.val 0x67 = x.trap.ercnt.setWidth 64 ∧
    s.srcRead e.val 0x68 = x.fpctl.setWidth 64 ∧ s.srcRead e.val 0x69 = BitVec.ofNat 64 s.tick ∧ s.srcRead e.val 0x6A = x.steps ∧
    s.srcRead e.val 0x6B = x.work ∧ (∀ v r, x.evq = v :: r → s.srcRead e.val 0x6C = v) ∧
    s.srcRead e.val 0x6D = BitVec.ofNat 64 (8 - x.chQ.length) ∧ s.srcRead e.val 0x6E = BitVec.ofNat 64 (8 - x.galQ.length) ∧
    s.srcRead e.val 0x6F = BitVec.ofNat 64 (8 - x.cphQ.length) ∧ s.srcRead e.val 0x7E = x.limm

/-- Branches (R188, R189, R204, Table 6.3): BR.IF takes its target when the bit it names has the value it asks for; a target falls due two fetch units later; BR.CALL also records the fetch unit after the two delay units. -/
def Sys2Proof.Cert.BranchWords : Prop :=
  ∀ (s : State) (e : LeId) (v : W64),
    let r := s.atStep e.val
    let x := r.le e.val
    let i := (x.lat.brCond.setWidth 12).toNat
    (Moves s e 0x3C v → Does s e (.brIf e true) id 1 (if x.bit i = x.lat.brCond.getLsbD 12 then some (.to (v.setWidth 15)) else none)) ∧
    (Moves s e 0x3D v → Does s e (.brJump e true) id 1 (some (.to (v.setWidth 15)))) ∧
    (Moves s e 0x3E v → Does s e (.brCall e true) (fun y => { y with brLink := r.unitAfter (r.unitAfter (r.unitAfter x.pc)) }) 1
      (some (.to (v.setWidth 15)))) ∧
    (Moves s e 0x3F v → Does s e (.brEret e true) id 1 (some .eret))

/-- Control words (Table 6.4, R182, R183): IMMX builds the long immediate from its run of six-bit pieces, the highest first; NOP, ENTRY and a WAIT.LONG that need not wait only go on; a barrier freezes while something is pending. -/
def Sys2Proof.Cert.ControlWords : Prop :=
  ∀ (s : State) (e : LeId) (w : Nat),
    let r := s.atStep e.val
    let x := r.le e.val
    (∀ n, n < 0x40 → w = 0x3F80 + n → Controls s e w →
      NextIs (exec (.immx e true) s) (fun t => StepTo r t e.val
        { x with limm := (if x.immx then x.limm <<< 6 else 0) ||| BitVec.ofNat 64 n, immx := true, mustEntry := false, freeze := none } 1 none)) ∧
    (w = 0x3FFF → Controls s e w → Does s e (.nop e true) id 1 none) ∧
    (w = 0x3FD2 → Controls s e w → Does s e (.entry e true) id 1 none) ∧
    (w = 0x3FD6 → Controls s e w → x.bits.getLsbD 5 = true ∧ Does s e (.waitLong e true) id 1 none) ∧
    (w = 0x3FD4 → Controls s e w → x.openLoads = [] → x.openStores = false → Does s e (.barOrder e true) id 1 none) ∧
    (w = 0x3FD4 → Controls s e w → x.openLoads ≠ [] ∨ x.openStores = true →
      NextIs (exec (.barOrder e true) s) (fun t => (t.le e.val).barrier = some (false, s.tick) ∧ (t.le e.val).freeze = some (5, s.tick) ∧
        (t.le e.val).steps = x.steps + 1 ∧ (t.le e.val).g = x.g ∧ t.bytes = r.bytes ∧ Order x (t.le e.val) 1 none)) ∧
    (w = 0x3FD5 → Controls s e w →
      NextIs (exec (.barDone e true) s) (fun t => (t.le e.val).barrier = some (true, s.tick) ∧ (t.le e.val).freeze = some (5, s.tick) ∧
        (t.le e.val).steps = x.steps + 1 ∧ (t.le e.val).g = x.g ∧ t.bytes = r.bytes ∧ Order x (t.le e.val) 1 none))

/-- REPEAT (R190): the fetch unit that follows is executed 1 to 16 times, or as often as register Gm says, at most 65,535 times; a count of zero skips it. -/
def Sys2Proof.Cert.RepeatWords : Prop :=
  ∀ (s : State) (e : LeId) (w : Nat),
    let r := s.atStep e.val
    let x := r.le e.val
    let plain := x.rep = none ∧ x.p0 = none ∧ x.p1 = none
    let skipped := fun (t : State) (len : BitVec 15) (n : Nat) =>
      if n = 0 then (t.le e.val).pc = r.unitAfter (x.pc + len) ∧ (t.le e.val).rep = none
      else (t.le e.val).pc = x.pc + len ∧ (t.le e.val).rep = some (n, n)
    (∀ k, 1 ≤ k → k ≤ 16 → w = 0x3FC0 + (k - 1) → Controls s e w → plain →
      NextIs (exec (.repeatN e true) s) (fun t => skipped t 1 k ∧ (t.le e.val).p0 = none ∧ (t.le e.val).p1 = none ∧ (t.le e.val).g = x.g ∧
        (t.le e.val).steps = x.steps + 1 ∧ t.bytes = r.bytes)) ∧
    (w = 0x3FD0 → Controls s e w → plain →
      let m := r.progWord (x.pc + 1).toNat
      m < 16 ∧ NextIs (exec (.repeatG e true) s) (fun t => skipped t 2 (min (Sp.look x.g 0 m).toNat 65535) ∧ (t.le e.val).p0 = none ∧
        (t.le e.val).p1 = none ∧ (t.le e.val).g = x.g ∧ (t.le e.val).steps = x.steps + 1 ∧ t.bytes = r.bytes))

/-- A return from a trap that falls due (R204): operand latches, result ports, LDONE and LFAIL are restored, INTRAP is cleared, the word at ERPC1 is executed ERCNT times (once when ERCNT is 0), and the word at ERPC2 follows; the engine freezes with cause 7 (Table 6.5), and a long operation the handler began runs on unseen (R203). -/
def Sys2Proof.Cert.TrapReturns : Prop :=
  ∀ (s : State) (e : LeId) (v : TrapSave),
    let r := s.atStep e.val
    let x := r.le e.val
    (∃ u, Executes s e.val 0x3FFF u) → x.p0 = some .eret → x.p1 = none → x.rep = none → x.tsave = some v →
      NextIs (exec (.nop e true) s) (fun t =>
        let y := t.le e.val
        y.pc = x.trap.erpc1 ∧ y.p0 = some (.to x.trap.erpc2) ∧ y.p1 = none ∧
        y.rep = (if x.trap.ercnt = 0 then none else some (x.trap.ercnt.toNat, 0)) ∧ y.lat = v.lat ∧ y.ports = v.ports ∧ y.tsave = none ∧
        y.bits.getLsbD 26 = false ∧ y.bits.getLsbD 5 = v.ldone ∧ y.bits.getLsbD 7 = v.lfail ∧
        (∀ i, i ≠ 26 → i ≠ 5 → i ≠ 7 → y.bits.getLsbD i = x.bits.getLsbD i) ∧ y.g = x.g ∧ t.bytes = r.bytes ∧
        (∀ o, x.lou = some o → ∃ o', y.lou = some o' ∧ o'.hidden = true ∧ o'.code = o.code ∧ o'.a = o.a ∧ o'.b = o.b) ∧
        (x.bits.getLsbD 26 = true → y.freeze = some (7, s.tick)))


/-! ## Engines: loads and stores (06, 09, 10) -/

namespace Sys2Proof.Cert

/-- LD8 to LD64 and ST8 to ST64 by the exponent of their size. -/
def loadRow (e : LeId) (k : Nat) : Instr := if k = 0 then .ld8 e true else if k = 1 then .ld16 e true else if k = 2 then .ld32 e true else .ld64 e true
def storeRow (e : LeId) (k : Nat) : Instr := if k = 0 then .st8 e true else if k = 1 then .st16 e true else if k = 2 then .st32 e true else .st64 e true

/-- The LSU address after an access of n bytes: it steps on in the auto-increment form (R181). -/
def stepped (l : Latches) (n : Nat) : Latches := if l.lsuAuto then { l with lsuAddr := l.lsuAddr + BitVec.ofNat 48 n } else l

/-- The engine after a load of n bytes: the load is in flight for four steps and carries POISON (bit 9, R185, R194). -/
def loaded (x : Eng) (n : Nat) (v : W64) (poison : Bool) (wait : Option (Nat × Nat)) : Eng :=
  { x with
    lat := stepped x.lat n, immx := false, mustEntry := false, freeze := none
    flight := x.flight ++ [⟨4, .lsu, v, if poison then 0x200 else 0, if poison then 0x200 else 0, wait⟩] }

/-- Cluster c has asked the home for a sector: its request waits, or a transaction serves it. -/
def Asked (t : State) (c a : Nat) : Prop :=
  (∃ q ∈ t.coh.reqs, q.r = c ∧ q.a = a) ∨ ∃ x ∈ (t.home (homeOf a)).txns, x.req.r = c ∧ x.req.a = a

end Sys2Proof.Cert

/-- LD8 to LD64 from a scratch bank that is on and from a Landing sector held in the L2 (R180, R181, R185, R282, R273): the little-endian bytes at the LSU address plus T, zero-extended, four steps later, with the word's or sector's poison; a sector the cluster does not hold is asked for, and the result waits for it (R186). -/
def Obligations.LoadsRead : Prop :=
  ∀ (s : State) (e : LeId) (k : Nat) (v : W64), k < 4 → Moves s e (0x30 + k) v →
    let r := s.atStep e.val
    let x := r.le e.val
    let c := e.val / 8
    let n := 2 ^ k
    let a := (x.lat.lsuAddr.setWidth 64 + v).toNat
    let sn := a / 64
    x.ownStore c a n = none →
    (∀ j, zoneOf c a = .scratch j → r.bankState j (scrBank (canon c a)) = 0 → Sp.look r.ecc 0 (canon c a / 8 * 8) = 0 →
      NextIs (exec (loadRow e k) s) (fun t => StepTo r t e.val
        (loaded x n (BitVec.ofNat 64 (leNat (Memory.getN r.bytes (canon c a) n))) (Sp.look r.poison false (canon c a / 8 * 8)) none) 1 none)) ∧
    (zoneOf c a = .landing → (r.memCl c).l2State = 1 → (r.l1 c (r.leSlot e.val)).enable = false → ((r.memCl c).sector sn).st ≠ .I → ((r.memCl c).sector sn).hpa = 0 →
      ((r.memCl c).sector sn).bad = 0 → (∀ j, j < 9 → (r.l1 c j).block (sn / 4) = none) →
      NextIs (exec (loadRow e k) s) (fun t => t.le e.val = { loaded x n
          (BitVec.ofNat 64 (((r.memCl c).sector sn).data.toNat / 2 ^ (8 * (a % 64)) % 2 ^ (8 * n))) ((r.memCl c).sector sn).poison none with
            pc := (t.le e.val).pc, p0 := (t.le e.val).p0, p1 := (t.le e.val).p1, rep := (t.le e.val).rep, freeze := none
            flight := (t.le e.val).flight, steps := x.steps + 1, stepSeq := x.stepSeq + 1 } ∧
        (t.le e.val).flight = closer (loaded x n
          (BitVec.ofNat 64 (((r.memCl c).sector sn).data.toNat / 2 ^ (8 * (a % 64)) % 2 ^ (8 * n))) ((r.memCl c).sector sn).poison none).flight ∧
        Order x (t.le e.val) 1 none ∧ t.bytes = r.bytes)) ∧
    (zoneOf c a = .landing → ((r.memCl c).sector sn).st = .I → ((r.memCl c).l2State = 1 ∨ ∀ j, j < 9 → (r.l1 c j).block (sn / 4) = none) →
      NextIs (exec (loadRow e k) s) (fun t => (t.le e.val).flight = closer (loaded x n 0 false (some (a, n))).flight ∧ Asked t c sn ∧
        (t.le e.val).lat = stepped x.lat n ∧ Order x (t.le e.val) 1 none ∧ t.bytes = r.bytes))

/-- ST8 to ST64 to a scratch bank that is on (R180, R181, R282, R284): the low bytes of the value at the LSU address, little-endian; every other byte of memory, every other engine and everything outside the engines and the scratch stay. -/
def Sys2Proof.Cert.StoresToScratch : Prop :=
  ∀ (s : State) (e : LeId) (k j : Nat) (v : W64), k < 4 → Moves s e (0x34 + k) v →
    let r := s.atStep e.val
    let x := r.le e.val
    let n := 2 ^ k
    let a := canon (e.val / 8) x.lat.lsuAddr.toNat
    zoneOf (e.val / 8) x.lat.lsuAddr.toNat = .scratch j → r.bankState j (scrBank a) = 0 →
      NextIs (exec (storeRow e k) s) (fun t =>
        (∀ i, i < n → Memory.get t.bytes (a + i) = v.extractLsb' (8 * i) 8) ∧
        (∀ b, b < a ∨ a + n ≤ b → Memory.get t.bytes b = Memory.get r.bytes b) ∧
        (n = 8 → Sp.look t.poison false a = false) ∧ (n < 8 → t.poison = r.poison) ∧
        t.le e.val = { x with
          lat := stepped x.lat n, immx := false, mustEntry := false, flight := closer x.flight, freeze := none
          pc := (t.le e.val).pc, p0 := (t.le e.val).p0, p1 := (t.le e.val).p1, rep := (t.le e.val).rep
          steps := x.steps + 1, stepSeq := x.stepSeq + 1 } ∧
        Order x (t.le e.val) 1 none ∧ (∀ i, i ≠ e.val → t.le i = r.le i) ∧
        t = { r with eng := t.eng, bytes := t.bytes, poison := t.poison, ecc := t.ecc, flt := t.flt })

/-- ST8 to ST64 to a Landing sector the cluster does not hold, and to host memory (R308, R310, R290): the store waits in the store buffer and the home is asked; no byte of memory changes yet. A host store is a write request with its bytes and mask. -/
def Sys2Proof.Cert.StoresAreBuffered : Prop :=
  ∀ (s : State) (e : LeId) (k : Nat) (v : W64), k < 4 → Moves s e (0x34 + k) v →
    let r := s.atStep e.val
    let x := r.le e.val
    let c := e.val / 8
    let n := 2 ^ k
    let a := x.lat.lsuAddr.toNat
    let posted := fun (t : State) => (t.le e.val).stores = x.stores ++ [⟨a, n, v, s.tick, false⟩] ∧ (t.le e.val).lat = stepped x.lat n ∧
      (t.le e.val).steps = x.steps + 1 ∧ Order x (t.le e.val) 1 none ∧ t.bytes = r.bytes
    (zoneOf c a = .landing → ((r.memCl c).sector (a / 64)).st = .I → ((r.memCl c).l2State = 1 ∨ ∀ j, j < 9 → (r.l1 c j).block (a / 64 / 4) = none) →
      NextIs (exec (storeRow e k) s) (fun t => posted t ∧ Asked t c (a / 64))) ∧
    (zoneOf c a = .host → NextIs (exec (storeRow e k) s) (fun t => posted t ∧ ∃ q ∈ t.coh.reqs, q.kind = .wrInv ∧ q.r = c ∧ q.a = a / 64 ∧
      q.engine = some e.val ∧ (∀ i, i < 64 → q.mask.getLsbD i = decide (a % 64 ≤ i ∧ i < a % 64 + n)) ∧
      ∀ i, i < n → q.data.extractLsb' (8 * (a % 64 + i)) 8 = v.extractLsb' (8 * i) 8))

/-! ## Engines: long operations (07) -/

namespace Sys2Proof.Cert

/-- The codes of Table 7.8 with their rows. -/
def louRows : List (Nat × (LeId → Instr)) :=
  [(0x01, fun e => .divu e true), (0x02, fun e => .divs e true), (0x03, fun e => .fdivD e true), (0x04, fun e => .fdivS e true),
    (0x05, fun e => .fsqrtD e true), (0x06, fun e => .fsqrtS e true), (0x07, fun e => .crc32c e true), (0x08, fun e => .bcmp e true),
    (0x09, fun e => .bscan e true), (0x0A, fun e => .popcnt e true), (0x10, fun e => .tlActivate e true), (0x11, fun e => .tlMark e true),
    (0x12, fun e => .tlCommit e true), (0x13, fun e => .tlFail e true)]

/-- The engine with a long operation in flight: its operands are those of the latches at LOU.GO, and LDONE (bit 5) is 0 (R226). -/
def going (x : Eng) (v : W64) (now : Nat) : Eng :=
  { x with
    lou := some ⟨v.setWidth 8, 256 ≤ v.toNat, x.lat.louA, x.lat.louB, x.fpctl, now, false, false⟩
    bits := x.bits &&& ~~~ (1#4096 <<< 5) }

/-- The freeze that LOU.GO of code v leaves: cause 6 for an FP operation while an FP trap is enabled (R206). -/
def heldFor (s : State) (e : LeId) (v : W64) : Option (Nat × Nat) :=
  if 3 ≤ v.toNat ∧ v.toNat ≤ 6 ∧ ((s.atStep e.val).le e.val).fpctl &&& 0x1F4 ≠ 0 then some (6, s.tick) else none

/-- Engine e's long operation o may end: the engine runs it, no freeze pauses the sequencer (R227), no patch word is being rewritten (R234), and no trap handler left it behind (R203). -/
structure LongRuns (s : State) (e : LeId) (o : LongOp) : Prop where
  live : s.live = true
  service : s.inService e.val = true
  running : (s.le e.val).running = true
  op : (s.le e.val).lou = some o
  shown : o.hidden = false
  store : (s.pe (s.peOf e.val)).louBad = none
  free : ∀ c t, (s.le e.val).freeze = some (c, t) → c = 3 ∨ c = 6

/-- The operation of code c ends with these results (R226, R229): LOU.OUT0, LOU.OUT1, LFAIL (bit 7), sticky flags; LDONE (bit 5) is 1. -/
def LongEnds (s : State) (e : LeId) (host : HostIn) (o0 o1 : W64) (fail : Bool) (sets : W32) : Prop :=
  NextIs (exec (.longOpComplete e host none) s) (fun t =>
    let x := s.le e.val
    let y := t.le e.val
    y.lou = none ∧ y.ports = { x.ports with lou0 := o0, lou1 := o1 } ∧ y.bits.getLsbD 5 = true ∧ y.bits.getLsbD 7 = fail ∧
      (∀ i, i ≠ 5 → i ≠ 7 → y.bits.getLsbD i = (x.bits.getLsbD i || sets.getLsbD i)) ∧ y.g = x.g ∧ y.pc = x.pc ∧ y.steps = x.steps ∧
      y.lat = x.lat ∧ y.evq = x.evq ∧ t.bytes = s.bytes)

/-- No check bit anywhere is inverted and unnoticed. -/
def clean (s : State) : Prop := ∀ a, Sp.look s.ecc 0 a = 0

/-- The n bytes at `a` lie in scratch banks that are on and that engine e may read, unpoisoned, and no store of the engine to them waits. -/
structure ScratchBytes (s : State) (e : LeId) (a n : Nat) : Prop where
  zone : ∀ k, k < n → ∃ j, zoneOf (e.val / 8) (a + k) = .scratch j ∧ s.bankState j (scrBank (canon (e.val / 8) (a + k))) = 0
  may : ∀ k, k < n → s.engByteOk e.val (a + k) false = true
  good : ∀ k, k < n → Sp.look s.poison false (canon (e.val / 8) (a + k) / 8 * 8) = false
  stored : (s.le e.val).ownStore (e.val / 8) a n = none

/-- Byte k of a scratch range as the engine reads it. -/
def scr (s : State) (e : LeId) (a k : Nat) : Byte := Memory.get s.bytes (canon (e.val / 8) (a + k))

end Sys2Proof.Cert

/-- LOU.GO (R226, R228): each code starts its operation with the operands latched, LDONE goes to 0, and the program goes on; a value that Table 7.8 does not assign starts one that ends with BADARG. -/
def Sys2Proof.Cert.LongOperationsStart : Prop :=
  ∀ (s : State) (e : LeId) (v : W64), Moves s e 0x3A v →
    (∀ p ∈ louRows, v.toNat = p.1 →
      NextIs (exec (p.2 e) s) (fun t => StepTo (s.atStep e.val) t e.val
        { going ((s.atStep e.val).le e.val) v s.tick with immx := false, mustEntry := false, freeze := heldFor s e v } 1 none)) ∧
    ((∀ p ∈ louRows, v.toNat ≠ p.1) →
      NextIs (exec (.louBadarg e true) s) (fun t => StepTo (s.atStep e.val) t e.val
        { going ((s.atStep e.val).le e.val) v s.tick with immx := false, mustEntry := false, freeze := none } 1 none))

/-- DIVU and DIVS (R217): quotient and remainder; DIVS truncates towards zero and its remainder has the dividend's sign; division by zero gives all ones and the dividend, and is no failure. -/
def Obligations.DivisionResults : Prop :=
  ∀ (s : State) (e : LeId) (o : LongOp) (host : HostIn), LongRuns s e o → s.codeRuns o = true →
    (o.code = 0x01 → if o.b = 0 then LongEnds s e host (BitVec.allOnes 64) o.a false 0 else LongEnds s e host (o.a / o.b) (o.a % o.b) false 0) ∧
    (o.code = 0x02 → if o.b = 0 then LongEnds s e host (BitVec.allOnes 64) o.a false 0
      else LongEnds s e host (BitVec.ofInt 64 (o.a.toInt.tdiv o.b.toInt)) (BitVec.ofInt 64 (o.a.toInt.tmod o.b.toInt)) false 0)

/-- BSCAN, POPCNT, the FP long operations and a bad argument (Table 7.8, R228, R229, R232). -/
def Sys2Proof.Cert.BitAndFpLongResults : Prop :=
  ∀ (s : State) (e : LeId) (o : LongOp) (host : HostIn), LongRuns s e o →
    (s.codeRuns o = true → o.code = 0x09 → ∃ lo hi : Nat, LongEnds s e host (BitVec.ofNat 64 lo) (BitVec.ofNat 64 hi) false 0 ∧
      (o.a = 0 → lo = 64 ∧ hi = 64) ∧ (o.a ≠ 0 → o.a.getLsbD lo = true ∧ o.a.getLsbD hi = true ∧
        (∀ i, i < lo → o.a.getLsbD i = false) ∧ ∀ i, hi < i → o.a.getLsbD i = false)) ∧
    (s.codeRuns o = true → o.code = 0x0A →
      LongEnds s e host (BitVec.ofNat 64 ((List.range 64).countP (fun i => o.a.getLsbD i))) 0 false 0) ∧
    (∀ c k, s.codeRuns o = true → o.code = c → (c = 3 ∧ k = 3 ∨ c = 5 ∧ k = 4) →
      let r := fpD.op k (o.fpctl &&& 3).toNat o.a.toNat (if k = 3 then o.b.toNat else 0)
      LongEnds s e host (BitVec.ofNat 64 r.val) 0 false (sticky r)) ∧
    (∀ c k, s.codeRuns o = true → o.code = c → (c = 4 ∧ k = 3 ∨ c = 6 ∧ k = 4) →
      let r := fpS.op k (o.fpctl &&& 3).toNat (o.a.setWidth 32).toNat (if k = 3 then (o.b.setWidth 32).toNat else 0)
      LongEnds s e host (BitVec.ofNat 64 r.val) 0 false (sticky r)) ∧
    (o.badArg = true ∨ (∀ p ∈ louRows, o.code.toNat ≠ p.1) ∨ s.codeRuns o = false → (s.le e.val).longMayRead (e.val / 8) o = true →
      LongEnds s e host 0 4 true 0)

/-- CRC32C and BCMP over scratch (R228, R230, Table 7.8): the CRC of the bytes from the given start value; the first difference with both bytes, or the length when there is none; a length out of range is a bad argument. -/
def Sys2Proof.Cert.CrcAndCompareResults : Prop :=
  ∀ (s : State) (e : LeId) (o : LongOp), LongRuns s e o → s.codeRuns o = true → clean s →
    (o.code = 0x07 →
      let n := (o.b.setWidth 32).toNat
      (1 ≤ n → n ≤ 65536 → ScratchBytes s e o.a.toNat n →
        LongEnds s e HostIn.empty ((crc32cFrom (o.b.extractLsb' 32 32) ((List.range n).map (scr s e o.a.toNat))).setWidth 64) 0 false 0) ∧
      (n = 0 ∨ 65536 < n → (s.le e.val).ownStore (e.val / 8) o.a.toNat (o.b.setWidth 17).toNat = none → LongEnds s e HostIn.empty 0 4 true 0)) ∧
    (o.code = 0x08 →
      let n := (o.b.extractLsb' 48 16).toNat + 1
      let y := (o.b.setWidth 48).toNat
      ScratchBytes s e o.a.toNat n → ScratchBytes s e y n →
        ((∀ k, k < n → scr s e o.a.toNat k = scr s e y k) → LongEnds s e HostIn.empty (BitVec.ofNat 64 n) 0 false 0) ∧
        ∀ k, k < n → scr s e o.a.toNat k ≠ scr s e y k → (∀ i, i < k → scr s e o.a.toNat i = scr s e y i) →
          LongEnds s e HostIn.empty (BitVec.ofNat 64 k)
            (BitVec.ofNat 64 (0x10000 + 0x100 * (scr s e o.a.toNat k).toNat + (scr s e y k).toNat)) false 0)

/-- The Tally operations of an engine (Table 4.5, R113, R114, R119): on the entry of its TID, with the outcome in LOU.OUT0; what the channel library commits is what Table 3.5 gives (R81, R82), and it fails with the status of the reason that stopped it (R158, R159, R198; the model's reading, log 99). -/
def Sys2Proof.Cert.TallyOperationResults : Prop :=
  ∀ (s : State) (e : LeId) (o : LongOp) (host : HostIn), LongRuns s e o → s.codeRuns o = true → o.admitted = false →
    let i := tidIdx (s.le e.val).tid
    let n := s.entry i
    let ends := fun (out : Nat) (fail : Bool) (P : State → Prop) => NextIs (exec (.longOpComplete e host none) s) (fun t =>
      (t.le e.val).lou = none ∧ (t.le e.val).ports.lou0 = BitVec.ofNat 64 out ∧ (t.le e.val).bits.getLsbD 5 = true ∧
      (t.le e.val).bits.getLsbD 7 = fail ∧ P t)
    let lib := 0x7000 ≤ (s.le e.val).pc.toNat ∧ n.opc.toNat ≤ 4
    let work := Sp.look s.qm.work none i
    let stopped := fun k => ∃ g, g < 3 ∧ n.names g = true ∧ (s.flow i g).stopKind = k
    let coded := o.code = 0x10 ∨ o.code = 0x11 ∨ o.code = 0x12 ∨ o.code = 0x13
    (coded → n.gen ≠ tidGen (s.le e.val).tid → ends 1 true (fun t => t.tly.entries = s.tly.entries ∧ (t.le e.val).ports.lou1 = 7)) ∧
    (n.gen = tidGen (s.le e.val).tid →
      (o.code = 0x10 → if n.state = .opened then
          ends 0 false (fun t => t.entry i = { n with state := .active, outPend := n.reqMask, engine := BitVec.ofNat 7 e.val })
        else ends 2 true (fun t => t.tly.entries = s.tly.entries)) ∧
      (o.code = 0x11 → if n.state = .active then
          ends 0 false (fun t => t.entry i = { n with
            ckptPc := o.a.setWidth 15, ckptSeq := o.a.extractLsb' 16 16, ckptValid := true, nextSeq := o.a.extractLsb' 32 16, resent := o.b.setWidth 16 })
        else ends 2 true (fun t => t.tly.entries = s.tly.entries)) ∧
      (o.code = 0x12 → if n.state ≠ .active then ends 2 true (fun t => t.tly.entries = s.tly.entries)
        else if n.reqMask &&& ~~~n.ackMask ≠ 0 then ends 3 true (fun t => t.tly.entries = s.tly.entries)
        else ends 0 false (fun t => ∃ r0 r1, t.entry i = { n with state := .committed, result0 := r0, result1 := r1 } ∧
          (¬ lib → r0 = o.a.setWidth 32 ∧ r1 = o.b.setWidth 32) ∧
          (lib → (∀ w, work = some w → r0.toNat = pkN w.pkt 32 4) ∧ (work = none → r0 = 0) ∧
            (n.opc.toNat ≠ 4 → r1.toNat = 0x10000 * n.ackMask.toNat + n.resent.toNat) ∧
            (n.opc.toNat = 4 → ∀ w, work = some w → pkN w.pkt 14 1 % 8 = 0 → r1 = BitVec.ofNat 32 (s.flow i 0).rxBytes)))) ∧
      (o.code = 0x13 → if n.state = .opened ∨ n.state = .active ∨ n.state = .held then
          ends 0 false (fun t => (t.entry i).state = .free ∨ (t.entry i).state = .aborted ∧ (t.entry i).gen = n.gen ∧
            (¬ lib → (t.entry i).result0 = o.b.setWidth 32) ∧ (lib → work = none → (t.entry i).result1 = 0x12) ∧
            (lib → work ≠ none → stopped 2 → (t.entry i).result1 = 0x0D) ∧
            (lib → work ≠ none → ¬ stopped 2 → stopped 3 → (t.entry i).result1 = 0x03))
        else ends 2 true (fun t => t.tly.entries = s.tly.entries)))


/-! ## Engines: requests, DONE, gates (05, 06, 11, 12, 13) -/

namespace Sys2Proof.Cert

/-- An event word (Table 6.6). -/
def event (tid : W32) (kind : BitVec 4) (value : BitVec 25) : W64 := (tid.setWidth 64 <<< 32) ||| (kind.setWidth 64 <<< 28) ||| value.setWidth 64

/-- An event of source k has reached the engine's queue, or waits at its source: 16 shared entries and one of each source's own (R26, R199; the model's reading, log 95). -/
def Posted (x y : Eng) (k : EvSrc) (w : W64) : Prop :=
  if evRoom x.evBy k = true ∧ ∀ p ∈ x.evWait, p.1 ≠ k then y.evq = x.evq ++ [w] ∧ y.evWait = x.evWait
  else y.evq = x.evq ∧ y.evWait = x.evWait ++ [(k, w)]

/-- Field of a request word. -/
def fld (v : W64) (lo n : Nat) : Nat := v.toNat / 2 ^ lo % 2 ^ n

/-- A channel request's control word obeys Table 6.10. -/
def chWordOk (v : W64) : Prop :=
  fld v 38 26 = 0 ∧ fld v 32 2 < 3 ∧
  (fld v 37 1 = 1 → fld v 34 3 = 0 ∧ 1 ≤ fld v 0 25 ∧ fld v 0 25 ≤ 16777216) ∧
  (fld v 37 1 = 0 → fld v 13 3 = 0 ∧ 1 ≤ fld v 0 13 ∧ fld v 0 13 ≤ 4096 ∧ (fld v 34 1 = 1 → fld v 0 13 = 32))

/-- The step of engine e goes on with `P` of its next state, the request words taken. -/
def Submits (s : State) (e : LeId) (c : Instr) (P : State → Prop) : Prop :=
  NextIs (exec c s) (fun t => (t.le e.val).steps = ((s.atStep e.val).le e.val).steps + 1 ∧ Order ((s.atStep e.val).le e.val) (t.le e.val) 1 none ∧
    (t.le e.val).g = ((s.atStep e.val).le e.val).g ∧ (t.le e.val).tid = ((s.atStep e.val).le e.val).tid ∧ P t)

/-- The lengths of a galley request: source, destination and result bytes (R364). -/
def galLens (op ratio len res : Nat) : Nat × Nat × Nat :=
  let packed := galSize ratio * ((len + 4095) / 4096)
  (if op = 0 then len else packed, if op = 0 then packed else len, if res = 0 then 0 else 8)

/-- Galley request words that Table 12.7 allows for an engine of cluster c. -/
def galWordsOk (c : Nat) (w0 w1 w2 w3 : W64) : Prop :=
  let op := fld w3 34 1
  let ratio := fld w3 32 2
  let len := fld w3 0 21
  let n := galLens op ratio len (fld w2 0 48)
  fld w0 48 16 = 0 ∧ fld w2 48 16 = 0 ∧ fld w3 36 28 = 0 ∧ fld w3 21 11 = 0 ∧ (op = 0 → fld w3 35 1 = 0) ∧ ratio ≠ 0 ∧ 1 ≤ len ∧ len ≤ 1048576 ∧
    fld w2 0 48 % 8 = 0 ∧ overlaps c (fld w0 0 48) n.1 (fld w1 0 48) n.2.1 = false ∧ overlaps c (fld w0 0 48) n.1 (fld w2 0 48) n.2.2 = false ∧
    overlaps c (fld w1 0 48) n.2.1 (fld w2 0 48) n.2.2 = false

/-- Cipher request words that Table 11.5 allows. -/
def cphWordsOk (w0 w2 w3 : W64) : Prop :=
  fld w0 48 16 = 0 ∧ fld w2 61 3 = 0 ∧ fld w3 25 7 = 0 ∧ 1 ≤ fld w3 0 25 ∧ fld w3 0 25 ≤ 16777216 ∧ fld w2 48 13 ≤ 4096 ∧
    (2 ≤ fld w3 34 2 → fld w2 48 13 = 0 ∧ fld w3 0 25 % 16 = 0)

/-- A request that engine e makes, with the addresses, tag and world common to both units. -/
def reqOf (r : State) (e : LeId) (op : Nat) (w0 w1 : W64) (len : Nat) : SvcReq :=
  { op := op, src := fld w0 0 48, dst := fld w1 0 48, res := 0, aad := 0, aadLen := 0, len := len, ratio := 0, stream := false, slot := 0
    expGen := 0, iv := 0, ivKind := 1, tag := w1.extractLsb' 48 16, func := r.engFn e.val, secure := r.engSec e.val, engine := some e.val
    tid := (r.le e.val).tid, handle := 0 }

/-- The rows of cipher requests by OP. -/
def cphRow (e : LeId) (op : Nat) : Instr :=
  if op = 0 then .cphSeal e true else if op = 1 then .cphUnseal e true else if op = 2 then .cphRawEncrypt e true else .cphRawDecrypt e true

end Sys2Proof.Cert

/-- RQ.CH, second word (R200, R201, Table 6.10): the request waits while the link's transmit store has no room for its frame (R152, R200); words out of range post BADREQ and do nothing else; a reply buffer is recorded for the group; the frame of a data request is kept for its group and its SEQ counts as handed over. -/
def Obligations.ChannelRequests : Prop :=
  ∀ (s : State) (e : LeId) (a v : W64) (host : HostIn), Moves s e 0x6D v →
    let r := s.atStep e.val
    let x := r.le e.val
    let i := tidIdx x.tid
    let g := fld v 32 2
    let req : ChReq := ⟨x.tid, a, v, r.engFn e.val, r.engSec e.val, decide (0x7000 ≤ x.pc.toNat)⟩
    x.rqCh = some a → x.tid ≠ 0 → x.chQ = [] →
    (r.chFits req = false → Submits s e (.rqCh e true host) (fun t => (t.le e.val).chQ = [req] ∧ t.ch = r.ch ∧ t.tly = r.tly ∧ t.bytes = r.bytes)) ∧
    (r.chFits req = true →
    (¬ chWordOk v → Submits s e (.rqCh e true host) (fun t => Posted x (t.le e.val) .ch (event x.tid 8 1) ∧ (t.le e.val).rqCh = none ∧
      (t.le e.val).chQ = [] ∧ t.ch = r.ch ∧ t.tly.entries = r.tly.entries ∧ t.bytes = r.bytes)) ∧
    (chWordOk v → r.tidLive x.tid = true → (r.entry i).names g = true →
      (r.reqRange e.val a.toNat (if fld v 37 1 = 1 then fld v 0 25 else fld v 0 13) (fld v 37 1 = 1) = false →
        Submits s e (.rqCh e true host) (fun t => Posted x (t.le e.val) .ch (event x.tid 8 5) ∧ t.ch = r.ch ∧ t.bytes = r.bytes)) ∧
      (fld v 37 1 = 1 → r.reqRange e.val a.toNat (fld v 0 25) true = true →
        Submits s e (.rqCh e true host) (fun t => t.flow i g = { r.flow i g with buf := some (a.toNat, fld v 0 25) } ∧
          (∀ j k, ¬ (j = i ∧ k = g) → k < 4 → t.flow j k = r.flow j k) ∧ (t.le e.val).evq = x.evq ∧ t.tly = r.tly ∧ t.bytes = r.bytes)) ∧
      (fld v 37 1 = 0 → fld v 34 1 = 0 → r.reqRange e.val a.toNat (fld v 0 13) false = true → (r.entry i).state = .active →
        Submits s e (.rqCh e true host) (fun t => (∃ f ∈ (t.flow i g).stored, f.f.seq = v.extractLsb' 16 16 ∧ f.f.tid = x.tid ∧ f.f.type = 1 ∧
          f.f.payload.length = fld v 0 13 ∧ f.f.flags.getLsbD 0 = v.getLsbD 35) ∧ fld v 16 16 < (t.flow i g).txNext ∧ (t.le e.val).evq = x.evq))))

/-- GAL.COMPRESS and GAL.EXPAND, fourth word (R354, R364, Table 12.7): words out of range post BADREQ, addresses the engine may not use post it with the access bit, and a good request goes to the coder chosen for the engine, or waits in the engine's queue while the coder has no room or another holds an earlier request of the engine (R366); a held expansion of more than 65,536 bytes ends with NOT_PERMITTED (R69). -/
def Sys2Proof.Cert.GalleyRequests : Prop :=
  ∀ (s : State) (e : LeId) (w0 w1 w2 w3 : W64) (op : Nat) (c : Instr), (op = 0 ∧ c = .galCompress e true ∨ op = 1 ∧ c = .galExpand e true) →
    Moves s e 0x6E w3 → fld w3 34 1 = op →
    let r := s.atStep e.val
    let x := r.le e.val
    let n := galLens op (fld w3 32 2) (fld w3 0 21) (fld w2 0 48)
    let req : SvcReq := { reqOf r e op w0 w1 (fld w3 0 21) with res := fld w2 0 48, ratio := fld w3 32 2, stream := w3.getLsbD 35, ivKind := 0 }
    let may := r.reqRange e.val (fld w0 0 48) n.1 false = true ∧ r.reqRange e.val (fld w1 0 48) n.2.1 true = true ∧
      (fld w2 0 48 ≠ 0 → r.reqRange e.val (fld w2 0 48) 8 true = true)
    x.rqGal = [w0, w1, w2] → x.galQ = [] → x.tid ≠ 0 →
    (¬ galWordsOk (e.val / 8) w0 w1 w2 w3 → Submits s e c (fun t => Posted x (t.le e.val) .gal (event x.tid 8 2) ∧ t.gal = r.gal)) ∧
    (galWordsOk (e.val / 8) w0 w1 w2 w3 → ¬ may → Submits s e c (fun t => Posted x (t.le e.val) .gal (event x.tid 8 6) ∧ t.gal = r.gal)) ∧
    (galWordsOk (e.val / 8) w0 w1 w2 w3 → may → (op = 1 → w3.getLsbD 35 = false → fld w3 0 21 ≤ 65536) →
      ∀ k, r.engCoder (r.engSec e.val) (e.val / 8) = some k →
        let taken := (r.coder k).room e.val = true ∧ (∀ j, j < 64 → j ≠ k → ∀ q ∈ (r.coder j).queue, q.engine ≠ some e.val)
        (taken → Submits s e c (fun t => t.coder k = { r.coder k with queue := (r.coder k).queue ++ [req] } ∧ (t.le e.val).galQ = [] ∧
          (∀ j, j ≠ k → t.coder j = r.coder j) ∧ (t.le e.val).evq = x.evq)) ∧
        (¬ taken → Submits s e c (fun t => (t.le e.val).galQ = [req] ∧ t.gal = r.gal ∧ (t.le e.val).evq = x.evq))) ∧
    (galWordsOk (e.val / 8) w0 w1 w2 w3 → may → op = 1 → w3.getLsbD 35 = false → 65536 < fld w3 0 21 →
      Submits s e c (fun t => ∃ w, Posted x (t.le e.val) .gal w ∧ fld w 28 4 = 7 ∧ fld w 0 8 = 3 ∧ fld w 8 16 = fld w1 48 16 ∧ t.gal = r.gal))

/-- CPH.SEAL, CPH.UNSEAL and the raw operations, fourth word (R332, R334, R342, R343, Table 11.5): a good request goes to the cipher group chosen for the engine; a seal without a transaction IV draws EPOCH, GEN and INVOC of its slot and counts INVOC up; raw operations outside the service states end with MODE. -/
def Sys2Proof.Cert.CipherRequests : Prop :=
  ∀ (s : State) (e : LeId) (w0 w1 w2 w3 : W64) (op k : Nat), Moves s e 0x6F w3 → fld w3 34 2 = op →
    let r := s.atStep e.val
    let x := r.le e.val
    let len := fld w3 0 25
    let base : SvcReq :=
      { reqOf r e op w0 w1 len with
        aad := fld w2 0 48, aadLen := fld w2 48 13, slot := fld w3 36 4, stream := w3.getLsbD 33, expGen := w3.extractLsb' 40 24 }
    let key := r.slot base.keyAt
    let may := r.reqRange e.val base.src (if op = 1 then len + 28 else len) false = true ∧
      r.reqRange e.val base.dst (if op = 0 then len + 28 else len) true = true ∧ (base.aadLen ≠ 0 → r.reqRange e.val base.aad base.aadLen false = true)
    let queued := fun (q : SvcReq) => Submits s e (cphRow e op) (fun t => t.grp k = { r.grp k with queue := (r.grp k).queue ++ [q] } ∧
      (t.le e.val).cphQ = [] ∧ (∀ j, j ≠ k → t.grp j = r.grp j) ∧ (t.le e.val).evq = x.evq)
    x.rqCph = [w0, w1, w2] → x.cphQ = [] → x.tid ≠ 0 →
    (¬ cphWordsOk w0 w2 w3 → Submits s e (cphRow e op) (fun t => Posted x (t.le e.val) .cph (event x.tid 8 3) ∧ t.cph = r.cph)) ∧
    (cphWordsOk w0 w2 w3 → ¬ may → Submits s e (cphRow e op) (fun t => Posted x (t.le e.val) .cph (event x.tid 8 7) ∧ t.cph = r.cph)) ∧
    (cphWordsOk w0 w2 w3 → may → r.engGrp (r.engSec e.val) (e.val / 8) = some k → (r.grp k).room e.val = true →
        (∀ j, j < 64 → j ≠ k → ∀ q ∈ (r.grp j).queue, q.engine ≠ some e.val) →
      (op = 1 → w3.getLsbD 33 = true ∨ len ≤ 65536 → queued base) ∧
      (2 ≤ op → (r.deck.lc = .manufacture ∨ r.deck.lc = .service) → queued base) ∧
      (op = 0 → w3.getLsbD 32 = false → key.type = 0 → queued base) ∧
      (op = 0 → w3.getLsbD 32 = false → key.type ≠ 0 → key.invoc ≠ BitVec.allOnes 40 →
        queued { base with iv := r.deck.epoch ++ key.gen ++ key.invoc } ∧
        Submits s e (cphRow e op) (fun t => t.slot base.keyAt = { key with invoc := key.invoc + 1 }))) ∧
    (cphWordsOk w0 w2 w3 → may → 2 ≤ op → r.deck.lc ≠ .manufacture → r.deck.lc ≠ .service →
      Submits s e (cphRow e op) (fun t => ∃ w, Posted x (t.le e.val) .cph w ∧ fld w 28 4 = 7 ∧ fld w 0 8 = 0x0F ∧ fld w 8 16 = fld w1 48 16 ∧ t.cph = r.cph))

/-- DONE, GATE and RETURN_GATE (R202, R211, R212, R381): DONE freezes the engine until its work is over; a gate call saves the caller's state, clears what R211 clears and goes to the entry in the secure world; where it is denied it puts 0x0E in G0 and goes on; the return gives the caller its state back; each switch freezes the engine with cause 7 (Table 6.5). -/
def Sys2Proof.Cert.DoneAndGates : Prop :=
  ∀ (s : State) (e : LeId),
    let r := s.atStep e.val
    let x := r.le e.val
    (∀ v, Moves s e 0x70 v → NextIs (exec (.done e true) s) (fun t => (t.le e.val).doneAt = some (x.pc, s.tick) ∧
      (t.le e.val).freeze = some (11, s.tick) ∧ (t.le e.val).steps = x.steps + 1 ∧ (t.le e.val).g = x.g ∧ t.bytes = r.bytes)) ∧
    (∀ v a, Executes s e.val 0x3FD1 v → NoReturnDue r e.val → r.gateDenied e.val = false → r.gateTarget e.val = some a →
      NextIs (exec (.gate e true) s) (fun t =>
        let y := t.le e.val
        y.pc = a ∧ y.p0 = none ∧ y.p1 = none ∧ y.rep = none ∧ y.bits.getLsbD 15 = true ∧ y.bits.getLsbD 26 = false ∧
        (∀ k, k < 8 → Sp.look y.g 0 k = Sp.look x.g 0 k) ∧ (∀ k, 8 ≤ k → k < 16 → Sp.look y.g 0 k = 0) ∧ y.lat = Latches.init ∧
        y.ports = Ports.init ∧ y.fpctl = 0 ∧ y.bwin = 0 ∧ y.trap.ercnt = 0 ∧ y.mustEntry = true ∧ y.tid = x.tid ∧ y.micro = none ∧ y.freeze = some (7, s.tick) ∧
        (∀ i, 256 ≤ i → y.bits.getLsbD i = false) ∧
        ∃ v, y.gsave = some v ∧ v.fpctl = x.fpctl ∧ v.bwin = x.bwin ∧ v.trap = x.trap ∧ v.lat = x.lat ∧ v.micro = x.micro ∧
          (∀ k, 8 ≤ k → k < 16 → Sp.look v.g 0 k = Sp.look x.g 0 k))) ∧
    (∀ v, Executes s e.val 0x3FD1 v → NoReturnDue r e.val → r.gateDenied e.val = true →
      Does s e (.gate e true) (fun y => { y with g := Sp.put y.g 0 0 0x0E }) 1 none) ∧
    (∀ v u, Executes s e.val 0x3FD3 u → x.gsave = some v →
      NextIs (exec (.returnGate e true) s) (fun t =>
        let y := t.le e.val
        y.pc = v.pc ∧ y.p0 = v.p0 ∧ y.p1 = v.p1 ∧ y.gsave = none ∧ y.bits.getLsbD 15 = false ∧ y.bits.getLsbD 26 = v.intrap ∧
        (∀ k, k < 8 → Sp.look y.g 0 k = Sp.look x.g 0 k) ∧ (∀ k, 8 ≤ k → k < 16 → Sp.look y.g 0 k = Sp.look v.g 0 k) ∧ y.lat = v.lat ∧
        y.ports = v.ports ∧ y.fpctl = v.fpctl ∧ y.bwin = v.bwin ∧ y.trap = v.trap ∧ y.tid = x.tid ∧ y.rep = v.rep ∧ y.micro = v.micro ∧ y.freeze = some (7, s.tick) ∧
        (∀ i, 256 ≤ i → y.bits.getLsbD i = v.bits.getLsbD i)))


/-! ## Engines: mismatches, traps, dispatch, ends (06, 08) -/

namespace Sys2Proof.Cert

/-- Rows of the instruction set, part 1. -/
def engineRows1 (e : LeId) (ok : Bool) : List Instr :=
  [.move e ok, .evqRead e ok, .aluAdd e ok, .aluSub e ok, .aluAnd e ok, .aluOr e ok, .aluXor e ok, .aluAndn e ok, .aluShl e ok,
    .aluShr e ok, .aluSar e ok, .aluRol e ok, .aluEq e ok, .aluLt e ok, .aluLtu e ok, .aluAddc e ok, .aluSubb e ok, .mulLo e ok,
    .mulHiu e ok, .mulHis e ok]

/-- Rows of the instruction set, part 2. -/
def engineRows2 (e : LeId) (ok : Bool) : List Instr :=
  [.faddD e ok, .fsubD e ok, .faddS e ok, .fsubS e ok, .fmulD e ok, .fmulS e ok, .fcmpD e ok, .fcmpS e ok, .fcvt e ok, .ld8 e ok,
    .ld16 e ok, .ld32 e ok, .ld64 e ok, .st8 e ok, .st16 e ok, .st32 e ok, .st64 e ok, .divu e ok, .divs e ok, .fdivD e ok]

/-- Rows of the instruction set, part 3. -/
def engineRows3 (e : LeId) (ok : Bool) (host : HostIn) : List Instr :=
  [.fdivS e ok, .fsqrtD e ok, .fsqrtS e ok, .crc32c e ok, .bcmp e ok, .bscan e ok, .popcnt e ok, .louBadarg e ok, .tlActivate e ok,
    .tlMark e ok, .tlCommit e ok, .tlFail e ok, .brIf e ok, .brJump e ok, .brCall e ok, .brEret e ok, .rqCh e ok host, .galCompress e ok,
    .galExpand e ok, .cphSeal e ok]

/-- Rows of the instruction set, part 4. -/
def engineRows4 (e : LeId) (ok : Bool) : List Instr :=
  [.cphUnseal e ok, .cphRawEncrypt e ok, .cphRawDecrypt e ok, .done e ok, .immx e ok, .repeatN e ok, .repeatG e ok, .gate e ok,
    .returnGate e ok, .entry e ok, .nop e ok, .barOrder e ok, .barDone e ok, .waitLong e ok]

/-- Every row of the instruction set, with the result of its comparison. -/
def engineRows (e : LeId) (ok : Bool) (host : HostIn) : List Instr := engineRows1 e ok ++ engineRows2 e ok ++ engineRows3 e ok host ++ engineRows4 e ok

/-- Engine e is at a word whose trap condition is `c`. -/
structure Trapping (s : State) (e : LeId) (c : Nat) : Prop where
  may : s.settleParity.mayStep e.val = true
  trap : (s.atStep e.val).trapOf e.val = some c

end Sys2Proof.Cert

/-- A row acts only on a word of its kind: at every word at most one row of the instruction set does anything beyond retiring engines whose sector failed its check, and none does at a word that traps (R175, R205). The engine has no channel request queued: RQ_CH also stands for the queue's next request being taken (R201). -/
def Sys2Proof.Cert.OneRowPerWord : Prop :=
  ∀ (s : State) (e : LeId) (host : HostIn), (s.settleParity.le e.val).chQ = [] →
    (∀ a ∈ engineRows e true host, ∀ b ∈ engineRows e true host, exec a s ≠ .next s.settleParity → exec b s ≠ .next s.settleParity → a = b) ∧
    (((s.atStep e.val).trapOf e.val).isSome = true → ∀ a ∈ engineRows e true host, exec a s = .next s.settleParity)

/-- A mismatch (R248): where a word would commit, a comparison that fails commits nothing and freezes the engine with cause 8. -/
def Sys2Proof.Cert.MismatchFreezes : Prop :=
  ∀ (s : State) (e : LeId) (w : Nat) (v : W64) (host : HostIn), Executes s e.val w v → ((s.atStep e.val).le e.val).chQ = [] →
    ∃ c ∈ engineRows e false host,
      NextIs (exec c s) (fun t => (t.le e.val).freeze = some (8, s.tick) ∧ (t.le e.val).pc = ((s.atStep e.val).le e.val).pc ∧ (t.le e.val).g = ((s.atStep e.val).le e.val).g ∧
        (t.le e.val).steps = ((s.atStep e.val).le e.val).steps ∧ t.bytes = (s.atStep e.val).bytes ∧ t.coh = (s.atStep e.val).coh ∧
        t.ch = (s.atStep e.val).ch ∧ t.tly = (s.atStep e.val).tly)

/-- TRAP_ENTRY (R203-R206, R223): a trap that is not terminal saves the words, the latches and the ports, drains the results in flight, sets INTRAP and goes to TRAPVEC, with ERPC1, ERPC2 and ERCNT naming what was to follow, and freezes for the switch with cause 7 (Table 6.5); a terminal one ends the program and idles the engine. -/
def Sys2Proof.Cert.TrapEntries : Prop :=
  ∀ (s : State) (e : LeId) (c : Nat), Trapping s e c →
    let r := s.atStep e.val
    let x := r.le e.val
    (x.terminal c = false → x.lou = none → x.openLoads = [] →
      NextIs (exec (.trapEntry e) s) (fun t =>
        let y := t.le e.val
        y.pc = x.trap.vec ∧ y.trap.etpc = x.pc ∧ y.trap.ecause = BitVec.ofNat 8 c ∧ y.bits.getLsbD 26 = true ∧ y.flight = [] ∧ y.p0 = none ∧ y.p1 = none ∧
        y.rep = none ∧ y.freeze = some (7, s.tick) ∧ y.g = x.g ∧ y.steps = x.steps ∧ y.trap.vec = x.trap.vec ∧
        (x.rep = none → x.p0 = none → y.trap.erpc1 = r.unitAfter x.pc ∧ (x.p1 = none → y.trap.erpc2 = r.unitAfter (r.unitAfter x.pc)) ∧ y.trap.ercnt = 0) ∧
        (∀ a, x.rep = none → x.p0 = some (.to a) → y.trap.erpc1 = a ∧ (x.p1 = none → y.trap.erpc2 = r.unitAfter a)) ∧
        (∀ n m, x.rep = some (n, m) → 2 ≤ n → y.trap.erpc1 = x.pc ∧ y.trap.ercnt = BitVec.ofNat 16 (n - 1)) ∧
        (c ≠ 4 → y.fpctl = x.fpctl) ∧ (∃ v, y.tsave = some v ∧ v.lat = x.lat ∧ (x.flight = [] → v.ports = x.ports ∧ v.ldone = x.bits.getLsbD 5 ∧ v.lfail = x.bits.getLsbD 7)) ∧ t.bytes = r.bytes)) ∧
    (x.terminal c = true → x.gsave = none →
      NextIs (exec (.trapEntry e) s) (fun t => (t.le e.val).running = false ∧ (t.le e.val).tid = 0 ∧ (t.le e.val).evq = [] ∧
        (t.pe (r.peOf e.val)).trapLog = BitVec.ofNat 64 (x.pc.toNat + c * 2 ^ 24 + x.tid.toNat * 2 ^ 32))) ∧
    (c = 1 ∨ c = 2 → x.terminal c = true)

/-- DISPATCH (R196-R198, Table 6.9): an idle engine of the transaction's cluster and world that has its grant takes a waiting entry; work record, image, trap vector and the dispatch values are set, and the next word must be ENTRY. -/
def Sys2Proof.Cert.DispatchStarts : Prop :=
  ∀ (s : State) (i : TlyIx) (e : LeId) (a : BitVec 15),
    s.live = true → s.isReady = true → s.tly.stopped = false → s.engineIdle e.val = true → s.waitsEngine i.val = true → s.mayServe i.val e.val = true →
    s.dispatchTarget i.val = some a → s.hasGrant 3 (whoBase e.val) = true →
    NextIs (exec (.dispatch i e) s) (fun t =>
      let y := t.le e.val
      y.running = true ∧ y.tid = s.tidAt i.val ∧ y.pc = a ∧ y.mustEntry = true ∧ y.steps = 0 ∧ y.limm = 0 ∧ y.lat = Latches.init ∧ y.ports = Ports.init ∧
      y.fpctl = 0 ∧ y.bwin = 0 ∧ y.evq = [] ∧ y.flight = [] ∧ y.rep = none ∧ y.bits.getLsbD 31 = true ∧ y.bits.getLsbD 5 = true ∧
      (y.bits.getLsbD 14 = (Sp.look s.qm.work none i.val).isSome) ∧ (y.bits.getLsbD 15 = s.secBlock e.val) ∧ y.bits.getLsbD 26 = false ∧
      (∀ k, 256 ≤ k → y.bits.getLsbD k = false) ∧ y.work = Sp.look y.g 0 0 ∧ (∀ k, 8 ≤ k → Sp.look y.g 0 k = 0) ∧
      (∀ w, Sp.look s.qm.work none i.val = some w → Sp.look y.g 0 0 = w.word ∧
        (∀ k, k < 7 → Sp.look y.g 0 (k + 1) = w.pkt.extractLsb' (64 * (k + 1)) 64) ∧
        ∃ w', Sp.look t.qm.work none i.val = some w' ∧ w'.word = w.word ||| (1#64 <<< 60) ∧ w'.pkt = w.pkt) ∧
      ((s.entry i.val).state = .opened → t.entry i.val = s.entry i.val) ∧
      ((s.entry i.val).state = .active → t.entry i.val = { s.entry i.val with engine := BitVec.ofNat 7 e.val }))

/-- PROGRAM_END (R202): once its stores are acknowledged and its requests taken, the engine of a transaction that the program has ended goes idle. -/
def Sys2Proof.Cert.ProgramsEnd : Prop :=
  ∀ (s : State) (e : LeId) (d : BitVec 15 × Nat),
    let x := s.le e.val
    s.live = true → s.inService e.val = true → x.running = true → x.doneAt = some d → x.openLoads = [] → x.stores = [] → x.chQ = [] → x.galQ = [] → x.cphQ = [] →
    NextIs (exec (.programEnd e) s) (fun t =>
      let y := t.le e.val
      y.running = false ∧ y.tid = 0 ∧ y.doneAt = none ∧ y.freeze = none ∧ y.stepSeq = x.stepSeq ∧ y.evq = [] ∧
      ((s.tidLive x.tid = false ∨ (s.entry (tidIdx x.tid)).state ≠ .opened ∧ (s.entry (tidIdx x.tid)).state ≠ .active ∨ x.ended = true) → t.tly.entries = s.tly.entries) ∧
      (s.tidLive x.tid = true → (s.entry (tidIdx x.tid)).state = .opened ∨ (s.entry (tidIdx x.tid)).state = .active → x.ended = false →
        (t.entry (tidIdx x.tid)).state = .aborted ∧ (t.entry (tidIdx x.tid)).result1 = 0x12 ∨ (t.entry (tidIdx x.tid)).state = .free))

/-- BARRIER_COMPLETE, ENDPOINT_TIMEOUT_EXPIRY and QWAIT_EXPIRY (R193, R313, R314): a barrier ends when everything before it is performed, BAR.DONE when it is acknowledged, with BARERR after an abandoned store; a store unacknowledged for ENDPOINT_TIMEOUT is abandoned and its address kept; an EVQ read that has waited QWAIT goes on with 0 and QTIMEOUT. -/
def Sys2Proof.Cert.WaitsOfEnginesEnd : Prop :=
  ∀ (s : State) (e : LeId), s.live = true → s.inService e.val = true → (s.le e.val).running = true →
    let x := s.le e.val
    (∀ b since, x.chQ = [] → x.galQ = [] → x.cphQ = [] → x.openLoads = [] → x.stores = [] → x.barrier = some (b, since) →
      NextIs (exec (.barrierComplete e) s) (fun t =>
        let y := t.le e.val
        y.barrier = none ∧ y.freeze = none ∧ y.bits.getLsbD 6 = (x.bits.getLsbD 6 || (b && x.barErr)) ∧ y.g = x.g ∧ y.pc = x.pc ∧
        (∀ i, i ≠ 6 → y.bits.getLsbD i = x.bits.getLsbD i))) ∧
    (∀ st since, x.barrier = some (true, since) → x.doneAt = none → x.stores = [st] → st.performed = true → s.earlyAck st.addr = false →
      max st.issued since + 100 * s.coh.endpointTo.toNat ≤ s.tick →
      NextIs (exec (.endpointTimeoutExpiry e) s) (fun t => (t.le e.val).stores = [] ∧ (t.le e.val).barErr = true ∧
        (t.pe (s.peOf e.val)).barErrAddr = BitVec.ofNat 64 st.addr ∧ (t.le e.val).pc = x.pc ∧ t.bytes = s.bytes)) ∧
    (∀ w d since, x.chQ = [] → x.galQ = [] → x.cphQ = [] → s.armed (uPe (s.peOf e.val)) 0x300 = false → s.armed (uPe (s.peOf e.val)) 0x10000 = false → x.evq = [] → x.freeze = some (2, since) → since + 100000 * (s.engCl (e.val / 8)).qwait.toNat ≤ s.tick →
      s.mayStep e.val = true → (s.ready e.val).trapOf e.val = none → NoReturnDue (s.ready e.val) e.val →
      (s.ready e.val).wordAt e.val = w → dstOf w = d → d < 0x10 → srcOf w = 0x6C →
      NextIs (exec (.qwaitExpiry e) s) (fun t =>
        let x := (s.ready e.val).le e.val
        let y := t.le e.val
        Sp.look y.g 0 d = 0 ∧ (∀ k, k ≠ d → Sp.look y.g 0 k = Sp.look x.g 0 k) ∧ y.bits.getLsbD 8 = true ∧
        (∀ i, i ≠ 8 → y.bits.getLsbD i = x.bits.getLsbD i) ∧ y.freeze = none ∧ y.steps = x.steps + 1 ∧ Order x y 1 none ∧ t.bytes = s.bytes))

namespace Sys2Proof.Cert

/-- Lane b of engine e is decided faulty in `t` and goes under test; the other leads, and drives again what it may not have seen acknowledged (R249, R251, R252). -/
def LaneUnderTest (s t : State) (e : LeId) (b : Bool) (code : BitVec 2) : Prop :=
  let n := s.peOf e.val
  (t.pe n).testing = some b ∧ (if b then (t.pe n).laneB else (t.pe n).laneA) = 1 ∧ (t.pe n).lead = !b ∧ (t.pe n).persistent = false ∧
  (t.pe n).role = .active ∧ (t.pe n).decided = code ∧ (∃ since, (t.le e.val).freeze = some (8, since)) ∧ (t.le e.val).pc = (s.le e.val).pc ∧
  (t.le e.val).g = (s.le e.val).g ∧ t.bytes = s.bytes ∧
  ((s.pe n).lead = b → (t.pe n).stage = (s.pe n).stage.map (fun x => { x with again := true })) ∧ ((s.pe n).lead = !b → (t.pe n).stage = (s.pe n).stage)

/-- Engine e serves with both lanes, or one, and its repair limit is not reached. -/
structure Repairable (s : State) (e : LeId) : Prop where
  live : s.live = true
  bound : s.inService e.val = true
  role : (s.pe (s.peOf e.val)).role = .active
  tested : (s.pe (s.peOf e.val)).testing = none
  stays : (s.pe (s.peOf e.val)).migrating = false
  repairs : (s.pe (s.peOf e.val)).repairs.toNat < (s.engCl (e.val / 8)).repairLimit.toNat

end Sys2Proof.Cert

/-- Corrections (R177, R234) and ENG_CNT_CLEAR (R213): a program word whose check bits do not match freezes its engine with cause 10 until it has been rewritten, which an F1 record reports; a patch word of the LOU that fails pauses it until its rewrite; a word of the ROM, or a second failure before the rewrite ends, is a fault of the lane that finds it; a single-bit nanoword error is corrected; a PF clears the counters of an engine of the normal world. -/
def Sys2Proof.Cert.EngineRecords : Prop :=
  ∀ (s : State) (e : LeId),
    let n := s.peOf e.val
    let x := s.le e.val
    let a := x.pc.toNat
    let c := e.val / 8
    let logged := fun (t : State) (kind detail : Nat) => ∃ r, t.flt.log.getLast? = some r ∧ r.index = s.flt.next ∧ r.tick = s.tick ∧
      r.source = BitVec.ofNat 16 (0x1000 + n) ∧ r.kind = BitVec.ofNat 8 kind ∧ r.cls = 1 ∧ r.detail = BitVec.ofNat 64 detail
    (s.live = true → s.inService e.val = true → x.running = true →
      (∀ flip lane, s.progFails c a = false → checksOk 7 (BitVec.ofNat 16 (checked 7 (s.progWord a)) ^^^ flip).toNat = false →
        NextIs (exec (.programWordRewrite ⟨e, (.fails flip lane)⟩) s) (fun t => (∃ since, (t.le e.val).freeze = some (10, since)) ∧ t.progFails c a = true ∧
          t.flt = s.flt ∧ (t.le e.val).pc = x.pc ∧ (t.le e.val).g = x.g ∧ (t.le e.val).steps = x.steps)) ∧
      (s.progFails c a = true → NextIs (exec (.programWordRewrite ⟨e, .rewritten⟩) s) (fun t => logged t 0x12 a ∧ t.progFails c a = false ∧
        ((∃ since, x.freeze = some (10, since)) → (t.le e.val).freeze = none) ∧ (t.le e.val).pc = x.pc ∧ (t.le e.val).g = x.g ∧ t.tly.entries = s.tly.entries)) ∧
      (∀ flip lane, s.progFails c a = true → Repairable s e →
        NextIs (exec (.programWordRewrite ⟨e, (.fails flip lane)⟩) s) (fun t => LaneUnderTest s t e lane 1))) ∧
    (∀ place, s.live = true → s.inService e.val = true → x.lou.isSome = true →
      (∀ lane, microPatch place = true → (s.pe n).louBad = none →
        NextIs (exec (.microwordRewrite e (.fails place lane)) s) (fun t => (t.pe n).louBad = some place ∧ (∀ k, t.le k = s.le k) ∧ t.flt = s.flt)) ∧
      ((s.pe n).louBad = some place → NextIs (exec (.microwordRewrite e (.rewritten place)) s) (fun t =>
        logged t 0x12 (microNumber place) ∧ (t.pe n).louBad = none ∧ (∀ k, t.le k = s.le k) ∧ t.tly.entries = s.tly.entries)) ∧
      (∀ lane, microPatch place = false ∨ (s.pe n).louBad = some place → Repairable s e →
        NextIs (exec (.microwordRewrite e (.fails place lane)) s) (fun t => LaneUnderTest s t e lane 1 ∧ (t.pe n).louBad = none)) ∧
      (∀ k, NextIs (exec (.microwordRewrite e (.corrected k)) s) (fun t => logged t 0x14 k.toNat ∧ t.eng = s.eng ∧ t.tly.entries = s.tly.entries))) ∧
    (∀ host micro, s.live = true → (s.pe n).louBad.isSome = true → exec (.longOpComplete e host micro) s = .next s) ∧
    (∀ (p : PortId) (pe : PeId) (val : W32), s.whoOk (.pf p) = true → s.secUnit (uPe pe.val) = false →
      NextIs (exec (.engCntClear p pe val) s) (fun t => t.pe pe.val = { s.pe pe.val with cnt := if val.getLsbD 0 then [] else (s.pe pe.val).cnt } ∧
        (∀ n, n ≠ pe.val → t.pe n = s.pe n) ∧ t.flt = s.flt))

/-! ## Engines: lanes, spares, transports (08) -/

/-- LANE_RETRY and LANE_RESYNC_COMPLETE (R248, R251): a retry that mismatches counts, and at RETRY_LIMIT the mismatch is persistent; a lane resynchronised goes back to service as the proof lane, its repair counted and reported, and the engine resumes. -/
def Sys2Proof.Cert.LaneRetriesAndResync : Prop :=
  (∀ (s : State) (e : LeId) (since : Nat),
    let n := s.peOf e.val
    let p := s.pe n
    s.live = true → s.inService e.val = true → (s.le e.val).running = true → (s.le e.val).freeze = some (8, since) → p.role = .active → p.testing = none →
    p.migrating = false → p.persistent = false → p.retryNow.toNat < 7 →
    NextIs (exec (.laneRetry e false) s) (fun t => (t.pe n).retryNow = p.retryNow + 1 ∧
      (t.pe n).persistent = decide ((s.engCl (e.val / 8)).retryLimit.toNat ≤ p.retryNow.toNat + 1) ∧ (t.le e.val) = s.le e.val ∧ t.bytes = s.bytes)) ∧
  (∀ (s : State) (pe : PeId) (lane : Bool), s.on = true → (s.pe pe.val).testing = some lane → (if lane then (s.pe pe.val).laneB else (s.pe pe.val).laneA) = 2 →
    (s.pe pe.val).logical < 128 →
    NextIs (exec (.laneResyncComplete pe) s) (fun t => (t.pe pe.val).testing = none ∧ (if lane then (t.pe pe.val).laneB else (t.pe pe.val).laneA) = 0 ∧
      (t.pe pe.val).repairs.toNat = min 15 ((s.pe pe.val).repairs.toNat + 1) ∧ (t.pe pe.val).role = (s.pe pe.val).role ∧ (t.pe pe.val).decided = 0 ∧
      (t.pe pe.val).dupLog.toNat / 4096 % 16 = 2 ∧ (t.pe pe.val).dupLog.toNat / 65536 % 65536 = s.stepDue pe.val ∧
      (∃ q, t.flt.log.getLast? = some q ∧ q.index = s.flt.next ∧ q.kind = 0x11 ∧ q.source = BitVec.ofNat 16 (0x1000 + pe.val) ∧
        q.detail.toNat = (if lane then 1 else 0) + 256 * (s.pe pe.val).decided.toNat) ∧
      (t.le (s.pe pe.val).logical).freeze = none ∧ (t.le (s.pe pe.val).logical).pc = (s.le (s.pe pe.val).logical).pc ∧ t.bytes = s.bytes))

/-- A retry that agrees (R248): the failed step is executed and commits, and an F1 report of kind 0x10 and ENG_DUP_LOG name it. -/
def Sys2Proof.Cert.LaneRetryCommits : Prop :=
  ∀ (s : State) (e : LeId) (since : Nat),
    let n := s.peOf e.val
    let p := s.pe n
    let x := s.le e.val
    s.live = true → s.inService e.val = true → x.running = true → x.freeze = some (8, since) → p.role = .active → p.testing = none → p.migrating = false →
    p.persistent = false → s.armed (uPe n) 0x10000 = false → s.armed (uPe n) 0x300 = false → x.flight = [] → x.barrier = none → x.doneAt = none →
    x.rep = none → x.p0 = none → s.wordAt e.val = 0x3FFF → s.trapOf e.val = none → s.blocked e.val = none →
    NextIs (exec (.laneRetry e true) s) (fun t => (t.le e.val).pc = x.pc + 1 ∧ (t.le e.val).steps = x.steps + 1 ∧ (t.le e.val).freeze = none ∧
      (t.pe n).retryNow = 0 ∧ (t.le e.val).g = x.g ∧ t.bytes = s.bytes ∧
      (t.pe n).dupLog.toNat / 4096 % 16 = 1 ∧ (t.pe n).dupLog.toNat / 65536 % 65536 = s.stepDue n ∧
      ∃ q, t.flt.log.getLast? = some q ∧ q.index = s.flt.next ∧ q.kind = 0x10 ∧ q.source = BitVec.ofNat 16 (0x1000 + n) ∧ q.detail.toNat = s.stepDue n)

/-- REFEREE_DECISION and LANE_TEST_COMPLETE (R249-R252, R254): an internal check of one lane, or the referee's signature under its grant, decides the lane that goes under test while the repair limit is not reached; where both lanes fail, or neither agrees with the referee, the engine retires; a lane that passes its test is resynchronised, one that fails retires its engine. -/
def Sys2Proof.Cert.LanesDecided : Prop :=
  (∀ (s : State) (e : LeId), Repairable s e →
    let n := s.peOf e.val
    (∀ b ref shadow, NextIs (exec (.refereeDecision e (!b) b ⟨ref, shadow⟩) s) (fun t => LaneUnderTest s t e b 1)) ∧
    (∀ ref shadow, NextIs (exec (.refereeDecision e true true ⟨ref, shadow⟩) s) (fun t => (t.pe n).role = .retired)) ∧
    (∀ shadow, (s.pe n).persistent = true → (s.pe n).referee = true → s.hasGrant 2 (whoReferee (e.val / 8)) = true → s.injFired (uPe n) = false →
      NextIs (exec (.refereeDecision e false false ⟨.agreesA, shadow⟩) s) (fun t => LaneUnderTest s t e true 2) ∧
      NextIs (exec (.refereeDecision e false false ⟨.agreesB, shadow⟩) s) (fun t => LaneUnderTest s t e false 2) ∧
      NextIs (exec (.refereeDecision e false false ⟨.neither, shadow⟩) s) (fun t => (t.pe n).role = .retired)) ∧
    (∀ ref shadow, (s.pe n).persistent = true → (s.pe n).referee = false →
      NextIs (exec (.refereeDecision e false false ⟨ref, shadow⟩) s) (fun t => (t.pe n).role = .retired))) ∧
  (∀ (s : State) (pe : PeId) (lane shadow : Bool), s.on = true → (s.pe pe.val).testing = some lane → (if lane then (s.pe pe.val).laneB else (s.pe pe.val).laneA) = 1 →
    NextIs (exec (.laneTestComplete pe ⟨true, shadow⟩) s) (fun t => t.pe pe.val = (s.pe pe.val).setLane lane 2 ∧ (∀ k, t.le k = s.le k) ∧ t.flt = s.flt) ∧
    NextIs (exec (.laneTestComplete pe ⟨false, shadow⟩) s) (fun t => (t.pe pe.val).role = .retired))

/-- MIGRATION_COMPLETE (R255, R257): the spare serves the logical engine, the retired engine serves none, and the engine's state goes on unchanged where it was idle. -/
def Sys2Proof.Cert.MigrationsBindTheSpare : Prop :=
  ∀ (s : State) (e : LeId) (m : Nat),
    let n := s.peOf e.val
    s.live = true → s.inService e.val = true → (s.pe n).migrating = true → s.spareOf (e.val / 8) = some m → m ≠ n → (s.le e.val).running = false →
    NextIs (exec (.migrationComplete e) s) (fun t => t.peOf e.val = 9 * (e.val / 8) + m % 9 ∧ (t.pe m).role = .active ∧ (t.pe m).logical = e.val ∧
      (t.pe n).migrating = false ∧ (t.pe n).logical = 128 ∧ (t.pe m).stepSeq = (s.le e.val).stepSeq ∧
      t.le e.val = { s.le e.val with freeze := none } ∧ (∀ k, k ≠ e.val → t.le k = s.le k) ∧ t.bytes = s.bytes)

/-- TRANSPORT_ACCEPT (R246, R247, R252, R253): a receiving queue accepts a transport of the output stage whose STEPSEQ is 1 to 32,767 ahead of the last it took of that engine, and the entry leaves the stage once both lanes have the acknowledgement; any other copy is a duplicate, dropped and counted. -/
def Sys2Proof.Cert.TransportsAccepted : Prop :=
  ∀ (s : State) (e : LeId) (q : RecvQueue) (seq : W16) (acked : Bool), s.on = true → s.inService e.val = true →
    let n := s.peOf e.val
    let c := e.val / 8
    let key := 8 * e.val + recvCode q
    let here := fun (x : Transport) => x.seq = seq && x.queue = q
    let ahead := ∀ l, Sp.look s.eng.lastSeq none key = some l → 1 ≤ (seq - l).toNat ∧ (seq - l).toNat ≤ 32767
    let left := (s.pe n).stage.filter (fun x => !here x)
    let took := fun (t : State) => Sp.look t.eng.lastSeq none key = some seq ∧ (∀ k, k ≠ key → Sp.look t.eng.lastSeq none k = Sp.look s.eng.lastSeq none k) ∧
      (∀ k, t.le k = s.le k) ∧ t.engCl c = s.engCl c
    let dropped := fun (t : State) => t.eng.lastSeq = s.eng.lastSeq ∧ (t.pe n).stage = left ∧ (∀ k, t.le k = s.le k) ∧
      (s.engSec e.val = true → t.engCl c = s.engCl c) ∧
      (s.engSec e.val = false → (t.engCl c).dupDrop.toNat = min (2 ^ 64 - 1) ((s.engCl c).dupDrop.toNat + 1))
    (∀ x, (s.pe n).stage.find? here = some x →
      (x.accepted = false → ahead → acked = true → NextIs (exec (.transportAccept e q ⟨seq, acked⟩) s) (fun t => took t ∧ (t.pe n).stage = left)) ∧
      (x.accepted = false → ahead → acked = false → NextIs (exec (.transportAccept e q ⟨seq, acked⟩) s) (fun t => took t ∧
        (t.pe n).stage = (s.pe n).stage.map (fun y => if here y then { y with accepted := true } else y))) ∧
      (x.accepted = false → ¬ ahead → NextIs (exec (.transportAccept e q ⟨seq, acked⟩) s) dropped) ∧
      (x.accepted = true → x.again = true → NextIs (exec (.transportAccept e q ⟨seq, acked⟩) s) dropped) ∧
      (x.accepted = true → x.again = false → NextIs (exec (.transportAccept e q ⟨seq, acked⟩) s) (fun t => t.eng.lastSeq = s.eng.lastSeq ∧
        (t.pe n).stage = left ∧ (∀ k, t.le k = s.le k) ∧ t.engCl c = s.engCl c))) ∧
    ((s.pe n).stage.find? here = none → (ahead → exec (.transportAccept e q ⟨seq, acked⟩) s = .next s) ∧
      (¬ ahead → NextIs (exec (.transportAccept e q ⟨seq, acked⟩) s) dropped))

/-! ## Ports, configuration, DOE, SPDM (02, 13, 16) -/

namespace Sys2Proof.Cert

/-- The FLT's latest record after `t` came from `s`: its INDEX, TICK, SOURCE, KIND, class and DETAIL (R394, R397). -/
def Logged (s t : State) (source kind detail : Nat) : Prop :=
  ∃ r, t.flt.log.getLast? = some r ∧ r.index = s.flt.next ∧ r.tick = s.tick ∧ r.source = BitVec.ofNat 16 source ∧ r.kind = BitVec.ofNat 8 kind ∧
    r.cls = BitVec.ofNat 3 (kind / 16) ∧ r.detail = BitVec.ofNat 64 detail

/-- Port p is now x and the other port is as it was. -/
def PortNow (s t : State) (p : PortId) (x : Port) : Prop := t.port p.val = x ∧ ∀ q, q ≠ p.val → t.port q = s.port q

/-- The command changes port p alone, and sends `o`. -/
def PortOnly (s : State) (c : Instr) (p : PortId) (x : Port) (o : List Out) : Prop :=
  NextIs (exec c s) (fun t => PortNow s t p x ∧ t.out = s.out ++ o ∧ t = { s with ports := t.ports, out := t.out })

/-- A port that answers its mailbox: the module is on, the link is up, configuration is answered (R447). -/
def Answers (s : State) (p : PortId) : Prop := s.on = true ∧ (s.port p.val).up = true ∧ (s.port p.val).answering = true

/-- An SPDM request is answered: the MP runs and the connection has come far enough (R392). -/
def Spdm (s : State) (p : PortId) (need : Nat) : Prop := Answers s p ∧ s.mp.run = 0 ∧ need ≤ (s.port p.val).spdm

/-- The command changes port p alone and sends one answer of the kind, an object of at most 1,024 doublewords (R33), whose bytes stand in outside standards (log 10). -/
def SpdmAnswers (s : State) (c : Instr) (p : PortId) (x : Port) (kind : Nat) : Prop :=
  NextIs (exec c s) (fun t => PortNow s t p x ∧ (∃ b, t.out = s.out ++ [.doe p kind b] ∧ b.length ≤ 4096) ∧ t = { s with ports := t.ports, out := t.out, fresh := s.fresh + 1 })

/-- GET_CERTIFICATE answers with the portion asked for of the chain in a slot, as far as one object holds it (R33, R392); the chain's bytes stand in outside standards (log 10). -/
def SendsChain (s : State) (p : PortId) (slot : BitVec 4) (off len : W16) : Prop :=
  ∃ b, exec (.getCertificate p slot off len) s = .next { s with out := s.out ++ [.doe p 0x02 b] } ∧
    b <+: (Config.certChain slot.toNat).drop off.toNat ∧ b.length = min 4096 (min len.toNat ((Config.certChain slot.toNat).length - off.toNat))

/-- The command sends an SPDM error with a code of one byte and changes nothing (R392, log 25). -/
def SpdmErrs (s : State) (c : Instr) (p : PortId) (code : Byte) : Prop := exec c s = .next { s with out := s.out ++ [.doe p 0x7F [code]] }

end Sys2Proof.Cert

/-- Reference clock, reset pin and training of a port (R31, R447, R464): training must begin within 20 ms of the clock's return or of the release of PERST_N; a link that trains as CXL at 8 GT/s or more is trained, any other sets LINK_FAULT and is logged as F3. -/
def Sys2Proof.Cert.PortPins : Prop :=
  ∀ (s : State) (p : PortId),
    let x := s.port p.val
    (s.on = true → x.refclk = false → x.perst = false →
      PortOnly s (.refclkReturn p) p { x with refclk := true, trainDue := some (s.tick + 2000000) } []) ∧
    (s.on = true → x.perst = true → x.refclk = true →
      PortOnly s (.perstDeassert p) p { x with perst := false, trainDue := some (s.tick + 2000000) } []) ∧
    (∀ speed width, s.on = true → x.refclk = true → x.perst = false → x.up = false →
      (3 ≤ speed.toNat → speed.toNat ≤ 5 → PortOnly s (.portTrainingEnd p true speed width) p
        { x with linkFault := false, trained := true, trainDue := none, speed := speed, width := width } []) ∧
      (∀ cxl, cxl = false ∨ speed.toNat < 3 ∨ 5 < speed.toNat →
        NextIs (exec (.portTrainingEnd p cxl speed width) s) (fun t => Logged s t 0x1604 0x32 p.val ∧ (t.port p.val).linkFault = true ∧
          (t.port p.val).trained = false ∧ (t.port p.val).up = false ∧ t.eng = s.eng ∧ t.tly.entries = s.tly.entries)))

/-- Loss of a port (R55, R65, R452, R464, R472): its link is down and its registers of R452 are reset; viral from the host loses the port without that reset, and its link stands until it is lost in turn. A NumVFs above TotalVFs is cut to 256 (the model's choice, log 89). -/
def Sys2Proof.Cert.PortLosses : Prop :=
  ∀ (s : State) (p : PortId),
    let x := s.port p.val
    let reset := fun (t : State) => (t.port p.val).up = false ∧ (t.port p.val).speed = 0 ∧ (t.port p.val).width = 0 ∧ (t.port p.val).trained = false ∧
      (t.port p.val).vfEnable = false ∧ (t.port p.val).numVfs = 0 ∧ (t.port p.val).spdm = 0 ∧ (t.port p.val).sessions = [] ∧ (t.port p.val).ideKeys = []
    (∀ cause, s.on = true → (x.up = true ∨ x.speed ≠ 0) → NextIs (exec (.portLoss p cause) s) reset) ∧
    (s.on = true → x.perst = false → NextIs (exec (.perstAssert p) s) (fun t => reset t ∧ (t.port p.val).perst = true ∧ (t.port p.val).trainDue = none)) ∧
    (s.on = true → x.refclk = true → NextIs (exec (.refclkLoss p) s) (fun t => reset t ∧ (t.port p.val).refclk = false ∧ (t.port p.val).trainDue = none)) ∧
    (s.on = true → x.up = true → NextIs (exec (.viralReceived p) s) (fun t => (t.port p.val).up = false ∧ (t.port p.val).viral = true ∧
      (t.port p.val).speed = x.speed ∧ (t.port p.val).trained = x.trained ∧ (t.port p.val).vfEnable = x.vfEnable ∧ (t.port p.val).spdm = x.spdm)) ∧
    (s.on = true → x.trained = true → x.up = false → x.refclk = true → x.perst = false → x.linkFault = false →
      NextIs (exec (.portUp p) s) (fun t => (t.port p.val).up = true ∧ (t.port p.val).viral = false ∧ (t.port p.val).speed = x.speed ∧
        (t.port p.val).vfEnable = x.vfEnable ∧ (t.port p.val).spdm = x.spdm)) ∧
    (∀ en n, Answers s p → NextIs (exec (.vfEnableWrite p en n) s) (fun t => (t.port p.val).vfEnable = en ∧ (t.port p.val).numVfs.toNat = min n.toNat 256 ∧
      (t.port p.val).up = true ∧ (t.port p.val).spdm = x.spdm))

/-- Configuration requests and the DOE mailbox (R32, R33, R35, R36, R447): retry status until the port answers, then the SR-IOV fields of R36 and the port's features, each of Table 2.1's rows (the numbers are the model's, log 90) but ATS, PASID and PRI; the first request after phase K ended under PERST_N is answered; the four object types of R33, an error for any other, and the exposed range with its latency. -/
def Sys2Proof.Cert.ConfigAndDoe : Prop :=
  ∀ (s : State) (p : PortId),
    let x := s.port p.val
    (∀ item, ∃ b : List Nat,
      (item = .sriov → b = [256, 256, 1, 1, x.numVfs.toNat, if x.vfEnable then 1 else 0]) ∧
      (item = .capabilities → ∀ k, k ∈ b ↔ k < 14 ∧ k ≠ 6) ∧
      (s.on = true → x.up = true → x.answering = true → exec (.configRequest ⟨p, item⟩) s = .next { s with out := s.out ++ [.config p false b] }) ∧
      (s.on = true → x.up = true → x.answering = false → x.waitCfg = true →
        PortOnly s (.configRequest ⟨p, item⟩) p { x with waitCfg := false, answering := true } [.config p false b]) ∧
      (s.on = true → x.up = true → x.answering = false → x.waitCfg = false →
        exec (.configRequest ⟨p, item⟩) s = .next { s with out := s.out ++ [.config p true []] })) ∧
    (Answers s p →
      (exec (.doeDiscovery p 0) s = .next { s with out := s.out ++ [.doe p 0 [1, 0, 0, 1]] }) ∧
      (exec (.doeDiscovery p 3) s = .next { s with out := s.out ++ [.doe p 0 [0x98, 0x1E, 2, 0]] }) ∧
      (∀ v ty, ¬ ((v = 1 ∧ ty.toNat ≤ 2) ∨ (v = 0x1E98 ∧ ty = 2)) → exec (.doeUnsupportedObject p v ty) s = .next { s with out := s.out ++ [.doe p 1 []] }) ∧
      ∀ n, NextIs (exec (.cdatTableAccess p n) s) (fun t => t = { s with out := t.out } ∧ ∃ b, t.out = s.out ++ [.doe p 2 b] ∧ b.length = 48 ∧
        ∃ base, leNat (b.take 8) = base ∧ s.lnd.watermark.toNat * 0x200000 ≤ base ∧ base % 0x10000000 = 0 ∧ leNat ((b.drop 16).take 8) = 320))

/-- SPDM (R34, R392): the requests that the manual lists, each in its place of the connection; an IDE key replaces the one of its sub-stream, and each kind has its own streams (Table 2.1: one CXL.io link stream, four selective ones, one CXL.cachemem); a request too early, or while the MP does not run, is answered with an error. -/
def Sys2Proof.Cert.SpdmRequests : Prop :=
  ∀ (s : State) (p : PortId),
    let x := s.port p.val
    let has := fun (n : W32) (est : Bool) => ∃ z ∈ x.sessions, z.id = n ∧ z.established = est
    (Spdm s p 0 → SpdmAnswers s (.getVersion p) p { x with spdm := 1 } 0x04) ∧
    (Spdm s p 1 → SpdmAnswers s (.getCapabilities p) p { x with spdm := max x.spdm 2 } 0x61) ∧
    (Spdm s p 2 → SpdmAnswers s (.negotiateAlgorithms p true true true true) p { x with spdm := 3 } 0x63 ∧
      ∀ a b c d, (a && b && c && d) = false → SpdmErrs s (.negotiateAlgorithms p a b c d) p 1) ∧
    (Spdm s p 3 →
      SpdmAnswers s (.getDigests p) p x 0x01 ∧
      (∀ off len, SendsChain s p 0 off len ∧ SpdmErrs s (.getCertificate p 2 off len) p 1 ∧
        (s.deck.ownerKey = none → SpdmErrs s (.getCertificate p 1 off len) p 1) ∧
        (s.deck.ownerKey.isSome = true → SendsChain s p 1 off len)) ∧
      (∀ n, SpdmAnswers s (.challenge p 0 n) p x 0x03) ∧
      (∀ i, 1 ≤ i.toNat → i.toNat ≤ 32 →
        NextIs (exec (.getMeasurements p i) s) (fun t => ∃ b, t = { s with out := s.out ++ [.doe p 0x60 b] } ∧ b.length = 48 ∧
          leNat b = (Sp.look s.tru.meas 0 (i.toNat - 1)).toNat)) ∧
      SpdmErrs s (.getMeasurements p 0) p 1 ∧
      (∀ y, SpdmAnswers s (.keyExchange p 0 y) p { x with sessions := x.sessions ++ [⟨BitVec.ofNat 32 s.fresh, false, s.tick, 0⟩] } 0x64) ∧
      (∀ n, has n false → SpdmAnswers s (.finish p n true) p { x with sessions := x.sessions.map (fun z => if z.id = n then { z with established := true } else z) } 0x65) ∧
      (∀ n, has n true →
        SpdmAnswers s (.heartbeat p n) p { x with sessions := x.sessions.map (fun z => if z.id = n then { z with alive := s.tick } else z) } 0x68 ∧
        SpdmAnswers s (.keyUpdate p n) p { x with sessions := x.sessions.map (fun z => if z.id = n then { z with keyGen := z.keyGen + 1 } else z) } 0x69 ∧
        SpdmAnswers s (.endSession p n) p { x with sessions := x.sessions.filter (fun z => z.id != n) } 0x6C ∧
        (∀ kind st sub key, x.ideKeys = [] → SpdmAnswers s (.ideKeyManagement p n ⟨kind, st⟩ sub key) p { x with ideKeys := [⟨kind, st, sub, key⟩] } 0x6A) ∧
        (∀ k kind st sub key, x.ideKeys = [k] →
          (k.kind ≠ kind ∨ k.stream = st ∧ k.sub ≠ sub ∨ kind = .ioSelective ∧ k.stream ≠ st →
            SpdmAnswers s (.ideKeyManagement p n ⟨kind, st⟩ sub key) p { x with ideKeys := [k, ⟨kind, st, sub, key⟩] } 0x6A) ∧
          (k.kind = kind → k.stream = st → k.sub = sub →
            SpdmAnswers s (.ideKeyManagement p n ⟨kind, st⟩ sub key) p { x with ideKeys := [⟨kind, st, sub, key⟩] } 0x6A) ∧
          (k.kind = kind → kind ≠ .ioSelective → k.stream ≠ st → SpdmErrs s (.ideKeyManagement p n ⟨kind, st⟩ sub key) p 1))) ∧
      (∀ n, ¬ has n true → SpdmErrs s (.heartbeat p n) p 1 ∧ SpdmErrs s (.endSession p n) p 1)) ∧
    (Answers s p → s.mp.run = 0 → x.spdm < 3 → SpdmErrs s (.getDigests p) p 4) ∧
    (Answers s p → s.mp.run ≠ 0 → SpdmErrs s (.getVersion p) p 3)

/-- FUNCTION_LEVEL_RESET and FLR_COMPLETE (R38, R330): the function's queues, commands, events and key slots are cleared, its busy bit is set until erases and scrubs are done, and its entries of other functions stay. -/
def Sys2Proof.Cert.FunctionResets : Prop :=
  ∀ (s : State) (v : VfId),
    let f := v.val + 1
    (∀ p, s.on = true → (s.port p.val).answering = true → s.reach p.val f = true →
      NextIs (exec (.functionLevelReset p v) s) (fun t => (t.fn f).flrBusy = true ∧ (∀ k, k < 16 → (t.slot (16 * (f - 1) + k)).type = 0 ∧
        (t.slot (16 * (f - 1) + k)).key = 0 ∧ (t.slot (16 * (f - 1) + k)).gen = keySucc (s.slot (16 * (f - 1) + k)).gen) ∧
        (∀ q, q < 9 → (t.queue f q).state = .disabled ∧ (t.queue f q).due = []) ∧ (t.fn f).maxQp = (s.fn f).maxQp ∧ (t.fn f).tallyLimit = (s.fn f).tallyLimit)) ∧
    ((s.fn f).flrBusy = true → s.flrQuiet f = true →
      exec (.flrComplete v) s = .next (s.updFn f (fun x => { x with flrBusy := false })))


/-! ## Register writes and queue pairs (02, 03) -/

namespace Sys2Proof.Cert

/-- The clamp counter of function f has grown by n, saturating (R49). -/
def Clamps (s t : State) (f n : Nat) : Prop := (t.fn f).clamp.toNat = min 0xFFFFFFFF ((s.fn f).clamp.toNat + n)

/-- A value forced into a range. -/
def into (lo hi x : Nat) : Nat := max lo (min hi x)

/-- 1 where the value had to be forced. -/
def forced (lo hi x : Nat) : Nat := if x < lo ∨ hi < x then 1 else 0

/-- What a bit adds to the value of its field. -/
def worth (b : Bool) (n : Nat) : Nat := if b then n else 0

/-- The vector of queue (f, q) leaves through its active port, or is marked pending there while it is masked (R51, R52). -/
def Signalled (s t : State) (f q : Nat) : Prop :=
  let x := s.queue f q
  let p := if x.activePort then 1 else 0
  let k := 16 * f + x.vector.toNat
  let m := Sp.look (s.port p).msix Msix.init k
  (m.masked = true → t.out = s.out ∧ Sp.look (t.port p).msix Msix.init k = { m with pending := true }) ∧
    (m.masked = false → t.out = s.out ++ [.msix (if x.activePort then 1 else 0) m.addr m.data] ∧ t.ports = s.ports)

end Sys2Proof.Cert

/-- Writes of registers and accesses to empty offsets (R10-R13, R49, R62, R122, R53): fields out of range are clamped and counted for the writing PF, event bits are cleared by ones, a read-only register is left, an empty offset is logged and reads 0. -/
def Sys2Proof.Cert.RegisterWrites : Prop :=
  ∀ (s : State) (p : PortId) (v : W64),
    let n := v.toNat
    let f := if p.val = 0 then 0 else 0x101
    let life := n / 65536 % 1024
    let home := n / 4096 % 1024
    let ep := n / 2 ^ 32 % 1024
    s.viaOk (.pf p) = true →
      NextIs (exec (.registerWrite (.pf p) 0x301800 true v) s) (fun t => t = { s with ch := t.ch, qm := t.qm, mp := t.mp } ∧
        t.ch = { s.ch with moduleId := BitVec.ofNat 16 n, frameLife := BitVec.ofNat 10 (Cert.into 1 1000 life) } ∧
        Cert.Clamps s t f (Cert.forced 1 1000 life)) ∧
      NextIs (exec (.registerWrite (.pf p) 0x940000 true v) s) (fun t => t = { s with coh := t.coh, qm := t.qm, mp := t.mp } ∧
        t.coh = { s.coh with endpointTo := BitVec.ofNat 10 (Cert.into 1 1000 ep), homeTo := BitVec.ofNat 10 (Cert.into 1 1000 home), devEaOk := n.testBit 1, hostPort := n.testBit 0 } ∧
        Cert.Clamps s t f (Cert.forced 1 1000 home + Cert.forced 1 1000 ep)) ∧
      NextIs (exec (.registerWrite (.pf p) 0x2C0100 false v) s) (fun t => t = { s with tly := t.tly } ∧
        t.tly = { s.tly with entrySel := BitVec.ofNat 20 n }) ∧
      NextIs (exec (.registerWrite (.pf p) 0x101004 false v) s) (fun t => t = { s with qm := t.qm } ∧
        ∀ k, k < 4 → (t.fn f).event.getLsbD k = ((s.fn f).event.getLsbD k && !n.testBit k)) ∧
      exec (.registerWrite (.pf p) 0 false v) s = .next s ∧
      ∀ off : BitVec 24, s.hasReg (.pf p) off.toNat false = false → ∀ w,
        NextIs (exec (.emptyOffsetAccess (.pf p) off w) s) (fun t => Cert.Logged s t 0x1604 0x01 off.toNat ∧ t = { s with flt := t.flt, out := t.out } ∧
          t.out = if w then s.out else s.out ++ [.regRead 0])

/-- Doorbells (R45, R47): a position past the ring is clamped to its end, a head past CQ_TAIL to CQ_TAIL; the entries passed are consumed, and the Tally entry of a consumed final completion whose partners have acknowledged becomes FREE. -/
def Sys2Proof.Cert.Doorbells : Prop :=
  ∀ (s : State) (via : Via) (q : QId) (val : W32), s.viaOk via = true → viaHasQ via q.val = true →
    let f := viaFn via
    let x := s.queue f q.val
    let n := x.sizeM1.toNat + 1
    let v := val.toNat % 4096
    let at0 := min v x.sizeM1.toNat
    let adv := (at0 + n - x.cqHead.toNat % n) % n
    NextIs (exec (.sqTailDoorbell via q val) s) (fun t => (t.queue f q.val) = { x with sqTail := BitVec.ofNat 12 at0 } ∧
      Cert.Clamps s t f (Cert.forced 0 x.sizeM1.toNat v)) ∧
    NextIs (exec (.cqHeadDoorbell via q val) s) (fun t =>
      (adv ≤ x.posted.length → (t.queue f q.val).cqHead.toNat = at0 ∧ (t.queue f q.val).posted = x.posted.drop adv) ∧
      (x.posted.length < adv → (t.queue f q.val).cqHead = x.cqTail ∧ (t.queue f q.val).posted = []) ∧
      (t.queue f q.val).due = x.due ∧ (t.queue f q.val).cqTail = x.cqTail ∧ (t.queue f q.val).sqTail = x.sqTail ∧
      ∀ r i, x.posted = [r] → adv = 1 → r.entry = some (s.tidAt i) → i < 0x100000 → (s.entry i).state = .complete → (s.entry i).outPend = 0 →
        s.tidLive (s.tidAt i) = true → (t.entry i).state = .free)

/-- Enable, disable and drain (R43, R44, R54): enabling starts at position 0 with phase 1 through the port R54 gives, in fields clamped to their ranges, also where the pair still drains (what its commands then do is the model's choice, log 24); past MAX_QP the write of ENABLE is ignored and logged; disabling drains, and a drained pair is disabled with nothing left in its ring. -/
def Sys2Proof.Cert.QueuePairs : Prop :=
  ∀ (s : State) (via : Via) (q : QId) (val : W32), s.viaOk via = true → viaHasQ via q.val = true →
    let f := viaFn via
    let x := s.queue f q.val
    let n := val.toNat
    let both : Bool := (n / 2 ^ 29 % 4) = 0
    let path := fun (k : Nat) => (both || n.testBit (29 + k)) && s.reach k f
    let pf : Bool := f = 0 || f = 0x101
    (val.getLsbD 31 = true → x.enable = false →
      (x.state = .disabled → s.mayEnable f q.val = true →
        NextIs (exec (.queueEnable via q val) s) (fun t => t = { s with qm := t.qm })) ∧
      (s.mayEnable f q.val = true →
        NextIs (exec (.queueEnable via q val) s) (fun t =>
          let y := t.queue f q.val
          y.enable = true ∧ y.sqHead = 0 ∧ y.sqTail = 0 ∧ y.cqHead = 0 ∧ y.cqTail = 0 ∧ y.phase = true ∧ y.posted = [] ∧ y.due = x.due ∧
          y.sqBase = x.sqBase ∧ y.cqBase = x.cqBase ∧ y.sizeM1.toNat = max 1 (n % 4096) ∧ y.vector.toNat = min (n / 2 ^ 24 % 16) (if pf then 9 else 8) ∧
          y.prefPort = n.testBit 28 ∧ y.state = (if path 0 || path 1 then .running else .noPort) ∧
          (path 0 = true → path 1 = true → y.activePort = n.testBit 28) ∧ (path 0 = true → path 1 = false → y.activePort = false) ∧
          (path 0 = false → path 1 = true → y.activePort = true))) ∧
      (s.mayEnable f q.val = false →
        NextIs (exec (.queueEnable via q val) s) (fun t => (t.queue f q.val).enable = false ∧
          Cert.Logged s t 0x1604 0x02 ((if pf then 0x100000 else 0) + 0x410 + 0x20 * q.val)))) ∧
    (val.getLsbD 31 = false → x.enable = true → x.state = .running →
      NextIs (exec (.queueDisable via q val) s) (fun t =>
        let y := t.queue f q.val
        y.enable = false ∧ y.state = (if path 0 || path 1 then .draining else .noPort) ∧ y.sizeM1 = x.sizeM1 ∧ y.sqHead = x.sqHead ∧
        y.due = x.due ∧ y.live = x.live ∧ y.posted = x.posted)) ∧
    (∀ g : FnId, s.drained g.val q.val = true →
      NextIs (exec (.queueDrained g q) s) (fun t => (t.queue g.val q.val).state = .disabled ∧ (t.queue g.val q.val).posted = [] ∧
        (t.queue g.val q.val).due = (s.queue g.val q.val).due)) ∧
    ∀ g : FnId, (s.queue g.val q.val).state = .draining → (s.queue g.val q.val).live = [] → s.drained g.val q.val = true

/-- Fetching (R42, R46, R63, R66-R78): a running queue with a command to fetch is visited unless its function is suspended or being reset; the packet is read at the queue's head through its active port, and admitted, or completed with the status of the first check that fails, in the order of Table 3.2. -/
def Sys2Proof.Cert.CommandFetches : Prop :=
  (∀ (s : State) (f q : Nat), s.nextFetch = some (f, q) →
    (s.queue f q).state = .running ∧ (s.queue f q).sqHead ≠ (s.queue f q).sqTail ∧ (s.fn f).suspend = false ∧ (s.fn f).flrBusy = false) ∧
  ∀ (s : State) (pkt : Sector) (f q : Nat), s.on = true → s.start.quiesce = false → s.start.warm = false → s.nextFetch = some (f, q) →
    let x := s.queue f q
    let op := pkN pkt 0 1
    let pf : Bool := f = 0 || f = 0x101
    let nextSlot := if x.sqHead.toNat + 1 = x.sizeM1.toNat + 1 then 0 else (x.sqHead.toNat + 1) % 4096
    let named := if op / 16 = 2 then pkN pkt 4 4 else 0
    let read := [.hostRead (if x.activePort then 1 else 0) (x.sqBase.toNat + 64 * x.sqHead.toNat) 64]
    let fails := fun (poison : Bool) (st r0 : Nat) =>
      NextIs (exec (.commandFetch pkt poison) s) (fun t => (t.queue f q).sqHead.toNat = nextSlot ∧ t.qm.cmds = s.qm.cmds ∧ t.out = s.out ++ read ∧
        ∃ d, (t.queue f q).due = x.due ++ [d] ∧ d.cmdId.toNat = (if poison then 0xFFFF else pkN pkt 2 2) ∧
          d.kind = .direct (BitVec.ofNat 8 st) (BitVec.ofNat 32 (if poison then 0 else named)) (BitVec.ofNat 32 r0) 0)
    fails true 0x0C x.sqHead.toNat ∧
    (s.assigned f op = false → fails false 0x02 0) ∧
    (s.assigned f op = true → pf = false → pfOnly.contains op = true → fails false 0x03 0) ∧
    (s.assigned f op = true → pf = true → q = 0 → 0x10 ≤ op → op < 0x20 → fails false 0x03 0) ∧
    (s.assigned f op = true → pf = true → (0x20 ≤ op ∨ op < 0x10) → pkN pkt 1 1 % 2 = 1 → (s.fn f).expert = false → fails false 0x03 1) ∧
    (s.fetchCheck f q x.sqHead.toNat pkt false = none →
      NextIs (exec (.commandFetch pkt false) s) (fun t => (t.queue f q).sqHead.toNat = nextSlot ∧ (t.queue f q).due = x.due ∧ t.out = s.out ++ read ∧
        t.qm.cmds = s.qm.cmds ++ [⟨s.qm.nextHandle, f, q, x.sqHead, pkt, .checked, false⟩] ∧ t.qm.nextHandle = s.qm.nextHandle + 1 ∧
        (isAdmin op = true → (t.fn f).credits = (s.fn f).credits + 1)))

/-- Posting and signalling (R51, R52, R91, R92, R116): the completion that fell due first is written whole at the ring's tail with the ring's phase, which turns at the ring's end; the final completion of a committed transaction makes it COMPLETE, an interim one sets INTERIM_SENT; the vector follows the count and the delay, a masked one waits. -/
def Sys2Proof.Cert.CompletionsAndVectors : Prop :=
  (∀ (s : State) (f : FnId) (q : QId) (d : Due) (r : List Due),
    let x := s.queue f.val q.val
    s.on = true → (x.state = .running ∨ x.state = .draining) → x.posted.length < x.sizeM1.toNat + 1 → x.due = d :: r →
      (∀ st tid r0 r1, d.kind = .direct st tid r0 r1 →
        NextIs (exec (.completionPost f q) s) (fun t =>
          let y := t.queue f.val q.val
          (∃ b o, t.out = s.out ++ .hostWrite (if x.activePort then 1 else 0) (x.cqBase.toNat + 16 * x.cqTail.toNat) b :: o ∧ b.length = 16 ∧
            leNat b = d.cmdId.toNat + st.toNat * 2 ^ 16 + Cert.worth x.phase (2 ^ 24) + Cert.worth d.clamped (2 ^ 26) + tid.toNat * 2 ^ 32 +
              r0.toNat * 2 ^ 64 + r1.toNat * 2 ^ 96) ∧
          y.due = r ∧ y.posted.length = x.posted.length + 1 ∧
          (x.cqTail = x.sizeM1 → y.cqTail = 0 ∧ y.phase = !x.phase) ∧ (x.cqTail ≠ x.sizeM1 → y.cqTail = x.cqTail + 1 ∧ y.phase = x.phase))) ∧
      (∀ i, d.kind = .finalOf i → s.tly.stopped = false → s.tly.rlogWait = [] → (s.entry i).state = .committed → (s.entry i).consumed = false →
        NextIs (exec (.completionPost f q) s) (fun t => t.entry i = { s.entry i with state := .complete, posted := true })) ∧
      (∀ st i, d.kind = .interim st i → s.tly.stopped = false → s.tly.rlogWait = [] → ((s.entry i).state = .held ∨ st = 0x10) →
        NextIs (exec (.completionPost f q) s) (fun t => t.entry i = { s.entry i with interimSent := true }))) ∧
  (∀ (s : State) (f : FnId) (q : QId),
    let x := s.queue f.val q.val
    s.on = true → s.reach (if x.activePort then 1 else 0) f.val = true → 0 < x.unsig → x.oldest + 100 * x.delay.toNat ≤ s.tick →
      NextIs (exec (.coalesceDelayExpiry f q) s) (fun t => (t.queue f.val q.val).unsig = 0 ∧ Cert.Signalled s t f.val q.val)) ∧
  ∀ (s : State) (p : PortId) (f : FnId) (vec : Fin 10),
    let k := 16 * f.val + vec.val
    let m := Sp.look (s.port p.val).msix Msix.init k
    m.masked = true → s.reach p.val f.val = true → (vec.val ≤ 8 ∨ (vec.val = 9 ∧ (f.val = 0 ∨ f.val = 0x101))) →
      NextIs (exec (.msixVectorUnmask p f vec) s) (fun t => Sp.look (t.port p.val).msix Msix.init k = { m with masked := false, pending := false } ∧
        t.out = (if m.pending then s.out ++ [.msix p m.addr m.data] else s.out))

/-- CXL.mem (R62, R304): inside the exposed range an access enters its home; outside it a read completes with poison, a write is dropped, and both are logged. -/
def Sys2Proof.Cert.HostMemoryAccesses : Prop :=
  ∀ (s : State) (p : PortId) (addr : BitVec 48) (mask : W64) (data : Sector) (poison : Bool),
    s.on = true → (s.port p.val).up = true → s.isReady = true →
      let low := (s.lnd.watermark.toNat * 0x200000 + 0xFFFFFFF) / 0x10000000 * 0x10000000
      (low ≤ addr.toNat → addr.toNat < 0xFC0000000 →
        NextIs (exec (.cxlMemRead p addr) s) (fun t => t = { s with coh := t.coh } ∧ ∃ r, t.coh = { s.coh with reqs := s.coh.reqs ++ [r] } ∧
          r.r = 16 + p.val ∧ r.kind = .rdNc ∧ r.a = addr.toNat / 64) ∧
        NextIs (exec (.cxlMemWrite p addr mask data poison) s) (fun t => t = { s with coh := t.coh } ∧ ∃ r, t.coh = { s.coh with reqs := s.coh.reqs ++ [r] } ∧
          r.r = 16 + p.val ∧ r.kind = .wrInv ∧ r.a = addr.toNat / 64 ∧ r.mask = mask ∧ r.data = data ∧ r.poison = poison)) ∧
      (addr.toNat < low ∨ 0xFC0000000 ≤ addr.toNat →
        NextIs (exec (.cxlMemRead p addr) s) (fun t => t = { s with flt := t.flt, out := s.out ++ [.memData p addr 0 true] } ∧
          Cert.Logged s t 0x1604 0x02 (addr.toNat + p.val * 2 ^ 56)) ∧
        NextIs (exec (.cxlMemWrite p addr mask data poison) s) (fun t => t = { s with flt := t.flt, out := s.out ++ [.memDone p addr] } ∧
          Cert.Logged s t 0x1604 0x02 (addr.toNat + p.val * 2 ^ 56)))

/-! ## Microcode (07) -/

/-- The microcode of the long-operation unit (R233, R235, R238, R239, R241, Tables 7.10, 7.11 and 7.15): each SEQ goes where its table says; a reserved field, TRAP, a fifth CALL, RET with an empty stack and the 65,537th microword raise their micro-traps, which enter the handler where its dispatch entry is VALID; without one, or inside a handler, the program receives the frame in LOU.OUT0 and LOU.OUT1 with LFAIL, the pass stays pending and an F0 is logged; END fails with its outcome, and END with outcome 0 gives the result that the ROM's microcode gives (log 9). -/
def Sys2Proof.Cert.Microcode : Prop :=
  (∀ (m : Mic) (v : MicEnv), m.words < 65536 →
    let w := v.eng.microAt m.mpc
    let n := v.eng.nanoAt (w / 512 % 512)
    let seq := w / 64 % 8
    let const := n % 2 ^ 48
    let c := { m with words := m.words + 1 }
    let d := c.work v n
    nanoOk n = true →
      (seq < 4 → ∃ y, m.step v = .go y ∧ y.u = d.u ∧ y.stack = m.stack ∧ y.flags = d.flags ∧ y.cnt = (if seq = 3 then d.cnt - 1 else d.cnt) ∧
        y.mpc = (if (seq = 1 ∧ d.cond v (n / 2 ^ 66 % 64) = true) ∨ (seq = 2 ∧ d.cond v (n / 2 ^ 66 % 64) = false) ∨ (seq = 3 ∧ d.cnt ≠ 1)
          then m.mpc + 1 + (BitVec.ofNat 6 w).signExtend 12 else m.mpc + 1)) ∧
      (seq = 4 → m.stack.length < 4 → m.step v = .go { d with mpc := BitVec.ofNat 12 const, stack := (m.mpc + 1) :: m.stack }) ∧
      (seq = 5 → ∀ a r, m.stack = a :: r → m.step v = .go { d with mpc := a, stack := r }) ∧
      (seq = 5 → ∀ saved, m.stack = [] → m.handler = some saved → ∃ y, m.step v = .go y ∧ y.u = d.u ∧ y.handler = none ∧
        let f := (Sp.look d.u 0 30).toNat
        y.mpc = BitVec.ofNat 12 (f / 2 ^ 36 % 2 ^ 12 + const % 2) ∧ y.cnt = BitVec.ofNat 16 (f / 2 ^ 8 % 2 ^ 16) ∧ y.flags = BitVec.ofNat 4 (f / 2 ^ 4 % 2 ^ 4)) ∧
      (seq = 7 → (m.handler.isSome = true → ∃ y, m.step v = .done y .passed) ∧
        (m.handler = none → v.eng.dispValid 0xF1 = true → ∃ y, m.step v = .go y ∧ y.mpc = BitVec.ofNat 12 (v.eng.dispAt 0xF1) ∧ y.stack = [] ∧ y.handler = some m.stack ∧
          Sp.look y.u 0 31 = BitVec.ofNat 64 const))) ∧
  ∀ (s : State) (e : LeId) (o : LongOp) (host : HostIn) (p : MicroAt), LongRuns s e o → s.codeRuns o = true → (s.le e.val).longMayRead (e.val / 8) o = true →
    o.code.toNat < 0x10 →
    let w := s.eng.microAt p.mpc
    let n := s.eng.nanoAt (w / 512 % 512)
    let seq := w / 64 % 8
    let const := n % 2 ^ 48
    let frame := fun (cause : Nat) => BitVec.ofNat 64 (2 ^ 56 * o.code.toNat + 2 ^ 48 * cause + 2 ^ 36 * p.mpc.toNat + 2 ^ 27 * (w / 512 % 512) +
      2 ^ 24 * min 4 p.stack.length + 2 ^ 8 * p.cnt.toNat + 2 ^ 4 * p.flags.toNat)
    let passes := fun (cause : Nat) (detail : W64) => s.eng.dispValid (0xF0 + cause) = false → NextIs (exec (.longOpComplete e host (some p)) s) (fun t =>
      let y := t.le e.val
      y.lou = none ∧ y.ports.lou0 = frame cause ∧ y.ports.lou1 = detail ∧ y.bits.getLsbD 5 = true ∧ y.bits.getLsbD 7 = true ∧
        y.micro = some (frame cause, detail) ∧ Cert.Logged s t (0x1000 + s.peOf e.val) 0x07 (frame cause).toNat)
    (65536 ≤ p.words → passes 3 65536) ∧
    (p.words < 65536 →
      (nanoOk n = false → passes 2 (BitVec.ofNat 64 w)) ∧
      (nanoOk n = true →
        (seq = 7 → passes 1 (BitVec.ofNat 64 const)) ∧ (seq = 4 → 4 ≤ p.stack.length → passes 4 0) ∧ (seq = 5 → p.stack = [] → passes 4 0) ∧
        (seq = 6 → const / 2 ^ 8 % 2 = 0 →
          (const % 8 ≠ 0 → const % 8 ≠ 7 → NextIs (exec (.longOpComplete e host (some p)) s) (fun t =>
            let y := t.le e.val
            y.lou = none ∧ y.ports.lou0 = 0 ∧ y.ports.lou1 = BitVec.ofNat 64 (const % 8) ∧ y.bits.getLsbD 5 = true ∧ y.bits.getLsbD 7 = true ∧ t.flt = s.flt)) ∧
          (const % 8 = 0 → NextIs (exec (.longOpComplete e host none) s) (fun u => NextIs (exec (.longOpComplete e host (some p)) s) (fun t =>
            (t.le e.val).lou = none ∧ (t.le e.val).ports = (u.le e.val).ports ∧ (t.le e.val).bits = (u.le e.val).bits))))))

/-! ## Commands (03, 04, 11, 12) -/

namespace Sys2Proof.Cert

/-- The command of handle h stands next in its queue with opcode op, and nothing of the module's state holds it (R46, R68, R404). -/
def Ready (s : State) (h op : Nat) (c : Cmd) : Prop :=
  s.cmd h = some c ∧ c.stage = .checked ∧ c.opcode = op ∧ s.nextUp c = true ∧ s.on = true ∧ s.start.warm = false ∧ s.start.ready = false ∧
    s.flt.grave = false

/-- As Ready, for an admin command, which the running MP executes (R71, R74). -/
def AdminReady (s : State) (h op : Nat) (c : Cmd) : Prop := Ready s h op c ∧ s.mp.run = 0

/-- The final completion of c falls due with its status and results, CLAMPED as given, and c is gone (R91, R93). -/
def Over (s t : State) (c : Cmd) (clampedBit : Bool) (st tid r0 r1 : Nat) : Prop :=
  (t.queue c.func c.q).due = (s.queue c.func c.q).due ++
    [⟨.direct (BitVec.ofNat 8 st) (BitVec.ofNat 32 tid) (BitVec.ofNat 32 r0) (BitVec.ofNat 32 r1), c.cmdId, clampedBit, c.handle, isAdmin c.opcode, s.tick⟩] ∧
  t.qm.cmds = s.qm.cmds.filter (fun d => d.handle != c.handle)

/-- The command changes nothing but that it completes. -/
def Says (s : State) (i : Instr) (c : Cmd) (st r0 r1 : Nat) : Prop :=
  NextIs (exec i s) (fun t => t = { s with qm := t.qm } ∧ Over s t c c.clamped st 0 r0 r1)

/-- The command runs on: it waits for its end in the module. -/
def Under (s t : State) (h : Nat) (c : Cmd) : Prop := t.cmd h = some { c with stage := .running } ∧ (t.queue c.func c.q).due = (s.queue c.func c.q).due

/-- A PF. -/
def pf (f : Nat) : Bool := f = 0 || f = 0x101

/-- The code of a link state (Table 5.6). -/
def linkCode : LState → Nat
  | .disabled => 0 | .training => 1 | .probing => 2 | .up => 3 | .down => 4

/-- The code of a lifecycle state (Table 13.7). -/
def lcCode : Lc → Nat
  | .manufacture => 0 | .provision => 1 | .field => 2 | .service => 3 | .endState => 4

end Sys2Proof.Cert

/-- Identity, status and logs (Table 3.8, R391, R401, R432): IDENTIFY, POWER_STATUS, LINK_STATUS, IMAGE_INFO and MEASURE_GET answer what the module holds; GET_LOG and FAULT_READ say how much they wrote. -/
def Sys2Proof.Cert.QueryCommands : Prop :=
  ∀ (s : State) (h : Nat) (c : Cmd),
    let b := fun (o n : Nat) => pkN c.pkt o n
    let may := fun (a n : Nat) => s.rangePerm c.func false 0 a n true
    (Cert.AdminReady s h 0x00 c →
      (b 8 1 = 0 → Cert.Says s (.identify h) c 0 0x9256 Config.siliconRevision.toNat) ∧
      (b 8 1 = 1 → Cert.Says s (.identify h) c 0 (s.fn c.func).maxQp.toNat (s.fn c.func).tallyLimit.toNat) ∧
      (b 8 1 = 2 → Cert.Says s (.identify h) c 0 (Cert.lcCode s.deck.lc) (Cert.worth (s.fn c.func).expert 1)) ∧
      (b 8 1 = 3 → Cert.Says s (.identify h) c 0 Config.mpFirmwareVersion.toNat 0) ∧
      (3 < b 8 1 → Cert.Says s (.identify h) c 2 8 0)) ∧
    (Cert.AdminReady s h 0x50 c → Cert.Says s (.powerStatus h) c 0 s.pwr.d.toNat s.pwr.envelope.toNat) ∧
    (Cert.AdminReady s h 0x83 c →
      (Cert.pf c.func = true → b 8 2 < 256 →
        let x := s.link (b 8 2)
        Cert.Says s (.linkStatus h) c 0 (Cert.linkCode x.state + 2 ^ 4 * x.downCause.toNat + Cert.worth x.miswire (2 ^ 8) +
          Cert.worth (s.ch.lref.getLsbD (b 8 2 / 16) && s.monitored) (2 ^ 9) + Cert.worth x.blockLock (2 ^ 10) + Cert.worth x.fecLock (2 ^ 11) + 2 ^ 16 * x.seen.toNat)
          (Sp.look x.cnt 0 0).toNat) ∧
      (255 < b 8 2 → Cert.Says s (.linkStatus h) c 3 8 0)) ∧
    (Cert.AdminReady s h 0x42 c → Cert.pf c.func = true →
      (∀ x, b 8 2 ≤ 255 → s.img (b 8 2) = some x →
        Cert.Says s (.imageInfo h) c 0 x.words.length (Cert.worth x.forerunner 1 + Cert.worth x.secure 2)) ∧
      (s.img (b 8 2) = none → Cert.Says s (.imageInfo h) c 3 8 0)) ∧
    (Cert.AdminReady s h 0x72 c →
      (31 < b 8 1 → Cert.Says s (.measureGet h) c 3 8 0) ∧
      (b 8 1 ≤ 31 → may (b 16 8) 48 = false → Cert.Says s (.measureGet h) c 3 16 0) ∧
      (b 8 1 ≤ 31 → may (b 16 8) 48 = true → NextIs (exec (.measureGet h) s) (fun t => Cert.Over s t c c.clamped 0 0 0 0))) ∧
    (Cert.AdminReady s h 0x01 c →
      (2 < b 16 1 → Cert.Says s (.getLog h) c 2 16 0) ∧
      (b 16 1 ≤ 2 → may (b 8 8) (max (b 20 4) 1) = true → b 20 4 < 64 ∨ 65536 < b 20 4 → Cert.Says s (.getLog h) c 3 20 0) ∧
      (may (b 8 8) (b 20 4) = true → 64 ≤ b 20 4 → b 20 4 ≤ 65536 →
        (b 16 1 = 0 → NextIs (exec (.getLog h) s) (fun t => ∃ n, n % 32 = 0 ∧ n ≤ b 20 4 ∧ Cert.Over s t c c.clamped 0 0 n s.flt.lost.toNat)) ∧
        (b 16 1 = 1 ∨ b 16 1 = 2 → NextIs (exec (.getLog h) s) (fun t => Cert.Over s t c c.clamped 0 0 4 0)))) ∧
    (Cert.AdminReady s h 0x60 c →
      (1 < b 16 1 → Cert.Says s (.faultRead h) c 2 16 0) ∧
      (b 16 1 = 0 → may (b 8 8) 32 = true → s.flt.blaze = none → Cert.Says s (.faultRead h) c 0 0 0) ∧
      (∀ r, b 16 1 = 0 → may (b 8 8) 32 = true → s.flt.blaze = some r → Cert.pf c.func = true →
        NextIs (exec (.faultRead h) s) (fun t => Cert.Over s t c c.clamped 0 0 1 0)) ∧
      (b 16 1 = 1 → may (b 8 8) 32768 = true → Cert.pf c.func = true →
        NextIs (exec (.faultRead h) s) (fun t => Cert.Over s t c c.clamped 0 0 s.flt.log.length s.flt.lost.toNat)))

/-- Quotas, EXPERT, envelope and fault mode (Tables 2.6, 3.8, R76, R406, R432): values out of range are clamped and flagged, a changed quota or EXPERT bit sets the function's event. -/
def Sys2Proof.Cert.SettingCommands : Prop :=
  ∀ (s : State) (h : Nat) (c : Cmd),
    let b := fun (o n : Nat) => pkN c.pkt o n
    (Cert.AdminReady s h 0x02 c →
      let f := b 8 2
      let l := b 12 4
      let q := b 16 1
      (f = 0 ∨ 256 < f → Cert.Says s (.setQuota h) c 3 8 0) ∧
      (1 ≤ f → f ≤ 256 → NextIs (exec (.setQuota h) s) (fun t =>
        (t.fn f).tallyLimit.toNat = min l 1048576 ∧ (t.fn f).maxQp.toNat = min q 8 ∧ Cert.Over s t c (decide (1048576 < l ∨ 8 < q)) 0 0 0 0 ∧
        ((s.fn f).tallyLimit.toNat ≠ min l 1048576 ∨ (s.fn f).maxQp.toNat ≠ min q 8 → (t.fn f).event.getLsbD 1 = true) ∧
        (t.fn f).expert = (s.fn f).expert))) ∧
    (Cert.AdminReady s h 0x03 c →
      let f := b 8 2
      (1 < b 10 1 → Cert.Says s (.setExpert h) c 2 10 0) ∧
      (b 10 1 ≤ 1 → f = 0 ∨ 256 < f → Cert.Says s (.setExpert h) c 3 8 0) ∧
      (b 10 1 ≤ 1 → 1 ≤ f → f ≤ 256 → NextIs (exec (.setExpert h) s) (fun t => (t.fn f).expert = (b 10 1 == 1) ∧ Cert.Over s t c c.clamped 0 0 0 0 ∧
        ((s.fn f).expert ≠ (t.fn f).expert → (t.fn f).event.getLsbD 2 = true) ∧ (t.fn f).tallyLimit = (s.fn f).tallyLimit))) ∧
    (Cert.AdminReady s h 0x51 c →
      let v := Cert.into 350 650 (b 8 4) / 5 * 5
      NextIs (exec (.setEnvelope h) s) (fun t => t.pwr = { s.pwr with envelope := BitVec.ofNat 10 v } ∧ Cert.Over s t c (b 8 4 != v) 0 0 0 0)) ∧
    (Cert.AdminReady s h 0x61 c →
      let k := b 8 1
      (k = 0 ∨ 3 < k → Cert.Says s (.faultMode h) c 2 8 0) ∧
      (1 ≤ k → k ≤ 3 → 1 < b 9 1 → Cert.Says s (.faultMode h) c 2 9 0) ∧
      (1 ≤ k → k ≤ 3 → b 9 1 ≤ 1 → NextIs (exec (.faultMode h) s) (fun t =>
        t.flt.hold.getLsbD (k - 1) = (b 9 1 == 1) ∧ (Sp.look t.flt.quiet 10 k).toNat = Cert.into 1 3600 (b 12 4) ∧
        (∀ j, 1 ≤ j → j ≤ 3 → j ≠ k → t.flt.hold.getLsbD (j - 1) = s.flt.hold.getLsbD (j - 1) ∧ Sp.look t.flt.quiet 10 j = Sp.look s.flt.quiet 10 j) ∧
        Cert.Over s t c (b 12 4 != Cert.into 1 3600 (b 12 4)) 0 0 0 0)))

/-- Groups (Table 3.8, R24, R160): created with an owner that follows the lowest link unless the expert form names it, deleted only while no entry names it, assigned to one function. -/
def Sys2Proof.Cert.GroupCommands : Prop :=
  ∀ (s : State) (h : Nat) (c : Cmd),
    let b := fun (o n : Nat) => pkN c.pkt o n
    let g := b 8 2
    (Cert.AdminReady s h 0x80 c →
      (1023 < g ∨ (s.group g).valid = true → Cert.Says s (.groupCreate h) c 3 8 0) ∧
      (∀ l, g ≤ 1023 → (s.group g).valid = false → b 10 2 = l → l < 256 → b 12 2 = 0xFFFF → b 14 2 = 0xFFFF → b 16 2 = 0xFFFF → c.expert = false →
        s.ch.groups.all (fun e => !e.2.has l || e.2.partner.toNat = b 18 2) = true →
        NextIs (exec (.groupCreate h) s) (fun t => Cert.Over s t c c.clamped 0 0 0 0 ∧
          t.group g = ⟨true, BitVec.ofNat 4 (l / 16), 0x1FF, BitVec.ofNat 16 (b 18 2), BitVec.ofNat 9 (0x100 + l), 0, 0, 0⟩ ∧
          ∀ k, k ≠ g → t.group k = s.group k)) ∧
      (g ≤ 1023 → (s.group g).valid = false → b 10 2 = 0xFFFF → b 12 2 = 0xFFFF → b 14 2 = 0xFFFF → b 16 2 = 0xFFFF →
        Cert.Says s (.groupCreate h) c 3 10 0)) ∧
    (Cert.AdminReady s h 0x81 c →
      (1023 < g ∨ (s.group g).valid = false ∨ s.groupUsed g = true → Cert.Says s (.groupDelete h) c 3 8 0) ∧
      (g ≤ 1023 → (s.group g).valid = true → s.groupUsed g = false →
        NextIs (exec (.groupDelete h) s) (fun t => Cert.Over s t c c.clamped 0 0 0 0 ∧ (t.group g).valid = false ∧ ∀ k, k ≠ g → t.group k = s.group k))) ∧
    (Cert.AdminReady s h 0x82 c →
      (1023 < g ∨ (s.group g).valid = false → Cert.Says s (.groupAssign h) c 3 8 0) ∧
      (g ≤ 1023 → (s.group g).valid = true → 256 < b 10 2 → Cert.Says s (.groupAssign h) c 3 10 0) ∧
      (g ≤ 1023 → (s.group g).valid = true → b 10 2 ≤ 256 →
        NextIs (exec (.groupAssign h) s) (fun t => Cert.Over s t c c.clamped 0 0 0 0 ∧ t.group g = { s.group g with func := BitVec.ofNat 9 (b 10 2) } ∧
          ∀ k, k ≠ g → t.group k = s.group k)))

/-- Banks, injection, self-test, gateway calls, hand-over, service (R77, R285, R373, R377-R382, R411, R419): each is checked in the order of Table 3.2 and then handed to its unit; a service operation whose effect is not published is refused. -/
def Sys2Proof.Cert.UnitCommands : Prop :=
  ∀ (s : State) (h : Nat) (c : Cmd),
    let b := fun (o n : Nat) => pkN c.pkt o n
    (Cert.AdminReady s h 0x52 c →
      (2 < b 10 1 → Cert.Says s (.bankState h) c 2 10 0) ∧
      (b 10 1 ≤ 2 → 15 < b 8 1 → Cert.Says s (.bankState h) c 3 8 0) ∧
      (b 10 1 ≤ 2 → b 8 1 ≤ 15 → 15 < b 9 1 → Cert.Says s (.bankState h) c 3 9 0) ∧
      (1 ≤ b 10 1 → b 10 1 ≤ 2 → b 8 1 ≤ 15 → b 9 1 ≤ 15 → s.secBlock (0x300 + b 8 1) = false →
        NextIs (exec (.bankState h) s) (fun t => Cert.Under s t h c ∧
          (b 9 1, BitVec.ofNat 2 (b 10 1), c.handle) ∈ (t.memCl (b 8 1)).bankWait))) ∧
    (Cert.AdminReady s h 0x62 c →
      (∀ u, b 8 2 = u → isUnit u = false ∨ u = 0x1600 ∨ u = 0x1601 ∨ u = 0x1604 ∨ u = 0x1605 → Cert.Says s (.inject h) c 3 8 0) ∧
      (∀ l : LinkId, b 8 2 = 0x1400 + l.val → s.flt.inj = [] → b 12 4 = 0 → Cert.Says s (.inject h) c 3 12 0) ∧
      (∀ l : LinkId, b 8 2 = 0x1400 + l.val → s.flt.inj = [] → b 12 4 = 1 →
        NextIs (exec (.inject h) s) (fun t => Cert.Under s t h c ∧ t.flt.inj = [⟨BitVec.ofNat 16 (0x1400 + l.val), 1, some c.handle, s.tick, false, 0, s.flt.injSeq⟩]))) ∧
    (Cert.AdminReady s h 0x63 c →
      (1 < b 8 1 → Cert.Says s (.selftest h) c 2 8 0) ∧
      (b 8 1 = 1 → c.expert = true → b 9 2 = 0xFFFF → s.deck.lc = .field → Cert.Says s (.selftest h) c 0x0F 0 0) ∧
      (∀ l : LinkId, b 8 1 = 1 → c.expert = true → b 9 2 = 0x1400 + l.val → s.deck.lc = .service → (s.link l.val).cfg.enable = false →
        s.flt.selftests = [] → NextIs (exec (.selftest h) s) (fun t => Cert.Under s t h c ∧
          t.flt.selftests = [(BitVec.ofNat 16 (0x1400 + l.val), c.handle)]))) ∧
    (Cert.AdminReady s h 0x70 c →
      (s.tru.secState ≠ 1 → Cert.Says s (.gatewayCall h) c 0x0E 0 0) ∧
      (s.tru.secState = 1 → s.tru.gates.toNat ≤ b 8 2 → Cert.Says s (.gatewayCall h) c 3 8 0) ∧
      (s.tru.secState = 1 → b 8 2 < s.tru.gates.toNat → s.secEngines = true →
        NextIs (exec (.gatewayCall h) s) (fun t => t = { s with qm := t.qm } ∧ t.cmd h = some { c with stage := .alloc }))) ∧
    (Cert.AdminReady s h 0x71 c →
      (1 < b 10 1 → Cert.Says s (.handover h) c 2 10 0) ∧
      (b 10 1 ≤ 1 → 0x400 ≤ b 8 2 → b 8 2 ≤ 0x403 → Cert.Says s (.handover h) c 0x0E 0 0) ∧
      (b 8 2 < 0x80 → b 10 1 = 0 → s.secBlock (b 8 2) = false → Cert.Says s (.handover h) c 0 0 0) ∧
      (b 8 2 < 0x80 → b 10 1 = 1 → s.secBlock (b 8 2) = false → s.tru.secState = 1 →
        NextIs (exec (.handover h) s) (fun t => Cert.Under s t h c ∧ ∃ r, t.tru.pending = s.tru.pending ++ [r]))) ∧
    (∀ op, s.cmd h = some c → 0xF0 ≤ c.opcode → c.stage = .checked → s.nextUp c = true → s.on = true → s.pwr.stop = false → s.mp.run = 0 →
      s.flt.grave = false →
      (op = .other → exec (.serviceOpcode h op) s = .refused .unpublishedService) ∧
      (op = .toProvision → s.deck.lc = .manufacture →
        NextIs (exec (.serviceOpcode h op) s) (fun t => t.deck = { s.deck with lcNext := some .provision } ∧ Cert.Over s t c c.clamped 0 0 0 0)) ∧
      (op = .toProvision → s.deck.lc ≠ .manufacture →
        NextIs (exec (.serviceOpcode h op) s) (fun t => t.deck = s.deck ∧ Cert.Over s t c c.clamped 3 0 0 0 ∧ Cert.Logged s t 0x1605 0x02 0x280010)) ∧
      (∀ f, op = .patch f → NextIs (exec (.serviceOpcode h op) s) (fun t => t.deck = { s.deck with patch := some f } ∧ Cert.Over s t c c.clamped 0 0 0 0)))

namespace Sys2Proof.Cert

/-- The transaction commands (Table 3.3). -/
def txCmd (op h : Nat) : Instr :=
  match op with
  | 0x10 => .write h
  | 0x11 => .read h
  | 0x12 => .mirrorWrite h
  | 0x13 => .send h
  | 0x14 => .exchange h
  | _ => .run h

/-- The command passes to the allocation of its Tally entry (step 9 of Table 3.2). -/
def Passes (s : State) (i : Instr) (h : Nat) (c : Cmd) : Prop :=
  NextIs (exec i s) (fun t => t = { s with qm := t.qm } ∧ t.cmd h = some { c with stage := .alloc })

/-- A request that host command c makes of a cipher group or a galley coder; an own-cluster address names the scratch of C00 (the model's choice, log 85). -/
def Asks (r : SvcReq) (c : Cmd) (op len : Nat) : Prop :=
  r.op = op ∧ r.src = canon 0 (pkN c.pkt 8 8) ∧ r.dst = canon 0 (pkN c.pkt 16 8) ∧ r.len = len ∧ r.func = c.func ∧ r.handle = c.handle ∧ r.engine = none ∧ r.secure = false

end Sys2Proof.Cert

/-- The transaction commands (R24, R69, R79, R80, R209, R258, R334, R483, Table 3.4): group, range, length, image, entry and key are checked in that order; held output takes at most 65,536 bytes; a command that passes goes to allocation, one whose cluster has no engine in service ends with DEVICE_FAULT. -/
def Sys2Proof.Cert.TransactionCommands : Prop :=
  ∀ (s : State) (h : Nat) (c : Cmd) (op : Nat), Cert.Ready s h op c → 0x10 ≤ op → op ≤ 0x15 →
    let b := fun (o n : Nat) => pkN c.pkt o n
    let mine := fun (g : Nat) => g < 1024 && (s.group g).valid && (Cert.pf c.func || (s.group g).func.toNat == c.func)
    let i := Cert.txCmd op h
    let own := (s.group (b 8 2)).owner.toNat
    let most := if op = 0x13 ∨ op = 0x14 ∨ (op = 0x11 ∧ b 14 1 % 8 ≠ 0 ∧ c.streams = false) then 65536 else 16777216
    let asks := b 14 1 / 4 % 2 = 1
    let key := asks → (s.slot (txKey c)).type ≠ 0 ∧ (s.slot (txKey c)).invoc ≠ BitVec.allOnes 40
    let range := rangeOk own (b 16 8) (max (b 32 4) 1)
    let fits := range && 1 ≤ b 32 4 && b 32 4 ≤ most
    let prompt := c.expert = false ∧ s.clDead own = false ∧ key
    (mine (b 8 2) = false → (op ≠ 0x15 ∨ b 8 2 ≠ 0xFFFF) → Cert.Says s i c 3 8 0) ∧
    (mine (b 8 2) = true →
      (op = 0x10 ∨ op = 0x11 ∨ op = 0x13 →
        (fits = true → prompt → Cert.Passes s i h c) ∧
        (range = false → Cert.Says s i c 3 16 0) ∧
        (range = true → b 32 4 = 0 ∨ most < b 32 4 → Cert.Says s i c 3 32 0) ∧
        (fits = true → asks → (s.slot (txKey c)).type = 0 → Cert.Says s i c 3 15 0) ∧
        (fits = true → asks → (s.slot (txKey c)).type ≠ 0 → (s.slot (txKey c)).invoc = BitVec.allOnes 40 → Cert.Says s i c 3 28 0) ∧
        (fits = true → key → s.clDead own = true → ∃ r, Cert.Says s i c 0x12 r 0)) ∧
      (op = 0x14 →
        (fits = true → prompt → b 36 4 = 0 → Cert.Passes s i h c) ∧
        (fits = true → prompt → 1 ≤ b 36 4 → b 36 4 ≤ 65536 → rangeOk own (b 24 8) (b 36 4) = true → Cert.Passes s i h c) ∧
        (fits = true → 65536 < b 36 4 → rangeOk own (b 24 8) (b 36 4) = true → Cert.Says s i c 3 36 0)) ∧
      (op = 0x12 →
        (b 10 2 = b 8 2 ∨ b 10 2 = 0xFFFF ∨ mine (b 10 2) = false → Cert.Says s i c 3 10 0) ∧
        (b 10 2 ≠ b 8 2 → b 10 2 ≠ 0xFFFF → mine (b 10 2) = true →
          (b 12 2 = 0xFFFF ∨ (b 12 2 ≠ b 8 2 ∧ b 12 2 ≠ b 10 2 ∧ mine (b 12 2) = true) → fits = true → prompt → Cert.Passes s i h c) ∧
          (b 12 2 = b 8 2 ∨ b 12 2 = b 10 2 → Cert.Says s i c 3 12 0)))) ∧
    (op = 0x15 → mine (b 8 2) = true →
      (∀ x, s.imgFor c.func (b 10 2) = some x → b 12 2 < x.entries.length → prompt → Cert.Passes s i h c) ∧
      (∀ x, s.imgFor c.func (b 10 2) = some x → x.entries.length ≤ b 12 2 → Cert.Says s i c 3 12 0) ∧
      (s.imgFor c.func (b 10 2) = none → Cert.Says s i c 3 10 0)) ∧
    (op = 0x15 → b 8 2 = 0xFFFF →
      (∀ k x, s.runCluster c.func = some k → s.clDead k = false → s.imgFor c.func (b 10 2) = some x → b 12 2 < x.entries.length → c.expert = false → key →
        Cert.Passes s i h c))

/-- ENTRY_ALLOCATE (R105-R107, R127, R136, R258, R332, Table 4.1): a cluster that has died meanwhile, then the limits in their order, and the entry that an allocation fills. -/
def Sys2Proof.Cert.EntryAllocates : Prop :=
  ∀ (s : State) (h : Nat) (c : Cmd), s.live = true → s.tly.stopped = false → s.cmd h = some c → c.stage = .alloc → s.nextUp c = true → s.guardHolds = false →
    sealedTx c = false → c.opcode / 16 = 1 →
    (∀ k, s.txCluster c = some k → s.clDead k = true → ∃ r, Cert.Says s (.entryAllocate h) c 0x12 r 0) ∧
    ((∃ k, s.txCluster c = some k ∧ s.clDead k = false) →
    let f := c.func
    let under := s.inUse f < (s.fn f).tallyLimit.toNat
    let room := s.prioCount < s.tly.prioCap.toNat
    (¬ under → Cert.Says s (.entryAllocate h) c 0x11 0 0) ∧
    (under → ¬ room → Cert.Says s (.entryAllocate h) c 0x11 1 0) ∧
    (under → room → s.anyFree false = false → Cert.Says s (.entryAllocate h) c 0x11 2 0) ∧
    (under → room → s.anyFree false = true → s.pickIndex false = none → exec (.entryAllocate h) s = .next s) ∧
    ∀ i, under → room → s.anyFree false = true → s.pickIndex false = some i → i < 0x100000 →
      NextIs (exec (.entryAllocate h) s) (fun t =>
        let e := t.entry i
        e.state = .opened ∧ e.gen = s.allocGen i ∧ e.func.toNat = f % 512 ∧ e.slot = c.slot ∧ e.cmdId.toNat = pkN c.pkt 2 2 ∧
        e.opc.toNat = (c.opcode - 0x10) % 8 ∧ e.prio.toNat = (if c.expert then pkN c.pkt 60 1 % 4 else 1) ∧
        e.ackMask = 0 ∧ e.outPend = 0 ∧ e.stale = false ∧ e.posted = false ∧ e.consumed = false ∧
        (c.opcode = 0x10 → e.reqMask = 1 ∧ e.groupA.toNat = pkN c.pkt 8 2 % 1024) ∧
        (c.opcode = 0x12 → e.reqMask = (if pkN c.pkt 12 2 = 0xFFFF then 3 else 7) ∧ e.groupA.toNat = pkN c.pkt 8 2 % 1024 ∧
          e.groupB.toNat = pkN c.pkt 10 2 % 1024 ∧ (pkN c.pkt 12 2 ≠ 0xFFFF → e.groupC.toNat = pkN c.pkt 12 2 % 1024)) ∧
        t.cmd h = some { c with stage := .entry i } ∧ (∃ w, Sp.look t.qm.work none i = some w ∧ w.pkt = c.pkt ∧
          w.word.toNat % 2 ^ 32 = (s.allocGen i).toNat * 2 ^ 20 + i) ∧
        ∀ k, k ≠ i → t.entry k = s.entry k))

/-- ABORT, RESUME and QUERY (R83-R86, R112, R120, Table 3.6): a target of another function, a FREE one and a stale TID fail alike; ABORT ends a transaction that has not committed and says so of one that has; RESUME returns HELD to ACTIVE; QUERY answers the entry. -/
def Sys2Proof.Cert.TallyCommands : Prop :=
  ∀ (s : State) (h : Nat) (c : Cmd),
    let b := fun (o n : Nat) => pkN c.pkt o n
    let tid := b 4 4
    let i := tid % 2 ^ 20
    let e := s.entry i
    let names := e.gen.toNat = tid / 2 ^ 20 ∧ e.state ≠ .free ∧ e.func.toNat = c.func
    let ends := fun (k : Instr) (st r0 r1 : Nat) => NextIs (exec k s) (fun t => t = { s with qm := t.qm } ∧ Cert.Over s t c c.clamped st tid r0 r1)
    (Cert.Ready s h 0x20 c → tid ≠ 0 →
      (¬ names → ends (.abort h) 3 0 0) ∧
      (names → e.state = .committed ∨ e.state = .complete → ends (.abort h) 5 0 0) ∧
      (names → e.state = .aborted → e.posted = true → ends (.abort h) 6 0 0) ∧
      (names → e.state = .opened ∨ e.state = .active ∨ e.state = .held → e.consumed = false →
        NextIs (exec (.abort h) s) (fun t => (t.entry i).state = .aborted ∧ (t.entry i).result1 = 6 ∧ (t.entry i).gen = e.gen ∧
          ∃ x, t.cmd h = some x ∧ x.stage = .aborting i 0))) ∧
    (Cert.Ready s h 0x21 c →
      (¬ names → ends (.resume h) 3 0 0) ∧
      (names → c.expert = false → e.state ≠ .held → ends (.resume h) 3 1 0) ∧
      (names → c.expert = false → e.state = .held → NextIs (exec (.resume h) s) (fun t => Cert.Over s t c c.clamped 0 tid 0 0 ∧
        t.entry i = { e with state := .active, lostMask := 0, interimSent := false } ∧ ∀ k, k ≠ i → t.entry k = s.entry k))) ∧
    (Cert.Ready s h 0x22 c →
      (¬ names → ends (.query h) 3 0 0) ∧
      (names → ends (.query h) (if e.stale then 0x10 else 0)
        (e.state.code + Cert.worth e.stale (2 ^ 3) + Cert.worth e.posted (2 ^ 4) + 2 ^ 5 * e.outPend.toNat + 2 ^ 8 * e.lostMask.toNat)
        (e.resent.toNat + 2 ^ 16 * e.ackMask.toNat)))

/-- COMPRESS, EXPAND, SEAL, UNSEAL (R69, R87-R89, R332, R342, R354, R361): a request that passes its checks joins the queue of the unit with the fewest queued bytes; a bad ratio, count, mode, key or lifecycle is refused with its field. -/
def Sys2Proof.Cert.DataCommands : Prop :=
  ∀ (s : State) (h : Nat) (c : Cmd),
    let b := fun (o n : Nat) => pkN c.pkt o n
    let may := fun (a n : Nat) (w : Bool) => s.rangePerm c.func false 0 a n w
    let apart := fun (a n a' n' : Nat) => ¬ (canon 0 a < canon 0 a' + n' ∧ canon 0 a' < canon 0 a + n)
    let gal := fun (op : Nat) (i : Instr) => Cert.Ready s h op c →
      let raw := 4096 * b 24 4
      let small := galSize (b 28 1) * b 24 4
      let n := if op = 0x30 then raw else small
      let m := if op = 0x30 then small else raw
      let okCount := 1 ≤ b 24 4 ∧ b 24 4 ≤ 256 ∧ (op = 0x31 → c.streams = false → b 24 4 ≤ 16)
      (b 28 1 = 0 ∨ 3 < b 28 1 → Cert.Says s i c 3 28 0) ∧
      (1 ≤ b 28 1 → b 28 1 ≤ 3 → b 24 4 = 0 ∨ 256 < b 24 4 → Cert.Says s i c 3 24 0) ∧
      (1 ≤ b 28 1 → b 28 1 ≤ 3 → okCount → may (b 8 8) n false = false → Cert.Says s i c 3 8 0) ∧
      (∀ k, 1 ≤ b 28 1 → b 28 1 ≤ 3 → okCount → may (b 8 8) n false = true → may (b 16 8) m true = true → apart (b 8 8) n (b 16 8) m →
        s.hostCoder false = some k →
        NextIs (exec i s) (fun t => Cert.Under s t h c ∧ ∃ r, t.coder k = { s.coder k with queue := (s.coder k).queue ++ [r] } ∧
          Cert.Asks r c (op - 0x30) raw ∧ r.ratio = b 28 1))
    let cph := fun (op : Nat) (i : Instr) => Cert.Ready s h op c →
      let k := keyIndex c.func false (b 28 1)
      let n := b 24 4
      let plain := c.expert = false ∧ 1 ≤ n ∧ n ≤ 65536
      let src := if op = 0x32 then n else n + 16
      let dst := if op = 0x33 then n else if b 44 12 = 0 then n + 28 else n + 16
      (c.expert = true → 1 < b 29 1 → Cert.Says s i c 2 29 0) ∧
      (c.expert = true → b 29 1 = 1 → s.deck.lc = .field → Cert.Says s i c 0x0F 0 0) ∧
      (c.expert = false → n = 0 → Cert.Says s i c 3 24 0) ∧
      (plain → may (b 8 8) src false = true → may (b 16 8) dst true = true → b 28 1 < 16 → (s.slot k).type = 0 → Cert.Says s i c 3 28 0) ∧
      (∀ g, plain → may (b 8 8) src false = true → may (b 16 8) dst true = true → b 28 1 < 16 → (s.slot k).type ≠ 0 →
        (op = 0x32 → b 44 12 = 0 → (s.slot k).invoc ≠ BitVec.allOnes 40) → may (b 32 8) (b 40 4) false = true → b 40 4 ≤ 65536 → s.hostGrp false = some g →
        NextIs (exec i s) (fun t => Cert.Under s t h c ∧ (∃ r, t.grp g = { s.grp g with queue := (s.grp g).queue ++ [r] } ∧ Cert.Asks r c (op - 0x32) n ∧
          r.slot = b 28 1 ∧ r.aad = canon 0 (b 32 8) ∧ r.aadLen = b 40 4 ∧
          r.iv.toNat = (if op = 0x32 ∧ b 44 12 = 0 then (s.slot k).invoc.toNat + 2 ^ 40 * (s.slot k).gen.toNat + 2 ^ 64 * s.deck.epoch.toNat else b 44 12)) ∧
          (t.slot k).invoc.toNat = (s.slot k).invoc.toNat + (if op = 0x32 ∧ b 44 12 = 0 then 1 else 0)))
    gal 0x30 (.compress h) ∧ gal 0x31 (.expand h) ∧ cph 0x32 (.seal h) ∧ cph 0x33 (.unseal h)

/-- KEY_LOAD and KEY_ERASE (R326-R329, Table 11.3): a key record with a good CRC and zero pad takes the slot, with its generation advanced and no invocation used; an erased slot is empty. -/
def Sys2Proof.Cert.KeyCommands : Prop :=
  ∀ (s : State) (h : Nat) (c : Cmd) (host : HostIn),
    let b := fun (o n : Nat) => pkN c.pkt o n
    let k := keyIndex c.func false (b 28 1)
    let next := fun (g : BitVec 24) => if g = 0xFFFFFF then 1 else g + 1
    let rd := (s.unitFetch host c.func false 0 none (b 8 8) 64).unitRead host c.func false 0 (b 8 8) 64
    let word := fun (l : List Byte) (o n : Nat) => leNat ((l.drop o).take n)
    (Cert.Ready s h 0x34 c →
      (1 < b 29 1 → Cert.Says s (.keyLoad h host) c 2 29 0) ∧
      (b 29 1 ≤ 1 → s.rangePerm c.func false 0 (b 8 8) 64 false = false → Cert.Says s (.keyLoad h host) c 3 8 0) ∧
      (b 29 1 ≤ 1 → s.rangePerm c.func false 0 (b 8 8) 64 false = true → 15 < b 28 1 → Cert.Says s (.keyLoad h host) c 3 28 0) ∧
      (b 29 1 ≤ 1 → s.rangePerm c.func false 0 (b 8 8) 64 false = true → b 28 1 ≤ 15 → s.flt.inj = [] →
        (∀ a, rd.2.2 = some a → NextIs (exec (.keyLoad h host) s) (fun t => Cert.Over s t c c.clamped 0x0D 0 (a % 2 ^ 32) 0 ∧ t.slot k = s.slot k)) ∧
        (rd.2.2 = none → rd.2.1 = true → NextIs (exec (.keyLoad h host) s) (fun t => Cert.Over s t c c.clamped 0x0C 0 0 0 ∧ t.slot k = s.slot k)) ∧
        (rd.2.2 = none → rd.2.1 = false → rd.1.length = 64 →
          ((crc32c (rd.1.take 32)).toNat ≠ word rd.1 32 4 ∨ word rd.1 36 28 ≠ 0 ∨ (b 29 1 = 0 ∧ word rd.1 16 16 ≠ 0) →
            NextIs (exec (.keyLoad h host) s) (fun t => Cert.Over s t c c.clamped 3 0 8 0 ∧ t.slot k = s.slot k)) ∧
          ((crc32c (rd.1.take 32)).toNat = word rd.1 32 4 → word rd.1 36 28 = 0 → (b 29 1 = 0 → word rd.1 16 16 = 0) →
            NextIs (exec (.keyLoad h host) s) (fun t => Cert.Over s t c c.clamped 0 0 (next (s.slot k).gen).toNat 0 ∧
              (t.slot k).type.toNat = 1 + b 29 1 ∧ (t.slot k).key.toNat = word rd.1 0 32 ∧ (t.slot k).gen = next (s.slot k).gen ∧ (t.slot k).invoc = 0 ∧
              ∀ j, j ≠ k → t.slot j = s.slot j))))) ∧
    (Cert.Ready s h 0x35 c →
      (15 < b 28 1 → Cert.Says s (.keyErase h) c 3 28 0) ∧
      (b 28 1 ≤ 15 → (∀ g, g < 64 → (s.grp g).run = none) →
        NextIs (exec (.keyErase h) s) (fun t => Cert.Over s t c c.clamped 0 0 (next (s.slot k).gen).toNat 0 ∧
          (t.slot k).type = 0 ∧ (t.slot k).key = 0 ∧ (t.slot k).invoc = 0 ∧ (t.slot k).gen = next (s.slot k).gen ∧ ∀ j, j ≠ k → t.slot j = s.slot j)))

/-- Images (R208, R209, R390, R391): a file whose checks pass begins its load under its handle, another completes with DENIED; when the load ends its words stand in the program memory, the handle holds the image and M6 is extended; a bound image is used by its function alone. -/
def Sys2Proof.Cert.ImageCommands : Prop :=
  ∀ (s : State) (h : Nat) (c : Cmd) (host : HostIn),
    let b := fun (o n : Nat) => pkN c.pkt o n
    let t0 := s.unitFetch host c.func false 0 none (b 8 8) (b 16 4)
    let rd := t0.unitRead host c.func false 0 (b 8 8) (b 16 4)
    let file := parseImage rd.1 (t0.deck.lc == .provision || t0.deck.lc == .service) t0.tru.wm.pgm.toNat t0.deck.wmNext.pgm.toNat true
    let denied := NextIs (exec (.imageLoad h host) s) (fun t => Cert.Over s t c c.clamped 0x0E 0 0 0 ∧ t.mp.load = none ∧ t.deck.images = s.deck.images)
    (Cert.AdminReady s h 0x40 c → s.mp.load = none → s.rangePerm c.func false 0 (b 8 8) (max (b 16 4) 1) false = true →
      (b 16 4 < 64 ∨ 131072 < b 16 4 → Cert.Says s (.imageLoad h host) c 3 16 0) ∧
      (64 ≤ b 16 4 → b 16 4 ≤ 131072 → 255 < b 20 2 → Cert.Says s (.imageLoad h host) c 3 20 0) ∧
      (64 ≤ b 16 4 → b 16 4 ≤ 131072 → b 20 2 ≤ 255 → s.flt.inj = [] → rd.2 = (false, none) →
        (file = none → denied) ∧
        (∀ x, file = some x → x.secure = true ∨ s.deck.images = [] →
          if t0.imageSig rd.1 = true then NextIs (exec (.imageLoad h host) s) (fun t => Cert.Under s t h c ∧ t.mp.load = some (b 20 2, x, c.handle) ∧ t.deck.images = s.deck.images)
          else denied))) ∧
    (Cert.AdminReady s h 0x41 c →
      (255 < b 8 2 ∨ s.img (b 8 2) = none → Cert.Says s (.imageBind h) c 3 8 0) ∧
      (∀ x, b 8 2 ≤ 255 → s.img (b 8 2) = some x → 256 < b 10 2 → Cert.Says s (.imageBind h) c 3 10 0) ∧
      (∀ x, b 8 2 ≤ 255 → s.img (b 8 2) = some x → b 10 2 ≤ 256 → s.imageUsed (b 8 2) x (fun _ => true) = false →
        NextIs (exec (.imageBind h) s) (fun t => Cert.Over s t c c.clamped 0 0 0 0 ∧
          ∀ f, t.imgFor f (b 8 2) = (if f = b 10 2 ∨ (b 10 2 = 0 ∧ f = 0x101) then some x else none)))) ∧
    (∀ k x n, s.live = true → s.pwr.stop = false → s.mp.run = 0 → s.mp.load = some (k, x, n) →
      NextIs (exec .imageLoadComplete s) (fun t => t.mp.load = none ∧
        (x.secure = true → t.deck.secImage = some x ∧ t.deck.images = s.deck.images ∧ t.eng.prog = s.eng.prog) ∧
        (x.secure = false → Sp.look t.deck.images none k = some x ∧ t.deck.order = s.deck.order ++ [k] ∧
          (∀ j, j < x.words.length → Sp.look t.eng.prog 0x3FFE (x.base.toNat + j) = x.words.getD j 0) ∧
          Sp.look t.tru.meas 0 6 = BitVec.ofNat 384 (leNat (bytesOf (sha384 (natsOf (leBytes (Sp.look s.tru.meas 0 6).toNat 48) ++ sha384 (natsOf x.raw))))))))

/-! ## The Tally's timers and the links (04, 05) -/

namespace Sys2Proof.Cert

/-- Ticks in n µs and in n ms (R5). -/
def usOf (n : Nat) : Nat := 100 * n
def msOf (n : Nat) : Nat := 100000 * n

/-- A frame as it leaves on link l, its trailer undamaged (R143, R144). -/
def wired (l : Nat) (f : Frame) : Out := .frame l (frameBytes f 0)

/-- Link l leaves service: state, cause, queues; with no transaction in the Tally the loss of an UP link is the F2 of R148 and nothing more. -/
def Leaves (s t : State) (l : Nat) (st : LState) (cause : Nat) : Prop :=
  let x := s.link l
  let y := t.link l
  y.state = st ∧ y.downCause = BitVec.ofNat 4 cause ∧ y.entered = s.tick ∧ y.blockLock = false ∧ y.fecLock = false ∧ y.cfg.ackTimeout = x.cfg.ackTimeout ∧
    (x.state = .up → y.sent = [] ∧ y.dataQ = [] ∧ y.ctrlQ = []) ∧
    (x.state = .up → st = .down → s.on = true → s.tly.entries = [] → Logged s t (0x1400 + l) 0x23 cause)

end Sys2Proof.Cert

/-- Holds, the guard and notes (R106, R117, R127): a freed index is held for REUSE_HOLD, the guard follows an old checkpoint, an abort note is asked for 200 µs after ABORTED while an outcome is pending, and a note in the Deck sets NOTED. -/
def Sys2Proof.Cert.TallyTimers : Prop :=
  ∀ (s : State) (i : TlyIx),
    (s.on = true → (∃ d ≤ s.tick, (i.val, d, false) ∈ s.tly.freed) →
      NextIs (exec (.reuseHoldExpiry i) s) (fun t => t = { s with tly := t.tly } ∧ t.tly.entries = s.tly.entries ∧
        (∀ d h, (i.val, d, h) ∈ t.tly.freed → h = true) ∧ ∀ x ∈ s.tly.freed, x.1 ≠ i.val → x ∈ t.tly.freed)) ∧
    (s.on = true → s.start.loaded = true → s.tly.guard = false → s.tly.lastCkpt + 1000 * Cert.usOf s.tly.reuseHold.toNat ≤ s.tick →
      exec .checkpointGuardExpiry s = .next { s with tly := { s.tly with guard := true } }) ∧
    (s.live = true → s.tly.stopped = false → ∀ due, Sp.look s.tly.noteDue 0 i.val = due → due ≠ 0 → due ≤ s.tick →
      (s.entry i.val).state = .aborted → (s.entry i.val).outPend ≠ 0 → s.hasNote (s.tidAt i.val) false = false →
      NextIs (exec (.abortNoteDelayExpiry i) s) (fun t => t.deck.notes = s.deck.notes ++ [⟨s.tidAt i.val, (s.entry i.val).func, false, false, none, false⟩] ∧
        t.tly.entries = s.tly.entries ∧ Sp.look t.tly.noteDue 0 i.val = 0)) ∧
    (∀ n r, s.live = true → s.tly.stopped = false → s.pwr.stop = false → s.notesUsed < 65536 → s.deck.notes = n :: r → n.written = false →
      n.tid = s.tidAt i.val → (s.entry i.val).state ≠ .free →
      NextIs (exec (.noteWritten i) s) (fun t => { n with written := true } ∈ t.deck.notes ∧ (t.entry i.val).noted = true ∧
        (t.entry i.val).state = (s.entry i.val).state))

/-- Checkpoints (R117, R126, R127): a checkpoint begins when it is due with nothing read, reads in index order every entry that is not FREE or COMPLETE as it stands when it is read, the last of them when it ends; then it takes the older place, ends the guard and frees the commit notes of entries that were FREE before it began. -/
def Sys2Proof.Cert.Checkpoints : Prop :=
  (∀ s : State, s.live = true → s.tly.stopped = false → s.isReady = true → s.tly.ckpt = none → s.tly.nextCkpt ≤ s.tick →
    NextIs (exec .checkpointStart s) (fun t => ∃ r, t.tly.ckpt = some r ∧ r.began = s.tick ∧ r.image.kind = .checkpoint ∧ r.image.seq = s.deck.seq + 1 ∧
      r.pos = 0 ∧ r.image.entries = [] ∧
      t.tly = { s.tly with ckpt := some r, nextCkpt := s.tick + Cert.msOf s.tly.ckptPeriod.toNat } ∧ t.deck = { s.deck with seq := s.deck.seq + 1 })) ∧
  (∀ (s : State) (r : CkptRun), s.live = true → s.tly.stopped = false → s.pwr.stop = false → s.tly.ckpt = some r →
    NextIs (exec .checkpointComplete s) (fun t => t.tly.ckpt = none ∧ t.tly.guard = false ∧ t.tly.lastCkpt = r.began ∧ t.tly.entries = s.tly.entries ∧
      t.tly.ckptCount = (s.tly.ckptCount + 1) % 65536 ∧
      (∃ im, (if r.toB then t.deck.ckptB = some im ∧ t.deck.ckptA = s.deck.ckptA else t.deck.ckptA = some im ∧ t.deck.ckptB = s.deck.ckptB) ∧
        im.seq = r.image.seq ∧ im.kind = r.image.kind ∧
        ∀ e, e ∈ im.entries ↔ e ∈ r.image.entries ∨ (e ∈ s.tly.entries ∧ e.2.state ≠ .free ∧ e.2.state ≠ .complete ∧ r.pos ≤ e.1 ∧ e.1 < 1048576)) ∧
      ∀ n, n ∈ t.deck.notes ↔ n ∈ s.deck.notes ∧ ¬ (n.commit = true ∧ ∃ k < r.began, n.freedAt = some k)))

/-- Doubt (R133, R134, R137, R138): the wait of a TID in doubt is logged once, the doubt table closes when every path group was heard and nothing is in doubt, and the indices it withheld are looked for again, and reading a restore record on takes the next. -/
def Sys2Proof.Cert.DoubtTimers : Prop :=
  (∀ (s : State) (d : InDoubt), s.on = true → s.tly.inDoubt = [d] → d.logged = false → d.since + Cert.msOf s.tly.resolveWait.toNat ≤ s.tick →
    NextIs (exec (.resolveWaitExpiry d.tid) s) (fun t => t.tly.inDoubt = [{ d with logged := true }] ∧ Cert.Logged s t 0x1600 0x06 0 ∧
      t.tly.entries = s.tly.entries)) ∧
  (∀ (s : State) (d : Doubt), s.live = true → s.pwr.stop = false → s.deck.doubt = some d → s.tly.inDoubt = [] →
    d.lastReport + Cert.msOf s.tly.resolveWait.toNat ≤ s.tick → d.since + 2 * Cert.msOf s.ch.frameLife.toNat ≤ s.tick →
    (∀ g ∈ s.ch.groups, g.2.valid = true → g.1 ∈ d.groupsSeen) →
    exec .doubtTableClose s = .next { s with deck := { s.deck with doubt := none }, tly := { s.tly with virgin := if d.withheld = 0 then s.tly.virgin else [] } }) ∧
  (∀ (s : State) (d : Doubt), s.deck.doubt = some d → s.tly.inDoubt ≠ [] → exec .doubtTableClose s = .next s) ∧
  ∀ (s : State) (p : PortId) (val : W32), s.whoOk (.pf p) = true → val.getLsbD 0 = true → s.tly.inDoubt = [] →
    NextIs (exec (.tlyRlogNext p val) s) (fun t => t = { s with tly := t.tly } ∧ t.tly.entries = s.tly.entries ∧
      (s.tly.rlogWait = [] → t.tly.rlog = s.tly.rlog.drop 1 ∧ t.tly.rlogWait = []) ∧
      ∀ r w, s.tly.rlogWait = r :: w → s.tly.rlog.length ≤ 131072 → s.tly.rlog ≠ [] → t.tly.rlog = s.tly.rlog.drop 1 ++ [r] ∧ t.tly.rlogWait = w)

/-- A link as its training begins (R148). -/
def Sys2Proof.Cert.training (x : Link) (now : Nat) : Link :=
  { x with state := .training, entered := now, blockLock := false, fecLock := false, gotReply := false, sentReply := false }

/-- The fields a write of CH_LINK_CFG leaves, clamped (Table 5.14). -/
def Sys2Proof.Cert.LinkFields (y : LinkCfg) (n : Nat) : Prop :=
  y.ackTimeout.toNat = Cert.into 10 100000 (n / 2 ^ 45 % 2 ^ 17) ∧ y.resendLimit.toNat = max 1 (n / 2 ^ 36 % 16) ∧
    y.replayLimit.toNat = max 1 (n / 2 ^ 32 % 16) ∧ y.silence.toNat = Cert.into 200 3000 (n / 2 ^ 16 % 2 ^ 12) ∧
    y.replayTimeout.toNat = max 20 (n / 2 ^ 8 % 2 ^ 8) ∧ y.enable = n.testBit 0

/-- How many fields of a write of CH_LINK_CFG are clamped. -/
def Sys2Proof.Cert.linkForced (n : Nat) : Nat :=
  Cert.forced 10 100000 (n / 2 ^ 45 % 2 ^ 17) + Cert.forced 1 15 (n / 2 ^ 36 % 16) + Cert.forced 1 15 (n / 2 ^ 32 % 16) +
    Cert.forced 200 3000 (n / 2 ^ 16 % 2 ^ 12) + Cert.forced 20 255 (n / 2 ^ 8 % 2 ^ 8)

/-- Link configuration (R148, Table 5.14): fields out of range are clamped and counted; enabled with LREF a DISABLED link trains, except in END (R388); disabled it stays DISABLED, with its queues empty. -/
def Sys2Proof.Cert.LinkConfiguration : Prop :=
  ∀ (s : State) (l : LinkId) (p : PortId) (val : W64), s.whoOk (.pf p) = true →
    let x := s.link l.val
    let n := val.toNat
    (n.testBit 0 = true → x.cfg.enable = false →
      NextIs (exec (.linkEnable p l val) s) (fun t => Cert.LinkFields (t.link l.val).cfg n ∧ (t.link l.val).cfg.fec = n.testBit 2 ∧
        Cert.Clamps s t (if p.val = 0 then 0 else 0x101) (Cert.linkForced n) ∧
        (t.link l.val).state = (if x.state = .disabled ∧ s.ch.lref.getLsbD (l.val / 16) = true ∧ s.deck.lc ≠ .endState then .training else x.state) ∧ t.out = s.out)) ∧
    (n.testBit 0 = false → x.cfg.enable = true →
      NextIs (exec (.linkDisable p l val) s) (fun t => Cert.LinkFields (t.link l.val).cfg n ∧ (t.link l.val).cfg.fec = x.cfg.fec ∧
        (t.link l.val).state = .disabled ∧ (t.link l.val).downCause = 6 ∧ (x.state = .up → (t.link l.val).sent = [] ∧ (t.link l.val).dataQ = [])))

/-- Link states (R148, R149, R162): trained a link probes; training past 500 ms, probing past 100 ms, lost lock and silence take it DOWN with their causes; DOWN it trains again after 10 ms. -/
def Sys2Proof.Cert.LinkStates : Prop :=
  ∀ (s : State) (l : LinkId), s.live = true →
    let x := s.link l.val
    (x.state = .training → NextIs (exec (.trainingComplete l) s) (fun t => t = { s with ch := t.ch } ∧
      t.link l.val = { x with state := .probing, entered := s.tick, lastProbe := 0, blockLock := true, fecLock := x.cfg.fec, gotReply := false, sentReply := false })) ∧
    (x.state = .training → x.entered + Cert.msOf 500 ≤ s.tick → NextIs (exec (.trainingLimitExpiry l) s) (fun t => Cert.Leaves s t l.val .down 7)) ∧
    (x.state = .probing → x.entered + Cert.msOf 100 ≤ s.tick → NextIs (exec (.probingLimitExpiry l) s) (fun t => Cert.Leaves s t l.val .down 7)) ∧
    (x.state = .probing → x.lastProbe + Cert.msOf 1 ≤ s.tick → NextIs (exec (.probeInterval l) s) (fun t => ∃ f, t.out = s.out ++ [Cert.wired l.val f] ∧
      f.type = 6 ∧ f.flags = 0 ∧ f.tid = 0 ∧ f.payload.length = 16 ∧ leNat (f.payload.take 4) = s.deck.epoch.toNat ∧
      leNat ((f.payload.drop 4).take 2) = s.ch.moduleId.toNat ∧ leNat ((f.payload.drop 8).take 2) = l.val ∧ (t.link l.val).lastProbe = s.tick)) ∧
    (x.state = .down → x.entered + Cert.msOf 10 ≤ s.tick → x.cfg.enable = true → s.ch.lref.getLsbD (l.val / 16) = true →
      NextIs (exec (.downHoldExpiry l) s) (fun t => t = { s with ch := t.ch } ∧ t.link l.val = Cert.training x s.tick)) ∧
    (x.state = .up → NextIs (exec (.lockLoss l) s) (fun t => Cert.Leaves s t l.val .down 1)) ∧
    (x.state = .up → x.lastRx + Cert.usOf x.cfg.silence.toNat ≤ s.tick → NextIs (exec (.linkSilenceExpiry l) s) (fun t => Cert.Leaves s t l.val .down 2))

/-- LREF (R17, R148, R163): its loss takes the UP links of its cluster DOWN with cause 4, its return lets those left DISABLED train, except in END (R388); the links of other clusters keep their states. -/
def Sys2Proof.Cert.LinkReferences : Prop :=
  ∀ (s : State) (l : LinkId) (c : ClId),
    let x := s.link l.val
    (s.ch.lref.getLsbD c.val = true → NextIs (exec (.lrefLoss c) s) (fun t =>
      (∀ k, k < 16 → t.ch.lref.getLsbD k = (s.ch.lref.getLsbD k && k != c.val)) ∧
      (s.live = true → l.val / 16 = c.val → x.state = .up → (t.link l.val).state = .down ∧ (t.link l.val).downCause = 4) ∧
      (l.val / 16 ≠ c.val ∨ x.state ≠ .up → (t.link l.val).state = x.state))) ∧
    (s.ch.lref.getLsbD c.val = false → NextIs (exec (.lrefReturn c) s) (fun t => t = { s with ch := t.ch, pwr := t.pwr } ∧
      (∀ k, k < 16 → t.ch.lref.getLsbD k = (s.ch.lref.getLsbD k || k == c.val)) ∧
      (s.live = true → l.val / 16 = c.val → x.state = .disabled → x.cfg.enable = true → s.deck.lc ≠ .endState → t.link l.val = Cert.training x s.tick) ∧
      (l.val / 16 ≠ c.val ∨ x.state ≠ .disabled ∨ x.cfg.enable = false ∨ s.deck.lc = .endState → t.link l.val = x)))

namespace Sys2Proof.Cert

/-- Counter j of link l (Table 5.12). -/
def cnt (s : State) (l j : Nat) : Nat := (Sp.look (s.link l).cnt 0 j).toNat

/-- Counter j of link l has grown by n, saturating. -/
def Counts (s t : State) (l j n : Nat) : Prop := cnt t l j = min 0xFFFFFFFF (cnt s l j + n)

/-- A frame of a type reaches an UP link of a module in service and passes steps 2 to 5 of Table 5.5. -/
def Arrives (s : State) (l : Nat) (f : Frame) (type : Nat) : Prop :=
  s.live = true ∧ (s.link l).state = .up ∧ f.type.toNat = type ∧ frameAllowed f = true ∧ f.partner = s.linkPartner l ∧
    (type = 1 → f.lseq = (s.link l).rxLseq ∧ (20 + f.payload.length + 255) / 256 ≤ ((s.link l).advData - (s.link l).rxData).toNat) ∧
    (type = 7 → f.lseq = (s.link l).rxLseq ∧ 1 ≤ ((s.link l).advCtrl - (s.link l).rxCtrl).toNat)

/-- The link belongs to a group whose partner is that of the frame's group (step 6). -/
def Belongs (s : State) (l : Nat) (f : Frame) : Prop :=
  (s.group f.group.toNat).valid = true ∧ (∃ g ∈ s.ch.groups, g.2.has l = true) ∧ s.linkPartner l = (s.group f.group.toNat).partner

/-- The frame names slot g of the live entry at i (step 6). -/
def Hits (s : State) (l : Nat) (f : Frame) (i g : Nat) : Prop :=
  Belongs s l f ∧ s.tidLive f.tid = true ∧ tidIdx f.tid = i ∧ (s.entry i).slotOf f.group.toNat = some g

/-- The entry at i sends and receives data. -/
def Flows (s : State) (i : Nat) : Prop := (s.entry i).state = .active ∨ (s.entry i).state = .held

/-- The frame rows by type (Table 5.3). -/
def frameRow (type : Nat) (l : LinkId) (f : Frame) : Instr :=
  match type with
  | 1 => .dataFrame l f
  | 2 => .ackFrame l f
  | 3 => .nakFrame l f
  | 4 => .creditFrame l f
  | 5 => .idleFrame l f
  | 6 => .probeFrame l f
  | _ => .queryFrame l f

/-- Bytes of a payload as a number. -/
def pay (f : Frame) (o n : Nat) : Nat := leNat ((f.payload.drop o).take n)

end Sys2Proof.Cert

/-- Frames as bytes (R143, R144, R147, Tables 5.2 to 5.5): a frame with the LENGTH, flags and zero bytes that its TYPE allows is read back whole from its 20 + LENGTH bytes, and from no bytes with a bit of the trailer inverted; one that its TYPE does not allow fails step 2. -/
def Sys2Proof.Cert.FramesAsBytes : Prop :=
  ∀ f : Frame, f.payload.length ≤ 4096 →
    (∀ flip, (frameBytes f flip).length = 20 + f.payload.length) ∧
    (frameAllowed f = true → readFrame (frameBytes f 0) = .frame f) ∧
    (frameAllowed f = false → readFrame (frameBytes f 0) = .bad (if f.type = 1 ∨ 7 ≤ f.type.toNat ∧ f.type.toNat ≤ 9 then some f.lseq else none)) ∧
    (∀ flip, flip ≠ 0 → readFrame (frameBytes f flip) = .broken) ∧
    leNat ((frameBytes f 0).take 16) = f.type.toNat + 2 ^ 4 + f.flags.toNat * 2 ^ 8 + f.payload.length * 2 ^ 16 + f.partner.toNat * 2 ^ 32 +
      f.group.toNat * 2 ^ 48 + f.tenant.toNat * 2 ^ 58 + f.lseq.toNat * 2 ^ 67 + f.tid.toNat * 2 ^ 80 + f.seq.toNat * 2 ^ 112 ∧
    ((frameBytes f 0).drop 16).take f.payload.length = f.payload

/-- Receive checks (R147, R152, Table 5.5): a frame that its TYPE does not allow is counted, and takes the LSEQ it has if that is due; a frame of another partner is counted and logged at most once a second; a sequenced frame below the expected LSEQ goes silently, one above asks for a replay; one beyond the credits is bad but takes its LSEQ; a frame of a stale generation is a late drop; damaged framing is counted and, on an UP link, answered with a link NAK; FEC codewords are counted while FEC is on. -/
def Sys2Proof.Cert.ReceiveChecks : Prop :=
  ∀ (s : State) (l : LinkId) (f : Frame) (type : Nat), s.live = true → 1 ≤ type → type ≤ 7 → f.type.toNat = type → (s.link l.val).state = .up →
    let x := s.link l.val
    let i := Cert.frameRow type l f
    let ahead := (f.lseq - x.rxLseq).toNat
    let quiet := fun (t : State) => t.tly.entries = s.tly.entries ∧ t.ch.flows = s.ch.flows
    let naks := fun (t : State) => ∃ n, t.out = s.out ++ [Cert.wired l.val n] ∧ n.type = 3 ∧ Cert.pay n 0 2 = 0 ∧ Cert.pay n 2 2 = x.rxLseq.toNat
    (frameAllowed f = false → NextIs (exec i s) (fun t => quiet t ∧ Cert.Counts s t l.val 9 1 ∧ t.out = s.out ∧
      (type = 1 ∨ type = 7 → f.lseq = x.rxLseq → (t.link l.val).rxLseq = x.rxLseq + 1) ∧
      ((type ≠ 1 ∧ type ≠ 7) ∨ f.lseq ≠ x.rxLseq → (t.link l.val).rxLseq = x.rxLseq))) ∧
    (frameAllowed f = true → f.partner ≠ s.linkPartner l.val → NextIs (exec i s) (fun t => quiet t ∧ Cert.Counts s t l.val 9 1 ∧ t.out = s.out ∧
      (x.f0At = none → Cert.Logged s t (0x1400 + l.val) 0x05 l.val) ∧
      (∀ k, x.f0At = some k → s.tick < k + 100000000 → t.flt = s.flt))) ∧
    (frameAllowed f = true → type = 1 ∨ type = 7 → f.partner = s.linkPartner l.val →
      (512 ≤ ahead → NextIs (exec i s) (fun t => quiet t ∧ t.out = s.out ∧ (t.link l.val).rxLseq = x.rxLseq)) ∧
      (1 ≤ ahead → ahead < 512 → x.nakSent = none → NextIs (exec i s) (fun t => quiet t ∧ naks t ∧ (t.link l.val).rxLseq = x.rxLseq)) ∧
      (ahead = 0 → (type = 1 ∧ (x.advData - x.rxData).toNat < (20 + f.payload.length + 255) / 256) ∨ (type = 7 ∧ x.advCtrl = x.rxCtrl) →
        NextIs (exec i s) (fun t => quiet t ∧ Cert.Counts s t l.val 9 1 ∧ (t.link l.val).rxLseq = x.rxLseq + 1))) ∧
    (Cert.Arrives s l.val f type → type = 1 ∨ (type = 2 ∧ f.flags.getLsbD 3 = false) →
      (¬ Cert.Belongs s l.val f → NextIs (exec i s) (fun t => quiet t ∧ Cert.Counts s t l.val 9 1)) ∧
      (Cert.Belongs s l.val f → s.tidLive f.tid = false → NextIs (exec i s) (fun t => quiet t ∧ Cert.Counts s t l.val 0 1))) ∧
    (∀ bs framed, (framed = true → readFrame bs = .broken) →
      (x.nakSent = none → NextIs (exec (.framingError l framed (.bytes bs)) s) (fun t => quiet t ∧ Cert.Counts s t l.val 3 1 ∧ naks t)) ∧
      (∀ z : State, z.live = true → (z.link l.val).state = .probing →
        NextIs (exec (.framingError l framed (.bytes bs)) z) (fun t => Cert.Counts z t l.val 3 1 ∧ t = { z with ch := t.ch }))) ∧
    (∀ bs n, readFrame bs = .bad n → NextIs (exec (.framingError l true (.bytes bs)) s) (fun t => quiet t ∧ Cert.Counts s t l.val 9 1 ∧
      (t.link l.val).rxLseq = (if n = some x.rxLseq then x.rxLseq + 1 else x.rxLseq))) ∧
    ∀ (f : Bool) (a b : Byte), (x.cfg.fec = true → NextIs (exec (.framingError l f (.fec a b)) s) (fun t => t = { s with ch := t.ch } ∧
      Cert.Counts s t l.val 7 a.toNat ∧ Cert.Counts s t l.val 8 b.toNat ∧ quiet t)) ∧
      (x.cfg.fec = false → exec (.framingError l f (.fec a b)) s = .next s)

/-- DATA (R113, R146, R154-R156): the next frame in order is accepted, a duplicate and a frame ahead are counted, and each is answered with an ACK of the highest SEQ held, LAST once the last frame is held, GAP for a frame ahead alone; an empty reply to an opcode that has none is a bad frame; the last frame of a reply records the group. -/
def Sys2Proof.Cert.DataFrames : Prop :=
  ∀ (s : State) (l : LinkId) (f : Frame) (i g : Nat), Cert.Arrives s l.val f 1 → Cert.Hits s l.val f i g →
    let x := s.flow i g
    let acks := fun (t : State) (last gap : Bool) (q : W16) => ∃ a, t.out.getLast? = some (Cert.wired l.val a) ∧ a.type = 2 ∧ a.tid = f.tid ∧
      a.group = f.group ∧ a.tenant = f.tenant ∧ a.payload = [] ∧ a.seq = q ∧ a.flags.toNat = Cert.worth last 1 + Cert.worth gap 64
    let last := f.flags.getLsbD 0
    let full := f.payload ≠ [] ∨ (s.entry i).opc = 4 ∨ (s.entry i).opc = 5
    (¬ full → NextIs (exec (.dataFrame l f) s) (fun t => t.ch.flows = s.ch.flows ∧ t.tly.entries = s.tly.entries ∧ Cert.Counts s t l.val 9 1)) ∧
    (full → f.seq = x.rxNext → x.rxLast = true ∨ ¬ Cert.Flows s i → NextIs (exec (.dataFrame l f) s) (fun t => t.ch.flows = s.ch.flows ∧
      t.tly.entries = s.tly.entries ∧ Cert.cnt t l.val 2 = Cert.cnt s l.val 2 ∧ acks t x.rxLast false (x.rxNext - 1))) ∧
    (full → f.seq = x.rxNext → x.rxLast = false → Cert.Flows s i → NextIs (exec (.dataFrame l f) s) (fun t =>
      (t.flow i g).rxNext = x.rxNext + 1 ∧ (t.flow i g).rxLast = last ∧ (t.flow i g).rxBytes = x.rxBytes + f.payload.length ∧ acks t last false f.seq ∧
      (last = true → x.expectReply = true → (t.entry i).ackMask.getLsbD g = true) ∧ (t.entry i).state = (s.entry i).state)) ∧
    (full → f.seq.toNat < x.rxNext.toNat → NextIs (exec (.dataFrame l f) s) (fun t => t.ch.flows = s.ch.flows ∧ t.tly.entries = s.tly.entries ∧
      Cert.Counts s t l.val 1 1 ∧ acks t x.rxLast false (x.rxNext - 1))) ∧
    (full → x.rxNext.toNat < f.seq.toNat → NextIs (exec (.dataFrame l f) s) (fun t => t.ch.flows = s.ch.flows ∧ t.tly.entries = s.tly.entries ∧
      Cert.Counts s t l.val 2 1 ∧ acks t x.rxLast true (x.rxNext - 1)))

/-- ACK and NAK (R113, R115, R117, R152, R156, R159): an ACK frees the stored frames it covers and records the group on LAST; one that names an outcome clears its OUT_PEND bit and may free the entry; an ACK for a state that sends nothing changes nothing; a link NAK replays what FRAME_LIFE still allows (R169), BUSY pauses, REFUSED stops. -/
def Sys2Proof.Cert.Acknowledgements : Prop :=
  ∀ (s : State) (l : LinkId) (f : Frame) (i g : Nat),
    let x := s.flow i g
    let e := s.entry i
    (Cert.Arrives s l.val f 2 → Cert.Hits s l.val f i g →
      (f.flags.getLsbD 3 = true →
        ((e.state = .committed ∨ e.state = .complete ∨ e.state = .aborted) → e.outPend.getLsbD g = true →
          NextIs (exec (.ackFrame l f) s) (fun t => (∀ k, k < 3 → (t.entry i).outPend.getLsbD k = (e.outPend.getLsbD k && k != g)) ∧
            (e.state = .complete → e.consumed = true → (∀ k, k < 3 → k ≠ g → e.outPend.getLsbD k = false) → (t.entry i).state = .free))) ∧
        (Cert.Flows s i ∨ e.state = .opened → NextIs (exec (.ackFrame l f) s) (fun t => t.tly.entries = s.tly.entries ∧ t.ch.flows = s.ch.flows))) ∧
      (f.flags.getLsbD 3 = false →
        (Cert.Flows s i → f.flags.getLsbD 6 = false → f.seq ≠ 0xFFFF → NextIs (exec (.ackFrame l f) s) (fun t =>
          (t.flow i g).stored = x.stored.filter (fun y => decide (f.seq.toNat < y.f.seq.toNat)) ∧
          (t.entry i).ackMask.getLsbD g = (e.ackMask.getLsbD g || (f.flags.getLsbD 0 && !x.expectReply && x.descSent)) ∧
          (∀ k, k < 3 → k ≠ g → (t.entry i).ackMask.getLsbD k = e.ackMask.getLsbD k) ∧ (t.entry i).state = e.state)) ∧
        (¬ Cert.Flows s i → NextIs (exec (.ackFrame l f) s) (fun t => t.tly.entries = s.tly.entries ∧ t.ch.flows = s.ch.flows)))) ∧
    (Cert.Arrives s l.val f 3 →
      (Cert.pay f 0 1 = 0 → ∀ a, (s.link l.val).sent = [a] → Cert.pay f 2 2 = (s.link l.val).ackLseq.toNat → s.flt.inj = [] →
        ((s.link l.val).replays < (s.link l.val).cfg.replayLimit.toNat → a.built + Cert.msOf s.ch.frameLife.toNat < s.tick →
          NextIs (exec (.nakFrame l f) s) (fun t => t.out = s.out ∧ Cert.cnt t l.val 5 = Cert.cnt s l.val 5 ∧ (t.link l.val).replays = (s.link l.val).replays + 1)) ∧
        ((s.link l.val).replays < (s.link l.val).cfg.replayLimit.toNat → s.tick ≤ a.built + Cert.msOf s.ch.frameLife.toNat →
          NextIs (exec (.nakFrame l f) s) (fun t => t.out = s.out ++ [Cert.wired l.val a.f] ∧ Cert.Counts s t l.val 5 1 ∧
            (t.link l.val).replays = (s.link l.val).replays + 1 ∧ (t.link l.val).state = .up)) ∧
        ((s.link l.val).cfg.replayLimit.toNat ≤ (s.link l.val).replays →
          NextIs (exec (.nakFrame l f) s) (fun t => (t.link l.val).state = .down ∧ (t.link l.val).downCause = 3))) ∧
      (Cert.Hits s l.val f i g → Cert.Flows s i →
        (Cert.pay f 0 1 = 1 → NextIs (exec (.nakFrame l f) s) (fun t =>
          t.flow i g = { x with pausedTo := some (s.tick + Cert.usOf (Cert.into 1 10000 (Cert.pay f 4 2))) } ∧ t.tly.entries = s.tly.entries)) ∧
        (Cert.pay f 0 1 = 2 → NextIs (exec (.nakFrame l f) s) (fun t => (t.flow i g).stopped = true ∧ (t.flow i g).stopKind = 3 ∧ (t.flow i g).stored = x.stored ∧
          t.tly.entries = s.tly.entries))))

/-- CREDIT, IDLE, PROBE (R149-R152): limits and NEXT_RX_LSEQ are taken; a probe of the right partner is answered and completes the handshake, another sets MISWIRE; UP, a probe after other traffic is a restart. -/
def Sys2Proof.Cert.ControlFrames : Prop :=
  ∀ (s : State) (l : LinkId) (f : Frame),
    let x := s.link l.val
    let took := fun (t : State) (d c n : Nat) =>
      (t.link l.val).dataLimit = BitVec.ofNat 16 (Cert.pay f d 2) ∧ (t.link l.val).ctrlLimit = BitVec.ofNat 16 (Cert.pay f c 2) ∧
      (∀ k, 1 ≤ k → k ≤ (x.txLseq - x.ackLseq).toNat → Cert.pay f n 2 = (x.ackLseq + BitVec.ofNat 10 k).toNat →
        (t.link l.val).sent = x.sent.drop k ∧ (t.link l.val).ackLseq = x.ackLseq + BitVec.ofNat 10 k ∧ (t.link l.val).replays = 0)
    (Cert.Arrives s l.val f 4 → NextIs (exec (.creditFrame l f) s) (fun t => t = { s with ch := t.ch } ∧ took t 0 2 4)) ∧
    (Cert.Arrives s l.val f 5 → NextIs (exec (.idleFrame l f) s) (fun t => t = { s with ch := t.ch } ∧ took t 4 6 8 ∧
      (t.link l.val).epoch = BitVec.ofNat 32 (Cert.pay f 0 4))) ∧
    (s.live = true → f.type = 6 → x.state = .probing → frameAllowed f = false → NextIs (exec (.probeFrame l f) s) (fun t =>
      Cert.Counts s t l.val 9 1 ∧ (t.link l.val).state = .probing ∧ (t.link l.val).seen = x.seen ∧ (t.link l.val).miswire = x.miswire ∧ t.out = s.out)) ∧
    (s.live = true → f.type = 6 → x.state = .probing → frameAllowed f = true →
      (s.grouped l.val = true → Cert.pay f 4 2 ≠ (s.linkPartner l.val).toNat →
        NextIs (exec (.probeFrame l f) s) (fun t => (t.link l.val).miswire = true ∧ (t.link l.val).state = .probing ∧ Cert.Counts s t l.val 9 1 ∧ t.out = s.out)) ∧
      (s.grouped l.val = false ∨ Cert.pay f 4 2 = (s.linkPartner l.val).toNat →
        (f.flags.getLsbD 2 = false → x.gotReply = false → NextIs (exec (.probeFrame l f) s) (fun t => (t.link l.val).sentReply = true ∧
          (t.link l.val).state = .probing ∧ (t.link l.val).miswire = false ∧ ∃ a, t.out = s.out ++ [Cert.wired l.val a] ∧ a.type = 6 ∧ a.flags = 4)) ∧
        ((f.flags.getLsbD 2 = true ∧ x.sentReply = true) ∨ (f.flags.getLsbD 2 = false ∧ x.gotReply = true) →
          NextIs (exec (.probeFrame l f) s) (fun t => (t.link l.val).state = .up ∧ (t.link l.val).txLseq = 0 ∧ (t.link l.val).rxLseq = 0 ∧
            (t.link l.val).sent = [] ∧ (t.link l.val).advData = 128 ∧ (t.link l.val).advCtrl = 32 ∧ (t.link l.val).dataUsed = 0 ∧ (t.link l.val).ctrlUsed = 0)))) ∧
    (Cert.Arrives s l.val f 6 →
      (f.flags.getLsbD 2 = true → NextIs (exec (.probeFrame l f) s) (fun t => (t.link l.val).state = .up ∧ t.out = s.out)) ∧
      (f.flags.getLsbD 2 = false → x.rxOther = true → NextIs (exec (.probeFrame l f) s) (fun t => (t.link l.val).state = .down ∧ (t.link l.val).downCause = 5)) ∧
      (f.flags.getLsbD 2 = false → x.rxOther = false → NextIs (exec (.probeFrame l f) s) (fun t => (t.link l.val).state = .up ∧
        ∃ a, t.out = s.out ++ [Cert.wired l.val a] ∧ a.type = 6 ∧ a.flags = 4)))

/-- QUERY (R121, R165, Table 4.7): a question is answered from the entry, the notes or the blank Deck; a REPLY ends the questions of its TID and group. -/
def Sys2Proof.Cert.Questions : Prop :=
  ∀ (s : State) (l : LinkId) (f : Frame),
    let x := s.link l.val
    (Cert.Arrives s l.val f 7 → Cert.Belongs s l.val f → f.payload = [] →
      (f.flags.getLsbD 2 = false →
        let e := s.entry (tidIdx f.tid)
        let tells := fun (code : Nat) => NextIs (exec (.queryFrame l f) s) (fun t => t.tly.entries = s.tly.entries ∧
          ∃ a, (t.link l.val).ctrlQ = x.ctrlQ ++ [⟨a, s.tick⟩] ∧ a.type = 7 ∧ a.flags = 4 ∧ a.tid = f.tid ∧ a.group = f.group ∧ a.tenant = f.tenant ∧
            a.payload.length = 8 ∧ leNat a.payload = code)
        (s.tidLive f.tid = true → e.stale = true → tells 4) ∧
        (s.tidLive f.tid = true → e.stale = false → e.state = .opened ∨ e.state = .active ∨ e.state = .held → tells 1) ∧
        (s.tidLive f.tid = true → e.stale = false → e.state = .committed ∨ e.state = .complete → tells 2) ∧
        (s.tidLive f.tid = true → e.stale = false → e.state = .aborted → tells 3) ∧
        (s.tidLive f.tid = false → s.hasNote f.tid false = true → tells 3) ∧
        (s.tidLive f.tid = false → s.hasNote f.tid false = false → s.hasNote f.tid true = true → tells 2) ∧
        (s.tidLive f.tid = false → s.hasNote f.tid false = false → s.hasNote f.tid true = false → s.tly.decided = [] → s.tly.inDoubt = [] →
          s.deck.doubt = none → tells (if s.tly.blank then 5 else 2))) ∧
      (f.flags.getLsbD 2 = true → NextIs (exec (.queryFrame l f) s) (fun t => t.tly.entries = s.tly.entries ∧
        t.tly.outMsgs = s.tly.outMsgs.filter (fun m => !(m.tid = f.tid && m.group = f.group && m.type = 7)))))

/-- What the links send of themselves (R150-R152, Table 5.14): an IDLE on every UP link each 100 µs, a CREDIT 10 µs after a frame, a replay after REPLAY_TIMEOUT, and the frame at the head of a queue with the next LSEQ while window and credits allow; a frame older than FRAME_LIFE is not transmitted (R169). -/
def Sys2Proof.Cert.LinkSends : Prop :=
  ∀ (s : State) (l : LinkId), s.live = true →
    let x := s.link l.val
    let reported := fun (t : State) => (t.link l.val).advData = 128 + x.rxData ∧ (t.link l.val).advCtrl = 32 + x.rxCtrl ∧ (t.link l.val).unreported = none
    (s.ch.lastIdle + Cert.usOf 100 ≤ s.tick → NextIs (exec .idleInterval s) (fun t => t.ch.lastIdle = s.tick ∧
      (x.state = .up → reported t ∧ ∃ f, Cert.wired l.val f ∈ t.out.drop s.out.length ∧ f.type = 5 ∧ Cert.pay f 0 4 = s.deck.epoch.toNat ∧
        Cert.pay f 8 2 = x.rxLseq.toNat))) ∧
    (x.state = .up →
      (∀ k, x.unreported = some k → k + Cert.usOf 10 ≤ s.tick → NextIs (exec (.creditReportTimer l) s) (fun t => reported t ∧
        ∃ f, t.out = s.out ++ [Cert.wired l.val f] ∧ f.type = 4 ∧ Cert.pay f 0 2 = (128 + x.rxData).toNat ∧ Cert.pay f 2 2 = (32 + x.rxCtrl).toNat ∧
          Cert.pay f 4 2 = x.rxLseq.toNat)) ∧
      (∀ a, x.sent = [a] → a.since + Cert.usOf x.cfg.replayTimeout.toNat < s.tick → x.replays < x.cfg.replayLimit.toNat → s.flt.inj = [] →
        s.tick ≤ a.built + Cert.msOf s.ch.frameLife.toNat →
        NextIs (exec (.replayTimeout l) s) (fun t => t.out = s.out ++ [Cert.wired l.val a.f] ∧ (t.link l.val).sent = [{ a with since := s.tick }] ∧
          Cert.Counts s t l.val 5 1)) ∧
      ((x.txLseq - x.ackLseq).toNat < 512 → s.flt.inj = [] → ∀ q r,
        let f := q.f
        let y := { f with lseq := x.txLseq }
        let young := s.tick ≤ q.built + Cert.msOf s.ch.frameLife.toNat
        (x.ctrlQ = q :: r → f.type ≠ 1 → ¬ young → 1 ≤ (x.ctrlLimit - x.ctrlUsed).toNat → NextIs (exec (.frameTransmit l true) s) (fun t =>
          t.out = s.out ∧ (t.link l.val).ctrlQ = r ∧ (t.link l.val).txLseq = x.txLseq)) ∧
        (x.ctrlQ = q :: r → f.type ≠ 1 → young → 1 ≤ (x.ctrlLimit - x.ctrlUsed).toNat → NextIs (exec (.frameTransmit l true) s) (fun t =>
          t.out = s.out ++ [Cert.wired l.val y] ∧ (t.link l.val).ctrlQ = r ∧ (t.link l.val).txLseq = x.txLseq + 1 ∧
          (t.link l.val).sent = x.sent ++ [⟨y, s.tick, q.built⟩] ∧ (t.link l.val).ctrlUsed = x.ctrlUsed + 1 ∧ (t.link l.val).dataUsed = x.dataUsed)) ∧
        (x.dataQ = q :: r → f.type = 1 → young → (20 + f.payload.length + 255) / 256 ≤ (x.dataLimit - x.dataUsed).toNat →
          NextIs (exec (.frameTransmit l false) s) (fun t =>
            t.out = s.out ++ [Cert.wired l.val y] ∧ (t.link l.val).dataQ = r ∧ (t.link l.val).txLseq = x.txLseq + 1 ∧
            (t.link l.val).sent = x.sent ++ [⟨y, s.tick, q.built⟩] ∧ (t.link l.val).ctrlUsed = x.ctrlUsed ∧
            (t.link l.val).dataUsed = x.dataUsed + BitVec.ofNat 16 ((20 + f.payload.length + 255) / 256))))) ∧
    (∀ ctrl, 512 ≤ (x.txLseq - x.ackLseq).toNat → exec (.frameTransmit l ctrl) s = .next s) ∧
    ∀ (p : PortId) (val : W32), s.whoOk (.pf p) = true → val.getLsbD 0 = true →
      NextIs (exec (.chCntClear p l val) s) (fun t => t = { s with ch := t.ch } ∧ t.link l.val = { x with cnt := [] })

/-- Resends (R158, R159, R164, R165, R169): unacknowledged DATA goes out again with RESENT on the next UP link until RESEND_LIMIT, then the flow stops; paused DATA goes when its time is over; outcomes and questions go again without limit; DATA unsent for FRAME_LIFE is discarded. -/
def Sys2Proof.Cert.Resends : Prop :=
  ∀ (s : State) (i : TlyIx) (g : GSlot), s.live = true →
    let x := s.flow i.val g.val
    let e := s.entry i.val
    let lim := (s.link ((s.selLink i.val g.val).getD 0)).cfg.resendLimit.toNat
    let again := fun (c : Instr) =>
      (lim ≤ x.resends → NextIs (exec c s) (fun t => (t.flow i.val g.val).stopped = true ∧ t.tly.entries = s.tly.entries)) ∧
      (∀ k o, x.resends < lim → s.nextLink (e.grp g.val) (e.sel g.val) = some (k, o) → (∀ y ∈ x.stored, y.f.type = 1) →
        NextIs (exec c s) (fun t => (t.flow i.val g.val).resends = x.resends + 1 ∧ (∀ y ∈ (t.flow i.val g.val).stored, y.since = s.tick) ∧
          (t.flow i.val g.val).pausedTo = none ∧ (t.entry i.val).state = e.state ∧
          ∀ y ∈ x.stored, ⟨{ y.f with flags := if y.sent then y.f.flags ||| 0x10 else y.f.flags }, y.built⟩ ∈ (t.link o).dataQ))
    (Cert.Flows s i.val ∨ e.state = .opened → x.stopped = false → x.pausedTo = none → ∀ y r, x.stored = y :: r → y.sent = true →
      y.since + Cert.usOf x.timeout ≤ s.tick → again (.ackTimeout i g)) ∧
    (Cert.Flows s i.val → x.stopped = false →
      (∀ k, x.pausedTo = some k → k ≤ s.tick → again (.busyRetryExpiry i g))) ∧
    (Cert.Flows s i.val ∨ e.state = .opened →
      let old := fun (y : Stored) => !y.sent && decide (y.built + Cert.msOf s.ch.frameLife.toNat ≤ s.tick)
      (∃ y ∈ x.stored, old y = true) → ∀ l, s.selLink i.val g.val = some l → NextIs (exec (.frameLifeExpiry i g) s) (fun t =>
        (t.flow i.val g.val).stored = x.stored.filter (fun y => !old y) ∧ (t.flow i.val g.val).stopped = true ∧ (t.flow i.val g.val).stopKind = 2 ∧
        Cert.Counts s t l 12 (x.stored.countP old) ∧ t.tly.entries = s.tly.entries)) ∧
    ∀ m k o, s.tly.outMsgs = [m] → m.slot = g.val → s.msgDue m = true → s.nextLink m.group.toNat m.link = some (k, o) →
      let sends := fun (c : Instr) => NextIs (exec c s) (fun t => t.tly.outMsgs = [{ m with sent := true, again := true, lastSend := s.tick, link := k }] ∧
        ∃ f, (t.link o).ctrlQ = (s.link o).ctrlQ ++ [⟨f, s.tick⟩] ∧ f.flags = (if m.again then 0x10 else 0) ∧ f.type = BitVec.ofNat 4 m.type ∧ f.tid = m.tid ∧ f.group = m.group ∧ f.tenant = m.tenant)
      (m.type = 8 ∨ m.type = 9 → sends (.outcomeResend m.tid g)) ∧ (m.type = 7 → sends (.queryResend m.tid g))

/-! ## Coherence and the host's caches (10) -/

namespace Sys2Proof.Cert

/-- The request rows (Table 10.2). -/
def reqRow (k : ReqKind) (r : ReqId) (a : BitVec 42) : Instr :=
  match k with
  | .rdS => .rdS r a
  | .rdX => .rdX r a
  | .upg => .upg r a
  | .rdNc => .rdNc r a
  | .wrInv => .wrInv r a

/-- The snoop that Table 10.3 sends to an L2 other than the requester's in a state: 0 SNP_S, 1 SNP_X, 2 SNP_INV, 3 SNP_CUR. -/
def snoopOf (k : ReqKind) (st : CState) : Option Nat :=
  match k, st with
  | _, .I => none
  | .rdS, .S => none
  | .rdS, _ => some 0
  | .rdX, .S => some 2
  | .rdX, _ => some 1
  | .upg, _ => some 2
  | .rdNc, .M => some 3
  | .rdNc, .O => some 3
  | .rdNc, _ => none
  | .wrInv, .M => some 1
  | .wrInv, .O => some 1
  | .wrInv, _ => some 2

/-- The state of an L2's sector after a snoop (Table 10.2). -/
def afterSnoop (k : Nat) (st : CState) : CState :=
  match k, st with
  | 0, .E => .S
  | 0, .M => .O
  | 0, x => x
  | 3, x => x
  | _, _ => .I

/-- The snoop rows by kind. -/
def snpRow (k : Nat) (c : ClId) (a : BitVec 42) : Instr :=
  match k with
  | 0 => .snpS c a
  | 1 => .snpX c a
  | 2 => .snpInv c a
  | _ => .snpCur c a

/-- The home of a sector serves one transaction, x, active on that sector. -/
def Serves (s : State) (a : BitVec 42) (x : Txn) : Prop := (s.home (homeOf a.toNat)).txns = [x] ∧ x.req.a = a.toNat ∧ x.active = true

/-- No two ways of cluster c hold the block of sector a. -/
def OneWay (s : State) (c a : Nat) : Prop :=
  ∀ w w' b b', w < 16 → w' < 16 → Sp.look (s.memCl c).l2 none (16 * (a / 2 % 2048) + w) = some b →
    Sp.look (s.memCl c).l2 none (16 * (a / 2 % 2048) + w') = some b' → b.blk = a / 2 → b'.blk = a / 2 → w = w'

end Sys2Proof.Cert

/-- Requests at a home (R296, R302, R303, Table 10.3): on a free sector a request is admitted, snoops the L2s that Table 10.3 names and takes the grant it names; on a busy one it gets RETRY, with a ticket if the requester holds none there; a ticketed one is always admitted, into its reserved entry; a host sector is asked of the host; a ticket becomes active in its turn; after RETRY without a ticket the requester waits 20 ns. A request whose allocation would cause a fifth EV_DATA is held (R301) and is not spoken of; that an unticketed request takes its requester's free reserved entry where the 64 shared ones are full is log 82. -/
def Sys2Proof.Cert.HomeRequests : Prop :=
  (∀ (s : State) (k : ReqKind) (r : ReqId) (a : BitVec 42) (q : CReq), s.on = true → s.flt.inj = [] → s.coh.reqs = [q] → q.r = r.val → q.a = a.toNat → q.kind = k →
    q.after ≤ s.tick → s.heldBack q = false →
    let h := homeOf a.toNat
    let x := s.home h
    let own := ((s.memCl r.val).sector a.toNat).st
    let k' := if k = .upg ∧ (own = .I ∨ 15 < r.val) then .rdX else k
    (q.retry = 0 → (∀ y ∈ x.txns, y.req.a ≠ a.toNat) → x.shared < 64 ∨ x.entryFree r.val = true → isHostSec a.toNat = false → (∀ e ∈ x.evs, e.a ≠ a.toNat) →
      NextIs (exec (Cert.reqRow k r a) s) (fun t => t.coh.reqs = [] ∧ ∃ y, (t.home h).txns = x.txns ++ [y] ∧ y.active = true ∧ y.req = { q with kind := k' } ∧
        y.since = s.tick ∧ y.resv = decide (64 ≤ x.shared) ∧
        y.grant = (match k' with
          | .rdS => if (List.range 16).all (fun c => c == r.val || ((s.memCl c).sector a.toNat).st == .I) then 2 else 1
          | .rdX => 3
          | .upg => 3
          | _ => 4) ∧
        ∀ c n, c < 16 → c ≠ r.val → (Cert.snoopOf k' ((s.memCl c).sector a.toNat).st = some n ↔ ∃ z ∈ y.snps, z.c = c ∧ z.kind = n ∧ z.stage = 0))) ∧
    (q.retry = 0 → (∃ y ∈ x.txns, y.req.a = a.toNat) → NextIs (exec (Cert.reqRow k r a) s) (fun t =>
      (t.home h).txns = x.txns ∧ t.mem = s.mem ∧ (t.home h).tickets = (if x.entryFree r.val then x.tickets ++ [r.val] else x.tickets) ∧
      t.coh.reqs = [{ q with retry := if x.entryFree r.val then 2 else 1 }])) ∧
    (q.retry = 3 → NextIs (exec (Cert.reqRow k r a) s) (fun t => t.coh.reqs = [] ∧ ∃ y, (t.home h).txns = x.txns ++ [y] ∧ y.resv = true ∧
      (y.active = true ↔ ∀ u ∈ x.txns, u.req.a ≠ a.toNat))) ∧
    (∀ p : PortId, q.retry = 0 → k = .rdS → isHostSec a.toNat = true → x.txns = [] → s.coh.hostPort = (p.val == 1) → (s.port p.val).up = true →
      NextIs (exec (.rdS r a) s) (fun t => t.out = s.out ++ [.cacheReq p 0 q.hpa q.mask q.data q.poison] ∧ ∃ y, (t.home h).txns = [y] ∧ y.hostWait = true))) ∧
  (∀ (s : State) (r : ReqId) (a : BitVec 42) (q : CReq), s.on = true → s.coh.reqs = [q] → q.r = r.val → q.a = a.toNat →
    (q.retry = 2 → exec (.retry r a) s = .next { s with coh := { s.coh with reqs := [{ q with retry := 3 }] } }) ∧
    (q.retry = 1 → exec (.retry r a) s = .next { s with coh := { s.coh with reqs := [{ q with retry := 4, after := s.tick + 2 }] } })) ∧
  ∀ (s : State) (h : ClId) (r : ReqId) (y : Txn), s.on = true → (s.home h.val).txns = [y] → y.active = false → y.req.r = r.val → homeOf y.req.a = h.val →
    NextIs (exec (.ticketActivate h r) s) (fun t => (∃ z, (t.home h.val).txns = [z] ∧ z.active = true ∧ z.id = y.id) ∧ (t.home h.val).tickets = (s.home h.val).tickets)

/-- Snoops and responses (R269, R270, R299, R301, R302, Table 10.2): the snooped L2 takes the state Table 10.2 gives and supplies what it holds, SNP_X writes modified data to the Landing, and its response reaches the home; where no L2 had the data any more, the Landing gives it. -/
def Sys2Proof.Cert.Snoops : Prop :=
  ∀ (s : State) (c : ClId) (a : BitVec 42) (x : Txn) (z : Snp), s.on = true → s.flt.inj = [] → Cert.Serves s a x → x.snps = [z] → z.c = c.val →
    (∀ k, k < 4 → z.kind = k → z.stage = 0 → (s.home (homeOf a.toNat)).evs = [] → (∀ j, j < 9 → (s.l1 c.val j).sector a.toNat = none) → Cert.OneWay s c.val a.toNat →
      let y := (s.memCl c.val).sector a.toNat
      y.bad = 0 → NextIs (exec (Cert.snpRow k c a) s) (fun t => ((t.memCl c.val).sector a.toNat).st = Cert.afterSnoop k y.st ∧
        (∃ w v, (t.home (homeOf a.toNat)).txns = [w] ∧ w.snps = [v] ∧ v.stage = 1 ∧ v.c = c.val ∧ v.kind = k ∧
          (k ≠ 2 → y.st ≠ .I → w.data = some (y.data, y.poison) ∧ v.dataSent = true)) ∧
        (k = 1 → y.st = .M ∨ y.st = .O → t.lndSector a.toNat = (y.data, y.poison)))) ∧
    (z.stage = 1 → z.evict = false → NextIs (exec (.rsp c a) s) (fun t =>
      ∃ w v, (t.home (homeOf a.toNat)).txns = [w] ∧ w.snps = [v] ∧ v.stage = 2 ∧ v.c = c.val ∧ w.granted = x.granted ∧
        (x.req.kind ≠ .upg → x.req.kind ≠ .wrInv → isHostSec a.toNat = false → w.data.isSome = true)))

/-- Data, grants and ends (R302, R304): with every response in, the requester gets its data and the state granted, and its acknowledgement ends the transaction and its ticket. -/
def Sys2Proof.Cert.Grants : Prop :=
  ∀ (s : State) (r : ReqId) (a : BitVec 42) (x : Txn), s.on = true → Cert.Serves s a x → x.req.r = r.val →
    let h := homeOf a.toNat
    let ready := x.hostWait = false ∧ (∀ z ∈ x.snps, z.stage = 2 ∧ z.evict = false)
    (ready → x.dataGiven = false → x.req.kind ≠ .upg → x.req.kind ≠ .wrInv → x.data.isSome = true →
      NextIs (exec (.data r a) s) (fun t => t = { s with coh := t.coh } ∧ (t.home h).txns = [{ x with dataGiven := true }])) ∧
    (∀ d, ready → x.granted = false → x.data = some d →
      (x.dataGiven = true → 15 < r.val →
        (x.req.kind = .rdNc → NextIs (exec (.grant r a) s) (fun t => t.out = s.out ++ [.memData (if r.val = 16 then 0 else 1) (BitVec.ofNat 48 x.req.addr) d.1 d.2] ∧
          (t.home h).txns = [{ x with granted := true }])) ∧
        (x.req.kind = .wrInv → NextIs (exec (.grant r a) s) (fun t => t.out = s.out ++ [.memDone (if r.val = 16 then 0 else 1) (BitVec.ofNat 48 x.req.addr)] ∧
          (t.home h).txns = [{ x with granted := true }]))) ∧
      (r.val < 16 → s.mayAlloc r.val x.req.engine a.toNat = true → ((s.memCl r.val).way (a.toNat / 2)).isSome = true → isHostSec a.toNat = false →
        (∀ j, j < 9 → (s.l1 r.val j).sector a.toNat = none) → (∀ e, e < 128 → (s.le e).stores = []) →
        (x.dataGiven = true → x.req.kind = .rdS → ((s.memCl r.val).sector a.toNat).st = .I → NextIs (exec (.grant r a) s) (fun t =>
          ((t.memCl r.val).sector a.toNat).st = (if x.grant = 2 then .E else .S) ∧ ((t.memCl r.val).sector a.toNat).data = d.1 ∧
          (t.home h).txns = [{ x with granted := true }])) ∧
        (x.dataGiven = true → x.req.kind = .rdX → NextIs (exec (.grant r a) s) (fun t => ((t.memCl r.val).sector a.toNat).st = .M ∧
          (t.home h).txns = [{ x with granted := true }])))) ∧
    (ready → x.granted = false → r.val < 16 → x.req.kind = .upg → ((s.memCl r.val).sector a.toNat).st ≠ .I → (∀ e, e < 128 → (s.le e).stores = []) →
      NextIs (exec (.grant r a) s) (fun t => ((t.memCl r.val).sector a.toNat).st = .M ∧
        ((t.memCl r.val).sector a.toNat).data = ((s.memCl r.val).sector a.toNat).data ∧ (t.home h).txns = [{ x with granted := true }])) ∧
    (x.granted = true → NextIs (exec (.grantAck r a) s) (fun t => t = { s with coh := t.coh } ∧ (t.home h).txns = [] ∧
      (t.home h).tickets = if x.resv then (s.home h).tickets.filter (fun n => n != r.val) else (s.home h).tickets))

/-- Evictions, host snoops and the host's answers (R301, R303, R313): evicted data goes to the Landing and its buffer is freed; a host snoop in its port's reserved entry: SnpInv is answered RspIHitSE where a copy stood and takes the copies, SnpData and SnpCur change nothing; the host's answer ends the wait. -/
def Sys2Proof.Cert.HostCoherence : Prop :=
  (∀ (s : State) (c : ClId) (a : BitVec 42) (e : Evict), s.on = true → s.flt.inj = [] → (s.home (homeOf a.toNat)).evs = [e] → e.c = c.val → e.a = a.toNat →
    (s.home (homeOf a.toNat)).txns = [] →
    (e.taken = false → NextIs (exec (.evData c a) s) (fun t => t.lndSector a.toNat = (e.data, e.poison) ∧
      (t.home (homeOf a.toNat)).evs = [{ e with taken := true }])) ∧
    (e.taken = true → NextIs (exec (.evAck c a) s) (fun t => t = { s with coh := t.coh } ∧ (t.home (homeOf a.toNat)).evs = []))) ∧
  (∀ (s : State) (p : PortId) (k : HostSnp) (addr : BitVec 52), s.on = true → (s.port p.val).up = true →
    let copies := s.hostCopies (addr.toNat / 64 * 64)
    (∀ x ∈ copies, s.txnOf x.2 = none ∧ (s.home (homeOf x.2)).entryFree (16 + p.val) = true) →
      NextIs (exec (.hostSnoop p k addr) s) (fun t =>
        t.out = s.out ++ [.snoopRsp p addr (if copies = [] then 0 else if k = .inv then 1 else 2)] ∧ (k ≠ .inv → t.mem = s.mem) ∧
        (k = .inv → (∀ x ∈ copies, Cert.OneWay s x.1 x.2) → ∀ x ∈ copies, ((t.memCl x.1).sector x.2).st = .I))) ∧
  ∀ (s : State) (p : PortId) (a : BitVec 42) (x : Txn) (d : Sector) (poison : Bool), s.on = true → (s.port p.val).up = true → Cert.Serves s a x →
    x.hostWait = true → x.port = p.val →
    (x.req.kind ≠ .wrInv → NextIs (exec (.hostReadResponse p a d poison) s) (fun t => t = { s with coh := t.coh } ∧
      (t.home (homeOf a.toNat)).txns = [{ x with hostWait := false, data := some (d, poison), grant := if x.req.kind = .rdS then 1 else 4 }])) ∧
    (x.req.kind = .wrInv → NextIs (exec (.hostWriteCompletion p a) s) (fun t => t = { s with coh := t.coh } ∧
      (t.home (homeOf a.toNat)).txns = [{ x with hostWait := false, grant := 4 }]))

/-- HOME_TIMEOUT (R306, R307, Table 10.4): a host that does not answer a read leaves the reader poison and an F1, one that does not complete a write leaves an F2, an L2 that held no modified data loses its copy with an F1 and the Landing's data is given, and one that held modified data loses it with an F2 and the reader gets poison; the home releases the sector. -/
def Sys2Proof.Cert.HomeTimeouts : Prop :=
  ∀ (s : State) (a : BitVec 42) (x : Txn), s.on = true → s.flt.inj = [] → Cert.Serves s a x → x.granted = false →
    x.since + Cert.usOf s.coh.homeTo.toNat ≤ s.tick →
    let h := homeOf a.toNat
    (x.snps = [] → x.hostWait = true →
      (x.req.kind = .rdS ∨ x.req.kind = .rdNc → NextIs (exec (.homeTimeout a) s) (fun t => (t.home h).txns = [] ∧
        Cert.Logged s t (0x1300 + h) 0x17 (64 * a.toNat) ∧ t.mem = s.mem ∧
        ∀ e f addr n, x.req.engine = some e → (s.le e).flight = [f] → f.wait = some (addr, n) → addr / 64 = a.toNat →
          ∃ g, (t.le e).flight = [g] ∧ g.wait = none ∧ g.bits.getLsbD 9 = true ∧ g.mask.getLsbD 9 = true)) ∧
      (x.req.kind = .wrInv → NextIs (exec (.homeTimeout a) s) (fun t => (t.home h).txns = [] ∧ Cert.Logged s t (0x1300 + h) 0x25 (64 * a.toNat) ∧ t.mem = s.mem))) ∧
    (∀ z, x.snps = [z] → z.stage = 0 → z.evict = false → ((s.memCl z.c).sector a.toNat).st = .M → x.req.kind = .rdNc → x.req.r = 16 →
      NextIs (exec (.homeTimeout a) s) (fun t => (t.home h).txns = [] ∧ Cert.Logged s t (0x1300 + h) 0x25 (64 * a.toNat) ∧ (t.lndSector a.toNat).2 = true ∧
        ∃ d, t.out = s.out ++ [.memData 0 (BitVec.ofNat 48 x.req.addr) d true])) ∧
    (∀ z, x.snps = [z] → z.stage = 0 → z.evict = false → ((s.memCl z.c).sector a.toNat).st.dirty = false → Sp.look s.ecc 0 (64 * a.toNat) = 0 →
      x.req.kind = .rdNc → x.req.r = 16 → NextIs (exec (.homeTimeout a) s) (fun t => (t.home h).txns = [] ∧ Cert.Logged s t (0x1300 + h) 0x17 (64 * a.toNat) ∧
        t.out = s.out ++ [.memData 0 (BitVec.ofNat 48 x.req.addr) (s.lndSector a.toNat).1 (s.lndSector a.toNat).2]))

/-! ## Cache maintenance, banks, services and trust (09, 11, 12, 13) -/

namespace Sys2Proof.Cert

/-- The range operations by OP (Table 9.3). -/
def maintRow (op : Nat) (w : Who) (c : ClId) (x : Bool) : Instr := match op with | 0 => .clean w c x | 1 => .invalidate w c x | _ => .discard w c x

/-- Only cluster c's memory is other than before: it is y. -/
def MemNow (s t : State) (c : Nat) (y : MemCl) : Prop := t = { s with mem := t.mem } ∧ t.memCl c = y ∧ ∀ k, k ≠ c → t.memCl k = s.memCl k

/-- No slot of cluster c holds sector a in its L1 or victim cache. -/
def NoL1 (s : State) (c a : Nat) : Prop := ∀ j, j < 9 → (s.l1 c j).sector a = none

/-- A unit of cluster c reads the n bytes from address a without poison and in time (R281, R303, R307). -/
def Clean (s : State) (h : HostIn) (r : SvcReq) (c a n : Nat) : Prop :=
  (∀ b ∈ s.unitFlags h r.func r.secure c a n, b = false) ∧ (s.unitRead h r.func r.secure c a n).2.2 = none

/-- The store index of the slot a request names (R323). -/
def storeIndex (r : SvcReq) : Nat := if r.secure then 4112 + r.slot else if r.func = 0 ∨ r.func = 0x101 then 4096 + r.slot else 16 * (r.func - 1) + r.slot

/-- The logical bytes a hash extends a register with: M := SHA-384(M ‖ SHA-384(data)) (R391). -/
def extended (m : BitVec 384) (data : List Byte) : BitVec 384 :=
  BitVec.ofNat 384 (leNat (bytesOf (sha384 (natsOf (leBytes m.toNat 48) ++ sha384 (natsOf data)))))

/-- The PF of a port. -/
def pfNo (p : PortId) : Nat := if p.val = 0 then 0 else 0x101

end Sys2Proof.Cert

/-- Range operations (R275, R276, Table 9.4): one at a time in a cluster, another is ignored and logged; SEQ advances and the status says why it does not run; one that runs has its cluster's MEMORY grant (R427). -/
def Sys2Proof.Cert.RangeStarts : Prop :=
  ∀ (s : State) (w : Who) (c : ClId) (x : Bool) (op : Nat), op < 3 → s.whoOk w = true →
    let m := s.memCl c.val
    let lo := 64 * m.maintBase.toNat
    let hi := lo + 64 * (m.maintLen.toNat + 1)
    let st : Nat := if ¬ (hi ≤ 0xFC0000000 ∨ (0x8000000000 ≤ lo ∧ hi ≤ 0x10000000000)) ∨ (op = 2 ∧ x = false) then 3
      else if op = 2 ∧ hi ≤ 0xFC0000000 ∧ w ≠ .secure ∧ lo < s.lnd.watermark.toNat * 0x200000 then 14 else 4
    (m.maint.isSome = true → NextIs (exec (Cert.maintRow op w c x) s) (fun t => t.mem = s.mem ∧ Cert.Logged s t (0x1200 + c.val) 0x02 (0x900000 + 0x4000 * c.val + 0x4C))) ∧
    (m.maint = none → NextIs (exec (Cert.maintRow op w c x) s) (fun t => Cert.MemNow { s with pwr := t.pwr } t c.val
      { m with maintSeq := m.maintSeq + 1, maintStatus := BitVec.ofNat 8 st, maintVal := 0,
               maint := if st = 4 then some ⟨op, m.maintBase.toNat, m.maintLen.toNat + 1, w == .secure⟩ else none } ∧
      (t.pwr = s.pwr ∨ st = 4) ∧ (st = 4 → (∀ g ∈ s.pwr.grants, g.cls ≠ 5) → (∀ g ∈ s.pwr.waiting, g.cls ≠ 5) → t.hasGrant 5 (0x300 + c.val) = true)))

/-- The end of a range operation (R275, R276, Table 9.3): on an empty L2 it ends with OK and 0; on a modified sector of the Landing CLEAN and INVALIDATE write it to the Landing and count it, DISCARD does not; CLEAN keeps it, clean. -/
def Sys2Proof.Cert.RangeEnds : Prop :=
  ∀ (s : State) (c : ClId) (r : Maint),
    let m := s.memCl c.val
    m.maint = some r →
    (m.l2 = [] → NextIs (exec (.maintComplete c) s) (fun t => t = { s with mem := t.mem, pwr := t.pwr } ∧ (t.memCl c.val).maint = none ∧
      (t.memCl c.val).maintStatus = 0 ∧ (t.memCl c.val).maintVal = 0 ∧ (t.memCl c.val).maintSeq = m.maintSeq)) ∧
    (∀ a, r.base = a → r.count = 1 → s.l2Sectors c.val = [a, a + 1] → Cert.NoL1 s c.val a → isHostSec a = false →
      let y := m.sector a
      y.st = .M → y.bad = 0 → NextIs (exec (.maintComplete c) s) (fun t => (t.memCl c.val).maint = none ∧ (t.memCl c.val).maintStatus = 0 ∧
        (t.memCl c.val).maintSeq = m.maintSeq ∧ (t.memCl c.val).maintVal = (if r.op < 2 then 1 else 0) ∧
        ((t.memCl c.val).sector a).st = (if r.op = 0 then .E else .I) ∧
        t.lndSector a = (if r.op < 2 then (y.data, y.poison) else s.lndSector a)))

/-- Cache enables (R279, R377): a disable starts the flush, the L2's starts that of every L1; an L1 is enabled only under an enabled L2; a slot whose engine is secure-owned refuses the normal world. -/
def Sys2Proof.Cert.CacheEnables : Prop :=
  ∀ (s : State) (w : Who) (c : ClId) (k : QId), s.whoOk w = true →
    let m := s.memCl c.val
    let x := s.l1 c.val k.val
    (w = .secure ∨ s.slotSecure c.val k.val = false →
      NextIs (exec (.l1Disable w c k) s) (fun t => t = { s with mem := t.mem, pwr := t.pwr } ∧ t.l1 c.val k.val = { x with enable := false, state := if x.state = 1 then 2 else x.state } ∧
        ∀ j, j ≠ k.val → t.l1 c.val j = s.l1 c.val j) ∧
      NextIs (exec (.l1Enable w c k) s) (fun t => t = { s with mem := t.mem, pwr := t.pwr } ∧
        t.l1 c.val k.val = { x with enable := true, state := if x.state = 0 ∧ m.l2State = 1 then 1 else x.state } ∧ ∀ j, j ≠ k.val → t.l1 c.val j = s.l1 c.val j)) ∧
    (w ≠ .secure → s.slotSecure c.val k.val = true →
      NextIs (exec (.l1Disable w c k) s) (fun t => t.mem = s.mem ∧ Cert.Logged s t 0x1605 0x02 (0x1000 + 9 * c.val + k.val)) ∧
      NextIs (exec (.l1Enable w c k) s) (fun t => t.mem = s.mem ∧ Cert.Logged s t 0x1605 0x02 (0x1000 + 9 * c.val + k.val))) ∧
    NextIs (exec (.l2Disable w c) s) (fun t => t = { s with mem := t.mem, pwr := t.pwr } ∧ (t.memCl c.val).l2Enable = false ∧
      (t.memCl c.val).l2State = (if m.l2State = 1 then 2 else m.l2State) ∧ (t.memCl c.val).l2 = m.l2 ∧
      ∀ j, j < 9 → (t.l1 c.val j).state = (if m.l2State = 1 ∧ (s.l1 c.val j).state = 1 then 2 else (s.l1 c.val j).state)) ∧
    NextIs (exec (.l2Enable w c) s) (fun t => t = { s with mem := t.mem } ∧ (t.memCl c.val).l2Enable = true ∧
      (t.memCl c.val).l2State = (if m.l2State = 0 then 1 else m.l2State) ∧
      ∀ j, j < 9 → (t.l1 c.val j).state = (if m.l2State = 0 ∧ (s.l1 c.val j).enable = true ∧ (s.l1 c.val j).state = 0 then 1 else (s.l1 c.val j).state))

/-- The end of a flush (R279): dirty sectors are written back, the cache is empty and reads disabled, or enabled again where its ENABLE says so meanwhile; the L2's waits for every L1. -/
def Sys2Proof.Cert.FlushEnds : Prop :=
  ∀ (s : State) (c : ClId),
    let m := s.memCl c.val
    (∀ (k : QId) (b : L1Blk),
      let x := s.l1 c.val k.val
      x.state = 2 → x.blks.filterMap (fun e => e.2) = [b] → x.vc = [] → b.s0.st = 2 → b.s0.par = false → b.s1.st = 0 → b.s2.st = 0 → b.s3.st = 0 →
        (m.sector (4 * b.blk)).st ≠ .I →
        NextIs (exec (.flushComplete c (some k)) s) (fun t => (t.l1 c.val k.val).blks = [] ∧ (t.l1 c.val k.val).vc = [] ∧
          (t.l1 c.val k.val).state = (if x.enable = true ∧ m.l2State = 1 ∧ m.l2Enable = true then 1 else 0) ∧
          ((t.memCl c.val).sector (4 * b.blk)).st = .M ∧ ((t.memCl c.val).sector (4 * b.blk)).data = b.s0.data)) ∧
    (∀ a, m.l2State = 2 → (∀ j, j < 9 → (s.l1 c.val j).state = 0) → s.l2Sectors c.val = [a, a + 1] → Cert.NoL1 s c.val a → Cert.NoL1 s c.val (a + 1) →
      let y := m.sector a
      y.st = .M → y.bad = 0 → (m.sector (a + 1)).st = .I →
      NextIs (exec (.flushComplete c none) s) (fun t => (t.memCl c.val).l2 = [] ∧ (t.memCl c.val).l2State = (if m.l2Enable then 1 else 0) ∧
        t.lndSector a = (y.data, y.poison) ∧
        ∀ j, j < 9 → (t.l1 c.val j).state = (if m.l2Enable = true ∧ (s.l1 c.val j).enable = true then 1 else 0))) ∧
    ∀ j, j < 9 → m.l2State = 2 → (s.l1 c.val j).state ≠ 0 → exec (.flushComplete c none) s = .next s

/-- The counter clears (Tables 9.5, 9.6, 10.7, 11.7, 12.10): a write of 1 clears the window's counters and changes nothing else. -/
def Sys2Proof.Cert.CounterClears : Prop :=
  ∀ (s : State) (w : Who) (c : ClId) (v : W32), s.whoOk w = true →
    (v.getLsbD 0 = true →
      NextIs (exec (.memCntClear w c v) s) (fun t => t = { s with mem := t.mem } ∧ (t.memCl c.val).cnt = [] ∧ (∀ j, j < 9 → (t.l1 c.val j).cnt = []) ∧
        (t.memCl c.val).l2 = (s.memCl c.val).l2 ∧ ∀ k, k ≠ c.val → t.memCl k = s.memCl k) ∧
      exec (.lndCntClear w v) s = .next { s with lnd := { s.lnd with corr := 0, uncorr := 0, scrubFix := 0 } } ∧
      NextIs (exec (.cohCntClear w c v) s) (fun t => t = { s with coh := t.coh } ∧ t.home c.val = { s.home c.val with cnt := [] } ∧
        ∀ k, k ≠ c.val → t.home k = s.home k) ∧
      NextIs (exec (.cphCntClear w v) s) (fun t => t = { s with cph := t.cph } ∧ t.cph.slots = s.cph.slots ∧ ∀ g, g < 64 → t.grp g = { s.grp g with cnt := [] }) ∧
      NextIs (exec (.galCntClear w v) s) (fun t => t = { s with gal := t.gal } ∧ ∀ g, g < 64 → t.coder g = { s.coder g with cnt := [] })) ∧
    (v.getLsbD 0 = false → exec (.memCntClear w c v) s = .next s ∧ exec (.lndCntClear w v) s = .next s ∧ exec (.cohCntClear w c v) s = .next s ∧
      exec (.cphCntClear w v) s = .next s ∧ exec (.galCntClear w v) s = .next s)

/-- Scratch banks (R285): an access wakes a bank from RETAIN and proceeds; when a state change completes the bank shows its state, full of zeros if it leaves or enters OFF and as it was otherwise, and the command completes with OK, after every access that waits for the bank. -/
def Sys2Proof.Cert.ScratchBanks : Prop :=
  ∀ (s : State) (c b : ClId),
    (∀ (e : Nat) (x : Eng) (f : InFlight) (a n : Nat), e < 128 → s.bankState c.val b.val = 1 → s.eng.les = [(e, x)] → x.flight = [f] → x.stores = [] →
      f.wait = some (a, n) → inBank c.val b.val (canon (e / 8) a) = true → s.ecc = [] → s.poison = [] →
      NextIs (exec (.bankWake c b) s) (fun t => t.bankState c.val b.val = 0 ∧ (∀ k, k ≠ b.val → t.bankState c.val k = s.bankState c.val k) ∧ t.bytes = s.bytes ∧
        (t.le e).flight = [{ f with val := BitVec.ofNat 64 (leNat (Memory.getN s.bytes (canon (e / 8) a) n)), wait := none }])) ∧
    (∀ (v : BitVec 2) (h : Nat) (d : Cmd), (s.memCl c.val).bankWait = [(b.val, v, h)] → s.cmd h = some d → s.bankWanted c.val b.val = false →
      NextIs (exec (.bankStateComplete c b) s) (fun t => Cert.Over s t d d.clamped 0 0 0 0 ∧ t.bankState c.val b.val = v.toNat ∧ (t.memCl c.val).bankWait = [] ∧
        ∀ a, Memory.get t.bytes a = (if inBank c.val b.val a = true ∧ ((s.bankState c.val b.val = 2) ≠ (v = 2)) then 0 else Memory.get s.bytes a))) ∧
    (s.bankWanted c.val b.val = true → exec (.bankStateComplete c b) s = .next s)

/-- Patrol scrub (R289): the next sector in order is read; a wrong symbol is corrected, counted and logged as F1, two poison the sector and are logged as F2 with its address. -/
def Sys2Proof.Cert.PatrolScrub : Prop :=
  ∀ (s : State) (r : ScrubRead), s.live = true → s.lnd.scrubEn = true → s.lnd.init = 2 → s.flt.inj = [] →
    let a := s.lnd.scrubPos
    let n := Sp.look s.ecc 0 a
    let stack := (a / 0x100 % 4) ^^^ (a / 0x10000 % 4) ^^^ (a / 0x1000000 % 4)
    NextIs (exec (.patrolScrub r) s) (fun t => t.lnd.scrubPos = (a + 64) % 0x1000000000 ∧ t.bytes = s.bytes ∧ Sp.look t.ecc 0 a = 0 ∧ t.lnd.corr = s.lnd.corr ∧
      (n = 0 → r = .clean → t.flt = s.flt ∧ t.poison = s.poison ∧ t.lnd.scrubFix = s.lnd.scrubFix ∧ t.lnd.uncorr = s.lnd.uncorr) ∧
      (n = 1 ∨ (n = 0 ∧ r = .corrected) → Cert.Logged s t (0x1500 + stack) 0x14 a ∧ t.poison = s.poison ∧
        t.lnd.scrubFix.toNat = min 0xFFFFFFFF (s.lnd.scrubFix.toNat + 1) ∧ t.lnd.uncorr = s.lnd.uncorr) ∧
      (2 ≤ n ∨ (n = 0 ∧ r = .uncorrectable) → Cert.Logged s t (0x1500 + stack) 0x22 a ∧ Sp.look t.poison false a = true ∧
        t.lnd.uncorr.toNat = min 0xFFFFFFFF (s.lnd.uncorr.toNat + 1) ∧ t.lnd.errAddr = BitVec.ofNat 64 (a / 64 % 2 ^ 30 * 64) ∧ t.lnd.scrubFix = s.lnd.scrubFix))

/-- Key capture (R326, R336, R337, R344, Table 11.6): under its grant the head of the queue captures the slot as it stands; an empty slot ends a command with NOT_PERMITTED, a GEN other than the one asked for ends an engine's request with a KEY_ERASED event. -/
def Sys2Proof.Cert.KeyCaptures : Prop :=
  ∀ (s : State) (g : UnitId) (r : SvcReq) (rest : List SvcReq),
    let x := s.grp g.val
    let k := s.slot (Cert.storeIndex r)
    s.live = true → x.retired = false → x.run = none → s.hasGrant 4 (0x100 + g.val) = true → x.queue = r :: rest → k.bad = 0 → (∀ e, e < 128 → (s.le e).cphQ = []) →
    (k.type ≠ 0 → r.expGen = 0 ∨ r.expGen = k.gen →
      NextIs (exec (.keyCapture g) s) (fun t => t = { s with cph := t.cph } ∧ t.cph.slots = s.cph.slots ∧
        t.grp g.val = { x with queue := rest, run := some ⟨r, k, true, [], none, []⟩ } ∧ ∀ j, j ≠ g.val → t.grp j = s.grp j)) ∧
    (∀ c, k.type = 0 → r.expGen = 0 → r.engine = none → s.cmd r.handle = some c →
      NextIs (exec (.keyCapture g) s) (fun t => Cert.Over s t c c.clamped 3 0 28 0 ∧ t.grp g.val = { x with queue := rest } ∧ t.cph.slots = s.cph.slots ∧
        t.hasGrant 4 (0x100 + g.val) = false)) ∧
    (∀ e, r.expGen ≠ 0 → r.expGen ≠ k.gen → r.engine = some e → (s.le e).running = true → (s.le e).tid = r.tid → r.tid ≠ 0 → (s.le e).evBy.length < 16 → (s.le e).evWait = [] →
      NextIs (exec (.keyCapture g) s) (fun t => t.grp g.val = { x with queue := rest } ∧
        (t.le e).evq = (s.le e).evq ++ [Cert.event r.tid 7 (BitVec.ofNat 25 (0x0A + 2 ^ 8 * r.tag.toNat))]))

/-- The end of a cipher operation (R333, R338-R342): SEAL writes ciphertext and tag and the IV it drew, UNSEAL releases the plaintext only when the tag agrees, the raw modes write their blocks; a command completes with OK, and the group is free. The operation's reads come first: what they fetch is u (R269, R303). -/
def Sys2Proof.Cert.CipherEnds : Prop :=
  ∀ (s : State) (g : UnitId) (host : HostIn) (o : RunOp) (c : Cmd),
    let r := o.req
    let key := o.key.bytes
    let k := g.val / 4
    let u := (s.unitFetch host r.func r.secure k none r.aad r.aadLen).unitFetch host r.func r.secure k none r.src r.srcLen
    let rd := fun (a n : Nat) => natsOf (u.unitRead host r.func r.secure k a n).1
    let wrote := fun (t : State) (bs : List Byte) => t.bytes = (u.unitStore r.func r.secure k r.dst bs).bytes ∧
      t.out = (u.unitStore r.func r.secure k r.dst bs).out ∧ (t.grp g.val).run = none
    s.live = true → (s.grp g.val).retired = false → (s.grp g.val).run = some o → o.fail = none → s.flt.inj = [] → Cert.Clean u host r k r.aad r.aadLen → Cert.Clean u host r k r.src r.srcLen →
    (r.op = 0 →
      let iv := leBytes r.iv.toNat 12
      let ct := gcmCrypt key (natsOf iv) (rd r.src r.len)
      let sealed := bytesOf (ct ++ gcmTag key (natsOf iv) (rd r.aad r.aadLen) ct)
      (r.engine = none → s.cmd r.handle = some c →
        NextIs (exec (.cipherOperationEnd g host) s) (fun t => Cert.Over s t c c.clamped 0 0 (r.len + 16 + (if r.ivKind = 1 then 12 else 0)) 0 ∧
          wrote t (sealed ++ (if r.ivKind = 1 then iv else [])))) ∧
      (r.engine.isSome = true → NextIs (exec (.cipherOperationEnd g host) s) (fun t => t.qm.cmds = s.qm.cmds ∧ wrote t (iv ++ sealed)))) ∧
    (r.op = 1 →
      let iv := if r.engine.isNone then natsOf (leBytes r.iv.toNat 12) else rd r.src 12
      let src := (u.unitRead host r.func r.secure k (if r.engine.isNone then r.src else r.src + 12) (r.len + 16)).1
      let ct := natsOf (src.take r.len)
      let good := bytesOf (gcmTag key iv (rd r.aad r.aadLen) ct) = src.drop r.len
      (good → NextIs (exec (.cipherOperationEnd g host) s) (fun t => wrote t (bytesOf (gcmCrypt key iv ct)) ∧
        (r.engine = none → s.cmd r.handle = some c → Cert.Over s t c c.clamped 0 0 r.len 0))) ∧
      (¬ good → r.stream = false → NextIs (exec (.cipherOperationEnd g host) s) (fun t => t.bytes = u.bytes ∧ t.out = u.out ∧ t.qm = u.qm ∧
        (t.grp g.val).run = some { o with written := [], fail := some (7, 0, 0) }))) ∧
    (r.op = 2 ∨ r.op = 3 → NextIs (exec (.cipherOperationEnd g host) s) (fun t => wrote t (bytesOf (rawBlocks key (r.op = 3) (rd r.src r.len))) ∧
      (r.engine = none → s.cmd r.handle = some c → Cert.Over s t c c.clamped 0 0 r.len 0)))

/-- Scrubs (R329, R340, R363): what the operation wrote is overwritten with zeros, and only then the status is posted and the unit is free; a KEY_ERASE that waits for the scrub completes. -/
def Sys2Proof.Cert.Scrubs : Prop :=
  ∀ (s : State) (g : UnitId) (o : RunOp) (st : Byte) (r0 r1 : W32) (a n : Nat), s.on = true → o.fail = some (st, r0, r1) → o.written = [(a, n)] →
    let r := o.req
    let zero := s.unitStore r.func r.secure (g.val / 4) a (List.replicate n 0)
    ((s.grp g.val).run = some o →
      (∀ c, r.engine = none → s.cmd r.handle = some c → (∀ d ∈ s.qm.cmds, d.opcode ≠ 0x35) →
        NextIs (exec (.cipherScrubComplete g) s) (fun t => Cert.Over s t c c.clamped st.toNat 0 r0.toNat r1.toNat ∧ t.bytes = zero.bytes ∧ t.out = zero.out ∧
          (t.grp g.val).run = none)) ∧
      (∀ e d, r.engine = some e → s.qm.cmds = [d] → d.opcode = 0x35 → d.stage = .running → keyIndex d.func false (pkN d.pkt 28 1) = Cert.storeIndex r →
        (∀ j, j ≠ g.val → (s.grp j).run = none) →
        NextIs (exec (.cipherScrubComplete g) s) (fun t => Cert.Over s t d d.clamped 0 0 (s.slot (Cert.storeIndex r)).gen.toNat 0 ∧ t.bytes = zero.bytes ∧
          (t.grp g.val).run = none))) ∧
    ((s.coder g.val).run = some o → r.res = 0 → ∀ c, r.engine = none → s.cmd r.handle = some c →
      NextIs (exec (.galleyScrubComplete g) s) (fun t => Cert.Over s t c c.clamped st.toNat 0 r0.toNat r1.toNat ∧ t.bytes = zero.bytes ∧ t.out = zero.out ∧
        (t.coder g.val).run = none))

/-- Coders (R357-R360, R366): under its grant a coder takes the head of its queue; a confirmation that agrees is recorded, one that does not counts a disagreement, logged as F1, and retires the coder at FAULT_LIMIT. -/
def Sys2Proof.Cert.Coders : Prop :=
  ∀ (s : State) (c : UnitId), s.live = true →
    let x := s.coder c.val
    (∀ r rest, x.retired = false → x.run = none → s.hasGrant 4 (0x200 + c.val) = true → x.queue = r :: rest → (∀ e, e < 128 → (s.le e).galQ = []) →
      NextIs (exec (.coderOperationStart c) s) (fun t => t = { s with gal := t.gal } ∧
        t.coder c.val = { x with queue := rest, run := some ⟨r, KeySlot.init, true, [], none, []⟩ } ∧ ∀ j, j ≠ c.val → t.coder j = s.coder j)) ∧
    (∀ o n k, x.run = some o → n < (o.req.len + 4095) / 4096 → o.fail = none → o.confirmed = [] → k < 64 → k ≠ c.val → s.coderServes o.req.secure k = true →
      NextIs (exec (.galleyConfirmation c n true) s) (fun t => t = { s with gal := t.gal } ∧ t.coder c.val = { x with run := some { o with confirmed := [(n, true)] } }) ∧
      (x.retired = false → Sp.look x.faults 0 0 + 1 < s.gal.limit.toNat →
        NextIs (exec (.galleyConfirmation c n false) s) (fun t => Cert.Logged s t (0x200 + c.val) 0x16 c.val ∧ Sp.look (t.coder c.val).faults 0 0 = Sp.look x.faults 0 0 + 1 ∧
          (t.coder c.val).retired = false ∧ (t.coder c.val).run = some { o with confirmed := [(n, false)] })) ∧
      (x.retired = false → s.gal.limit.toNat ≤ Sp.look x.faults 0 0 + 1 →
        NextIs (exec (.galleyConfirmation c n false) s) (fun t => (t.coder c.val).retired = true ∧ (t.coder c.val).queue = [] ∧ (t.coder c.val).run = none)))

/-- The end of a coder's operation on one block (R352, R356-R358, R366, Table 12.6): a block that fits is written as a galley and one that decodes is expanded, with OK; a refusal or failure waits for its confirmation while a second coder is in service, and then ends with NO_FIT or goes to its scrub with CHECK_FAIL. The operation's reads come first: what they fetch is u. -/
def Sys2Proof.Cert.CoderEnds : Prop :=
  ∀ (s : State) (c : UnitId) (host : HostIn) (o : RunOp) (d : Cmd),
    let r := o.req
    let x := s.coder c.val
    let u := s.unitFetch host r.func r.secure (c.val / 4) none r.src (if r.op = 0 then r.len else galSize r.ratio)
    let rd := fun (n : Nat) => (u.unitRead host r.func r.secure (c.val / 4) r.src n).1
    let wrote := fun (t : State) (bs : List Byte) => t.bytes = (u.unitStore r.func r.secure (c.val / 4) r.dst bs).bytes ∧
      t.out = (u.unitStore r.func r.secure (c.val / 4) r.dst bs).out ∧ (t.coder c.val).run = none
    let second := ∃ k, k < 64 ∧ k ≠ c.val ∧ s.coderServes r.secure k = true
    s.live = true → x.retired = false → x.run = some o → o.fail = none → o.confirmed = [] → s.flt.inj = [] → r.engine = none → s.cmd r.handle = some d → r.res = 0 →
    1 ≤ r.len → r.len ≤ 4096 →
    (r.op = 0 → Cert.Clean u host r (c.val / 4) r.src r.len →
      (∀ b, galEncode r.ratio (rd r.len) = some b → NextIs (exec (.coderOperationEnd c host) s) (fun t => Cert.Over s t d d.clamped 0 0 1 0 ∧ wrote t b)) ∧
      (galEncode r.ratio (rd r.len) = none →
        (second → exec (.coderOperationEnd c host) s = .next u) ∧
        (¬ second → NextIs (exec (.coderOperationEnd c host) s) (fun t => Cert.Over s t d d.clamped 9 0 0 0 ∧ t.bytes = u.bytes ∧ t.out = u.out ∧ (t.coder c.val).run = none)))) ∧
    (r.op = 1 → Cert.Clean u host r (c.val / 4) r.src (galSize r.ratio) →
      (∀ b, galDecode r.ratio (some r.len) (rd (galSize r.ratio)) = some b →
        NextIs (exec (.coderOperationEnd c host) s) (fun t => Cert.Over s t d d.clamped 0 0 r.len 0 ∧ wrote t b)) ∧
      (galDecode r.ratio (some r.len) (rd (galSize r.ratio)) = none →
        (second → exec (.coderOperationEnd c host) s = .next u) ∧
        (¬ second → NextIs (exec (.coderOperationEnd c host) s) (fun t => t.qm = u.qm ∧ t.bytes = u.bytes ∧ t.out = u.out ∧
          (t.coder c.val).run = some { o with written := [], fail := some (8, 0, 0) }))))

/-- Hand-over (R378, R379): the secure world grants or refuses a request, asks for a block with an F0 and FAULT_NOTICE of both PFs, and a hand-over unanswered or whose block has not finished within HO_WAIT is denied. -/
def Sys2Proof.Cert.HandOvers : Prop :=
  ∀ (s : State) (d : W16) (h : HandOver),
    let notice := fun (t : State) => (t.fn 0).event.getLsbD 3 = true ∧ (t.fn 0x101).event.getLsbD 3 = true
    (s.whoOk .secure = true →
      (s.tru.pending = [h] → h.d = d → h.agreed = false →
        exec (.hoGive d) s = .next { s with tru := { s.tru with pending := [{ h with agreed := true, since := s.tick }] } } ∧
        ∀ c, s.cmd h.handle = some c → NextIs (exec (.hoRefuse d) s) (fun t => Cert.Over s t c c.clamped 0x0E 0 0 0 ∧ t.tru = { s.tru with pending := [] })) ∧
      (isDynamic d.toNat = true → s.secBlock d.toNat = false → d.toNat < 0x300 ∨ d.toNat - 0x300 = s.tru.wm.scr.toNat →
        NextIs (exec (.hoWant d) s) (fun t => Cert.Logged s t 0x1605 0x02 d.toNat ∧ notice t ∧ t.tru = s.tru))) ∧
    (s.on = true → s.tru.pending = [h] → h.d = d → h.agreed = true → s.blockDone d.toNat = true → exec (.hoWaitExpiry d) s = .next s) ∧
    (∀ c, s.on = true → s.tru.pending = [h] → h.d = d → h.since + Cert.msOf s.tru.hoWait.toNat ≤ s.tick → h.agreed = false ∨ s.blockDone d.toNat = false →
      s.cmd h.handle = some c → NextIs (exec (.hoWaitExpiry d) s) (fun t => Cert.Over s t c c.clamped 0x0E 0 0 0 ∧ t.tru = { s.tru with pending := [] }))

/-- The reset of a hand-over (R379, R380, Table 13.3): once the block's work is finished it is reset and changes owner, the command completes with OK and both PFs get FAULT_NOTICE; scratch moves the watermark by one cluster and is full of zeros. -/
def Sys2Proof.Cert.HandOverResets : Prop :=
  ∀ (s : State) (d : W16) (h : HandOver) (c : Cmd), s.live = true → s.flt.inj = [] → s.tru.pending = [h] → h.d = d → h.agreed = true → s.cmd h.handle = some c →
    let n := d.toNat
    let ends := fun (t : State) => Cert.Over s t c c.clamped 0 0 0 0 ∧ t.tru.pending = [] ∧ (t.fn 0).event.getLsbD 3 = true ∧ (t.fn 0x101).event.getLsbD 3 = true
    (n < 0x80 → (s.le n).running = false → (s.pe (s.peOf n)).testing = none → (s.pe (s.peOf n)).migrating = false →
      NextIs (exec (.handoverReset d) s) (fun t => ends t ∧ Sp.look t.tru.sec false n = h.release ∧ t.le n = { Eng.init with stepSeq := (s.le n).stepSeq })) ∧
    (0x100 ≤ n → n < 0x200 → (s.grp (n - 0x100)).run = none → (s.grp (n - 0x100)).queue = [] →
      NextIs (exec (.handoverReset d) s) (fun t => ends t ∧ Sp.look t.tru.sec false n = h.release)) ∧
    (0x200 ≤ n → n < 0x300 → (s.coder (n - 0x200)).run = none → (s.coder (n - 0x200)).queue = [] →
      NextIs (exec (.handoverReset d) s) (fun t => ends t ∧ Sp.look t.tru.sec false n = h.release)) ∧
    (0x300 ≤ n → n < 0x310 →
      NextIs (exec (.handoverReset d) s) (fun t => ends t ∧ t.tru.wm.scr = (if h.release then s.tru.wm.scr + 1 else s.tru.wm.scr - 1) ∧
        ∀ a, Memory.get t.bytes a = (if 0x1100000000 ≤ a ∧ a < 0x1101000000 ∧ (a - 0x1100000000) / 0x100000 = n - 0x300 then 0 else Memory.get s.bytes a)))

/-- The secure watchdog and the lone restart (R385, R386): its expiry or a write of TRU_SEC_RESTART takes the secure world down: no gates, no hand-over, no secure keys, the secure Landing full of zeros; with a good image it starts again, RESTARTS and the measurements advanced and an F2 logged, without one it has FAILED and an F3 is logged. -/
def Sys2Proof.Cert.LoneRestarts : Prop :=
  ∀ (s : State),
    let down := fun (t : State) => t.tru.secState = 2 ∧ t.tru.gates = 0 ∧ t.tru.wdogEn = false ∧ t.tru.pending = [] ∧ t.tru.restarts = s.tru.restarts ∧
      (∀ n, n < 16 → (t.slot (4112 + n)).type = 0 ∧ (t.slot (4112 + n)).key = 0) ∧ (∀ a, a < s.lnd.watermark.toNat * 0x200000 → Memory.get t.bytes a = 0)
    (s.whoOk .secure = true → exec .wdogKick s = .next { s with tru := { s.tru with wdogKick := s.tick } }) ∧
    (s.live = true → s.tru.wdogEn = true → s.tru.secState = 1 →
      (s.tru.wdogKick + Cert.msOf s.tru.wdogPeriod.toNat ≤ s.tick → NextIs (exec .secureWatchdogExpiry s) down) ∧
      (s.tick < s.tru.wdogKick + Cert.msOf s.tru.wdogPeriod.toNat → exec .secureWatchdogExpiry s = .next s)) ∧
    (∀ v : W32, s.whoOk .secure = true → v.getLsbD 0 = true → NextIs (exec (.secRestart v) s) down) ∧
    (s.live = true → s.tru.secState = 2 →
      NextIs (exec (.loneRestartComplete false) s) (fun t => t.tru = { s.tru with secState := 3 } ∧ Cert.Logged s t 0x1605 0x35 0) ∧
      ∀ m e, s.deck.secImage = some m → m.base.toNat + m.words.length ≤ s.tru.wm.pgm.toNat * 1024 → e < 128 → s.secBlock e = true → s.inService e = true →
        NextIs (exec (.loneRestartComplete true) s) (fun t => t.tru.secState = 1 ∧ t.tru.restarts.toNat = min 0xFFFF (s.tru.restarts.toNat + 1) ∧
          Cert.Logged s t 0x1605 0x26 t.tru.restarts.toNat ∧ t.eng.secImg = some m ∧ (∀ k, 16 ≤ k → k < 32 → Sp.look t.tru.meas 0 k = 0) ∧
          Sp.look t.tru.meas 0 3 = Cert.extended 0 m.raw))

/-- Lifecycle and keys (R389, Tables 13.4, 13.5): a transition that the table allows is kept for the next module reset, any other is refused with an F0 and leaves NEXT; the owner key is installed once, in PROVISION. -/
def Sys2Proof.Cert.Lifecycles : Prop :=
  ∀ (s : State) (p : PortId), s.whoOk (.pf p) = true →
    let lc := s.deck.lc
    let verified := fun (k : List Byte) (target : Nat) =>
      Config.signatureOk 1 k (leBytes Config.moduleSerial.toNat 8 ++ leBytes s.deck.epoch.toNat 4 ++ leBytes target 1) s.tru.token = true
    let goes := fun (target : BitVec 3) (l : Lc) => exec (.lcCmd p target) s = .next { s with deck := { s.deck with lcNext := some l } }
    let refused := fun (target : BitVec 3) => NextIs (exec (.lcCmd p target) s) (fun t => t.deck = s.deck ∧ Cert.Logged s t 0x1605 0x02 0x280010)
    let toField := (lc = .provision ∧ s.deck.ownerKey.isSome = true) ∨ lc = .service
    let unsigned := s.deck.ownerKey = none ∨ s.tru.token.length ≠ 96
    (toField → goes 2 .field) ∧
    (∀ k, s.deck.ownerKey = some k → s.tru.token.length = 96 →
      (lc = .field → if verified k 3 then goes 3 .service else refused 3) ∧ (lc ≠ .endState → if verified k 4 then goes 4 .endState else refused 4)) ∧
    (∀ target, ¬ (target = 2 ∧ toField) → (target = 3 → lc ≠ .field ∨ unsigned) → (target = 4 → lc = .endState ∨ unsigned) → refused target) ∧
    ∀ key : BitVec 768,
      (lc = .provision → s.deck.ownerKey = none → exec (.ownerKeyWrite p key) s = .next { s with deck := { s.deck with ownerKey := some (leBytes key.toNat 96) } }) ∧
      (lc ≠ .provision ∨ s.deck.ownerKey.isSome = true → NextIs (exec (.ownerKeyWrite p key) s) (fun t => t.deck = s.deck ∧ Cert.Logged s t 0x1605 0x02 0x280200))

/-- Measurement and debug (R387, R391, Table 13.4): the secure world extends M16 to M31 with 48 bytes; TRU_DEBUG takes the enables that the lifecycle state permits, a forbidden one is logged as F0, and a change extends M4. -/
def Sys2Proof.Cert.MeasureAndDebug : Prop :=
  ∀ (s : State),
    (∀ (last : W64), s.whoOk .secure = true → s.tru.measExt.length = 64 →
      let i := (s.tru.measExt.getD 0 0).toNat
      let buf := s.tru.measExt.take 56 ++ leBytes last.toNat 8
      (16 ≤ i → i ≤ 31 → NextIs (exec (.measExt last) s) (fun t => t.tru = { s.tru with measExt := buf, meas := t.tru.meas } ∧
        Sp.look t.tru.meas 0 i = Cert.extended (Sp.look s.tru.meas 0 i) (buf.drop 16) ∧ ∀ k, k ≠ i → Sp.look t.tru.meas 0 k = Sp.look s.tru.meas 0 k)) ∧
      (i < 16 ∨ 31 < i → exec (.measExt last) s = .next { s with tru := { s.tru with measExt := buf } })) ∧
    ∀ (p : PortId) (v : W32), s.whoOk (.pf p) = true →
      let mask : BitVec 4 := match s.deck.lc with | .manufacture => 15 | .provision => 3 | .field => 1 | .service => 7 | .endState => 0
      let ask : BitVec 4 := v.setWidth 4
      let new := ask &&& mask
      NextIs (exec (.debugWrite p v) s) (fun t => t.tru.debug = new ∧ (ask ≠ new → Cert.Logged s t 0x1605 0x02 0x280600) ∧ (ask = new → t.flt = s.flt) ∧
        (new = s.tru.debug → t.tru = s.tru) ∧
        (new ≠ s.tru.debug → Sp.look t.tru.meas 0 4 = Cert.extended (Sp.look s.tru.meas 0 4) (leBytes new.toNat 4) ∧ t.mp.cfgDirty = true))

/-! ## Faults and tests, power, start-up and the sideband (14-17) -/

namespace Sys2Proof.Cert

/-- The power arbiter's part of the state alone is other than before: it is p. -/
def PwrNow (s : State) (c : Instr) (p : Pwr) : Prop := exec c s = .next { s with pwr := p }

/-- Kinds whose unit has more to do than to be recorded (Table 14.1). -/
def plainKind (k : Nat) : Prop := isKind k = true ∧ k ≠ 0x13 ∧ k ≠ 0x14 ∧ k ≠ 0x15 ∧ k ≠ 0x16 ∧ k ≠ 0x20 ∧ k ≠ 0x22 ∧ k ≠ 0x27

/-- TICKs of n seconds (R5). -/
def secOf (n : Nat) : Nat := 100000000 * n

/-- The hold-up energy in mJ at V_HOLD of v mV (R437). -/
def holdEnergy (p : Pwr) (v : Nat) : Nat :=
  (if p.cValid then min p.holdCap.toNat p.cMeas.toNat else p.holdCap.toNat * 8 / 10) * (v * v - 49000000) / 2000000000

/-- The keep domain runs on the hold-up store and everything else is abandoned (Table 15.4); the image is the one R440 decides. -/
def SkidBegun (s t : State) (v : Nat) : Prop :=
  t.pwr.keep = true ∧ t.pwr.check = none ∧ t.pwr.grants = [] ∧ t.pwr.waiting = [] ∧ t.tly.stopped = true ∧ t.tly.ckpt = none ∧
  t.flt.aliveOn = false ∧ t.flt.alive = false ∧ (t.port 0).up = false ∧ (t.port 1).up = false ∧ (∀ l, l < 256 → (t.link l).state = .disabled) ∧
  let e := holdEnergy s.pwr v
  (s.start.skidDone = true ∨ s.start.loaded = false → t.start.writing = s.start.writing) ∧
  (s.start.skidDone = false → s.start.loaded = true → t.start.skidDone = true ∧
    (s.pwr.fullReq.toNat ≤ e → ∃ i, t.start.writing = some (.sag, some i) ∧ i.kind = .full ∧ i.stale = false ∧ i.entries = s.tly.entries.filter (fun x => x.2.state != .free)) ∧
    (e < s.pwr.fullReq.toNat → s.pwr.prioReq.toNat ≤ e → ∃ i, t.start.writing = some (.sag, some i) ∧ i.kind = .priority ∧ i.stale = false) ∧
    (e < s.pwr.fullReq.toNat → e < s.pwr.prioReq.toNat → 2 ≤ e → t.start.writing = some (.sag, none)) ∧
    (e < s.pwr.fullReq.toNat → e < s.pwr.prioReq.toNat → e < 2 → t.start.writing = s.start.writing))

/-- The state after a module reset of the cause: the Deck stays as it stands written (R74, R436), ALIVE is low, every block has its reset values, a blaze in the Deck comes back with PRIOR, and the classes outstanding are those given (R405, R443, R445). -/
def ResetDone (s t : State) (cause : Nat) (outst : BitVec 4) : Prop :=
  t.tick = 0 ∧ t.deck = s.deckKept ∧ (s.mp.load = none → s.pwr.nv = none → t.deck = s.deck) ∧
  ((s.port 0).attn = false → (s.port 1).attn = false → t.out = s.out ++ (if s.flt.alive then [.alive false] else [])) ∧ t.qm = State.reset.qm ∧ t.tly = State.reset.tly ∧ t.eng = State.reset.eng ∧ t.mem = [] ∧ t.bytes = [] ∧ t.poison = [] ∧
  t.lnd = State.reset.lnd ∧ t.coh = State.reset.coh ∧ t.cph = State.reset.cph ∧ t.gal = State.reset.gal ∧ t.tru = State.reset.tru ∧ t.mp = State.reset.mp ∧
  t.ch = { State.reset.ch with lref := s.ch.lref } ∧ t.pwr = { State.reset.pwr with holdCap := s.deck.holdCap, thermN := s.pwr.thermN } ∧
  t.flt = { State.reset.flt with blaze := t.deck.blaze.map (fun b => { b with prior := true }), outst := outst } ∧
  t.start = (if (s.port 0).refclk = true ∨ (s.port 1).refclk = true then { State.reset.start with cause := BitVec.ofNat 3 cause }
    else { State.reset.start with cause := BitVec.ofNat 3 cause, off := true, held := some (BitVec.ofNat 3 cause) }) ∧ (t.port 0).up = false ∧ (t.port 1).up = false

/-- Phase ph of start-up runs (R446, Table 16.2); one that writes the Deck waits for the NV stop (R436). -/
def Runs (s : State) (ph : Phase) : Prop :=
  s.on = true ∧ s.flt.grave = false ∧ (ph = .C ∨ ph = .H ∨ ph = .I → s.pwr.stop = false) ∧ ph ∉ s.start.done ∧
  ∀ q ∈ (match ph with | .B => [] | .C => [Phase.B] | .D => [.B] | .E => [.D] | .F => [.C] | .G => [.D] | .H => [.C] | .I => [.H] | .J => [.F, .H] | .K => [.E, .G, .I, .J]),
    q ∈ s.start.done

/-- A phase in which nothing goes wrong. -/
def noFault (idle : Nat) : PhaseFault := ⟨0, false, idle, [], [], [], [], [], none⟩

end Sys2Proof.Cert

/-- Fault reports (R394, R397, R403, R404): every report is recorded with the next INDEX, its class is outstanding, and one of F2 and above that names a function sets its FAULT_NOTICE; F4 is the grave stop: ALIVE low, viral and HP_ATTN_N on both ports, every link off, the Tally stopped and, where the Tally and the Deck are whole, an image to write. -/
def Sys2Proof.Cert.FaultReports : Prop :=
  ∀ (s : State) (r : Report), s.on = true → r.inj = false → Cert.plainKind r.kind.toNat →
    let cls := r.kind.toNat / 16
    (cls < 4 → NextIs (exec (.faultReport [r]) s) (fun t => Cert.Logged s t r.source.toNat r.kind.toNat r.detail.toNat ∧
      (∃ x, t.flt.log.getLast? = some x ∧ x.tid = r.tid ∧ x.func = r.func ∧ x.secure = r.secure ∧ x.inj = false ∧ x.prior = false) ∧
      t.flt.next = s.flt.next + 1 ∧ t.flt.log.length ≤ 1024 ∧ (∀ j, t.flt.outst.getLsbD j = (s.flt.outst.getLsbD j || (j + 1 == cls))) ∧
      (2 ≤ cls → r.func.toNat ≤ 0x101 → (t.fn r.func.toNat).event.getLsbD 3 = true) ∧ t.tly = s.tly ∧ t.flt.grave = s.flt.grave)) ∧
    (cls = 4 → s.flt.grave = false → NextIs (exec (.faultReport [r]) s) (fun t => Cert.Logged s t r.source.toNat r.kind.toNat r.detail.toNat ∧
      t.flt.grave = true ∧ t.flt.aliveOn = false ∧ t.flt.alive = false ∧ (t.port 0).viralOut = true ∧ (t.port 1).viralOut = true ∧ t.tly.stopped = true ∧
      t.start.phase = 7 ∧ t.flt.outst.getLsbD 3 = true ∧ (t.port 0).attn = true ∧ (t.port 1).attn = true ∧ (∀ l, l < 256 → (t.link l).state = .disabled) ∧
      (s.flt.blaze = none → s.flt.blazeMin.toNat ≤ 4 → s.flt.winTick ≠ some s.tick → (∃ x, t.flt.blaze = some x ∧ x.index = s.flt.next ∧ x.blaze = true) ∧
        (s.pwr.stop = false → t.deck.blaze = t.flt.blaze)) ∧
      (r.source = 0x1600 ∨ r.source = 0x1601 → t.start.writing = s.start.writing ∧ t.start.skidDone = s.start.skidDone) ∧
      (r.source ≠ 0x1600 → r.source ≠ 0x1601 → s.start.loaded = true → s.start.skidDone = false →
        t.start.skidDone = true ∧ ∃ i, t.start.writing = some (.grave, some i) ∧ i.kind = .full ∧ i.stale = false)))

/-- Reports that their unit contains as well (R268, R271, R284, R288, R320, R325, R359): errors corrected are counted, lost sectors are poisoned, disagreements are counted against their slice or coder, a key slot that fails is emptied and an engine that fails retires. -/
def Sys2Proof.Cert.ContainedReports : Prop :=
  ∀ (s : State) (r : Report), s.on = true → r.inj = false →
    let d := r.detail.toNat
    let logs := fun (t : State) => Cert.Logged s t r.source.toNat r.kind.toNat d
    (∀ k, k < 4 → r.source.toNat = 0x1500 + k →
      (r.kind = 0x14 → NextIs (exec (.faultReport [r]) s) (fun t => logs t ∧ t.lnd.corr.toNat = min 0xFFFFFFFF (s.lnd.corr.toNat + 1) ∧ t.lnd.uncorr = s.lnd.uncorr)) ∧
      (r.kind = 0x22 → NextIs (exec (.faultReport [r]) s) (fun t => logs t ∧ Sp.look t.poison false (d / 64 * 64) = true ∧ t.lnd.errAddr = BitVec.ofNat 64 (d / 64 % 2 ^ 30 * 64) ∧
        t.lnd.uncorr.toNat = min 0xFFFFFFFF (s.lnd.uncorr.toNat + 1)))) ∧
    (∀ g, g < 64 →
      (r.source.toNat = 0x100 + g → r.kind = 0x15 → Sp.look (s.grp g).faults 0 (d % 16) + 1 < s.cph.limit.toNat →
        NextIs (exec (.faultReport [r]) s) (fun t => logs t ∧ Sp.look (t.grp g).faults 0 (d % 16) = Sp.look (s.grp g).faults 0 (d % 16) + 1 ∧
          (t.grp g).slices = (s.grp g).slices)) ∧
      (r.source.toNat = 0x200 + g → r.kind = 0x16 → Sp.look (s.coder g).faults 0 0 + 1 < s.gal.limit.toNat →
        NextIs (exec (.faultReport [r]) s) (fun t => logs t ∧ Sp.look (t.coder g).faults 0 0 = Sp.look (s.coder g).faults 0 0 + 1 ∧
          (t.coder g).retired = (s.coder g).retired))) ∧
    (r.source = 0x1602 → r.kind = 0x27 → d < 4128 → NextIs (exec (.faultReport [r]) s) (fun t => logs t ∧ (t.slot d).type = 0 ∧ (t.slot d).key = 0 ∧
      (t.slot d).gen = (if (s.slot d).gen = 0xFFFFFF then 1 else (s.slot d).gen + 1) ∧ (r.func.toNat ≤ 0x101 → (t.fn r.func.toNat).event.getLsbD 3 = true))) ∧
    ∀ n, n < 144 → r.source.toNat = 0x1000 + n → r.kind = 0x20 → (s.pe n).role ≠ .retired →
      NextIs (exec (.faultReport [r]) s) (fun t => (t.pe n).role = .retired ∧ ∃ x ∈ t.flt.log, x.source = r.source)

/-- Exits and the blaze (R400, R405, R406, R409): under AUTO a class ends when its quiet period has passed since its latest report, and that of F3 restarts a halted MP; under HOLD, or earlier, nothing happens; the PF clears the blaze. -/
def Sys2Proof.Cert.FaultExits : Prop :=
  ∀ (s : State),
    (∀ c : Fin 3,
      let k := c.val + 1
      let due := Sp.look s.flt.lastRep 0 k + Cert.secOf (Sp.look s.flt.quiet 10 k).toNat ≤ s.tick
      (s.on = true → s.flt.outst.getLsbD c.val = true → s.flt.hold.getLsbD c.val = false → due →
        NextIs (exec (.quietPeriodExpiry c) s) (fun t => (∀ j, t.flt.outst.getLsbD j = (s.flt.outst.getLsbD j && (j != c.val))) ∧
          (Sp.look t.flt.recov 0 k).toNat = min 0xFFFF ((Sp.look s.flt.recov 0 k).toNat + 1) ∧
          t.mp = (if k = 3 ∧ s.mp.run = 2 then { s.mp with run := 1, restartAt := s.tick } else s.mp))) ∧
      (s.flt.hold.getLsbD c.val = true ∨ ¬ due → exec (.quietPeriodExpiry c) s = .next s)) ∧
    ∀ (p : PortId) (v : W32), s.whoOk (.pf p) = true →
      (v.getLsbD 31 = true → exec (.blazeClear p v) s = .next { s with flt := { s.flt with blaze := none, winTick := none }, deck := { s.deck with blaze := none } }) ∧
      (v.getLsbD 31 = false → exec (.blazeClear p v) s = .next s)

/-- ALIVE and the management processor (R408, R409): ALIVE toggles every 50,000 TICKs; a watchdog that expires is an F3, halts the MP and stops ALIVE, and the admin commands it had not applied, an IMAGE_LOAD that was still being written among them, complete with BUSY; a lockstep mismatch is an F2 and restarts it; once it runs its watchdog starts from zero and ALIVE starts again. -/
def Sys2Proof.Cert.ManagementProcessor : Prop :=
  ∀ (s : State), s.on = true →
    let waits := fun (c : Cmd) => s.mp.load = none ∧ s.qm.cmds = [c] ∧ c.stage = .checked ∧ (c.opcode < 0x10 ∨ 0x40 ≤ c.opcode) ∧ s.flt.grave = false
    let stops := fun (t : State) => (s.flt.grave = false → t.mp.load = none) ∧ (s.mp.load = none → t.mp.undo = s.mp.undo ∧ t.mp.binds = s.mp.binds) ∧
      (∀ c, waits c → ∃ n, Cert.Over s t c c.clamped 1 0 n 0) ∧
      ∀ f b h c, s.flt.grave = false → s.mp.load = some (f, b, h) → s.cmd h = some c → s.qm.cmds = [c] → c.stage = .running → ∃ n, Cert.Over s t c c.clamped 1 0 n 0
    (s.flt.aliveOn = true → s.flt.aliveAt + 50000 ≤ s.tick →
      exec .aliveToggle s = .next { s with out := s.out ++ [.alive (!s.flt.alive)], flt := { s.flt with alive := !s.flt.alive, aliveAt := s.tick } }) ∧
    (s.flt.aliveOn = false ∨ s.tick < s.flt.aliveAt + 50000 → exec .aliveToggle s = .next s) ∧
    (s.mp.run = 0 → exec .mpWatchdogKick s = .next { s with mp := { s.mp with kick := s.tick } }) ∧
    (s.mp.run = 0 → s.mp.kick + Cert.msOf s.flt.wdogPeriod.toNat ≤ s.tick →
      NextIs (exec .mpWatchdogExpiry s) (fun t => t.mp.run = 2 ∧ Cert.Logged s t 0x1603 0x34 0 ∧ t.flt.aliveOn = false ∧ t.flt.alive = false ∧
        t.out = s.out ++ (if s.flt.alive then [.alive false] else []) ∧ stops t)) ∧
    (s.mp.run = 0 → s.flt.inj = [] →
      NextIs (exec .mpLockstepMismatch s) (fun t => t.mp.run = 1 ∧ t.mp.restartAt = s.tick ∧ Cert.Logged s t 0x1603 0x24 0 ∧ t.flt.aliveOn = s.flt.aliveOn ∧ stops t)) ∧
    (s.mp.run = 1 → Phase.B ∈ s.start.done → s.flt.inj = [] →
      NextIs (exec .mpRestartComplete s) (fun t => t = { s with flt := t.flt, mp := { s.mp with run := 0, kick := s.tick } } ∧
        (t.flt.aliveOn = true ↔ s.flt.aliveOn = true ∨ (Phase.K ∈ s.start.done ∧ s.flt.grave = false))))

/-- Injections (R411-R413): one that has not taken effect within 1 s ends with TIMEOUT, which FLT_INJ_RESULT shows if no later FLT_INJ_GO has been written; FLT_INJ_GO answers MODE in END, what the checks of R411 answer, DENIED for a unit the secure world does not own, and otherwise arms the inversion. -/
def Sys2Proof.Cert.Injections : Prop :=
  ∀ (s : State),
    (∀ (u : W16) (j : Inj), s.on = true → s.flt.inj = [j] → j.unit = u → j.fired = false →
      (j.since + Cert.secOf 1 ≤ s.tick →
        (∀ h c, j.handle = some h → s.cmd h = some c → NextIs (exec (.injectTimeout u) s) (fun t => Cert.Over s t c c.clamped 0x0D 0 0 0 ∧ t.flt.inj = [])) ∧
        (j.handle = none → NextIs (exec (.injectTimeout u) s) (fun t =>
          t.flt = (if j.seq = s.flt.injSeq then { s.flt with inj := [], injStatus := 0x0D, injVal := 0 } else { s.flt with inj := [] })))) ∧
      (s.tick < j.since + Cert.secOf 1 → exec (.injectTimeout u) s = .next s)) ∧
    ∀ v : W32, s.whoOk .secure = true → v.getLsbD 0 = true →
      let u := s.flt.injTarget.toNat
      let m := s.flt.injMask.toNat
      (s.deck.lc = .endState → NextIs (exec (.injGo v) s) (fun t => t.flt = { s.flt with injSeq := s.flt.injSeq + 1, injStatus := 0x0F, injVal := 0 })) ∧
      (s.deck.lc ≠ .endState →
        (∀ st r0, failAt (injChecks s u m) = some (st, r0) → NextIs (exec (.injGo v) s) (fun t =>
          t.flt = { s.flt with injSeq := s.flt.injSeq + 1, injStatus := BitVec.ofNat 8 st, injVal := BitVec.ofNat 32 r0 })) ∧
        (failAt (injChecks s u m) = none → s.secUnit u = false → NextIs (exec (.injGo v) s) (fun t =>
          t.flt = { s.flt with injSeq := s.flt.injSeq + 1, injStatus := 0x0E, injVal := 0 })) ∧
        (failAt (injChecks s u m) = none → s.secUnit u = true → NextIs (exec (.injGo v) s) (fun t =>
          t.flt.inj = s.flt.inj ++ [⟨s.flt.injTarget, BitVec.ofNat 32 (m &&& injUsed u), none, s.tick, false, 0, s.flt.injSeq + 1⟩] ∧ t.flt.injStatus = 4 ∧ t.flt.injVal = 0)))

/-- Starts of background tests (R415, R419, R429): under its TEST grant the next bank in rotation that is not skipped, or the spare engine, is tested when its interval has passed; a waiting SELFTEST comes first; with nothing to test the interval starts again; one test runs in a cluster at a time. -/
def Sys2Proof.Cert.TestStarts : Prop :=
  ∀ (s : State) (c : ClId),
    let m := s.memCl c.val
    let free := s.live = true ∧ m.test = none ∧ m.engTest = none
    (m.test.isSome = true ∨ m.engTest.isSome = true → exec (.bankTestStart c) s = .next s ∧ exec (.spareEngineTestStart c) s = .next s) ∧
    (∀ b p, free → s.qm.cmds = [] → s.bgOn = true → m.lastBank + Cert.secOf s.flt.bankInterval.toNat ≤ s.tick → b = m.nextBank % 16 → s.bankPlan c.val b = some p →
      s.hasGrant 8 (0x2100 + 16 * c.val + b) = true →
      NextIs (exec (.bankTestStart c) s) (fun t => (p = none → t.pwr = s.pwr) ∧ Cert.MemNow { s with pwr := t.pwr } t c.val
        { m with test := some ⟨b, p, if p.isSome then 1 else 2, false, none⟩, nextBank := (b + 1) % 16, lastBank := s.tick })) ∧
    (free → s.qm.cmds = [] → s.bgOn = true → m.lastBank + Cert.secOf s.flt.bankInterval.toNat ≤ s.tick → (∀ b, b < 16 → s.bankPlan c.val b = none) →
      NextIs (exec (.bankTestStart c) s) (fun t => Cert.MemNow s t c.val { m with lastBank := s.tick })) ∧
    (∀ d b, free → s.qm.cmds = [d] → d.stage = .running → d.opcode = 0x63 → pkN d.pkt 8 1 = 0 → b < 16 → pkN d.pkt 9 2 = 0x1100 + 16 * c.val + b →
      (∀ p, s.bankPlan c.val b = some p → s.hasGrant 8 (0x2100 + 16 * c.val + b) = true →
        NextIs (exec (.bankTestStart c) s) (fun t => (p = none → t.pwr = s.pwr) ∧
          Cert.MemNow { s with pwr := t.pwr } t c.val { m with test := some ⟨b, p, if p.isSome then 1 else 2, false, some d.handle⟩ })) ∧
      (s.bankPlan c.val b = none → NextIs (exec (.bankTestStart c) s) (fun t => Cert.Over s t d d.clamped 3 0 9 0 ∧ t.mem = s.mem))) ∧
    (free → s.qm.cmds = [] → s.bgOn = true → m.lastEng + Cert.secOf s.flt.engInterval.toNat ≤ s.tick →
      (∀ n, s.spareServes c.val = false → s.spareOf c.val = some n → s.hasGrant 8 (0x2000 + n) = true →
        NextIs (exec (.spareEngineTestStart c) s) (fun t => Cert.MemNow s t c.val { m with engTest := some none, lastEng := s.tick })) ∧
      (s.spareServes c.val = true ∨ s.spareOf c.val = none →
        NextIs (exec (.spareEngineTestStart c) s) (fun t => Cert.MemNow s t c.val { m with lastEng := s.tick })))

/-- Ends of background tests (R286, R416, R417, R419): the copy ends in the remap to the spare; a bank tested in place is full of zeros and done, one tested by remap is restored first; a bank that fails is reported as F2 and stays served by its spare; a spare engine that fails retires; each test is counted and its SELFTEST completes. -/
def Sys2Proof.Cert.TestEnds : Prop :=
  ∀ (s : State) (c : ClId), s.live = true → s.flt.inj = [] →
    let m := s.memCl c.val
    let passed := fun (t : State) => t.flt.bgPass.toNat = min (2 ^ 64 - 1) (s.flt.bgPass.toNat + 1) ∧ t.flt.bgFail = s.flt.bgFail
    let failed := fun (t : State) => t.flt.bgFail.toNat = min (2 ^ 64 - 1) (s.flt.bgFail.toNat + 1) ∧ t.flt.bgPass = s.flt.bgPass
    (∀ x ok, m.test = some x →
      let u := 0x1100 + 16 * c.val + x.bank
      (x.phase = 1 → NextIs (exec (.bankTestPhaseEnd c ok) s) (fun t => t = { s with mem := t.mem, pwr := t.pwr } ∧ (t.memCl c.val).test = some { x with phase := 2 } ∧
        (t.memCl c.val).serving x.bank = x.spare.getD x.bank)) ∧
      (x.phase = 2 → x.spare.isSome = true → NextIs (exec (.bankTestPhaseEnd c true) s) (fun t => Cert.MemNow { s with pwr := t.pwr } t c.val { m with test := some { x with phase := 3 } })) ∧
      (x.phase = 2 → x.spare = none → NextIs (exec (.bankTestPhaseEnd c true) s) (fun t => (t.memCl c.val).test = none ∧ passed t ∧
        t.hasGrant 8 (0x1000 + u) = false ∧ ∀ a, inBank c.val x.bank a = true → Memory.get t.bytes a = 0)) ∧
      (x.phase = 2 → NextIs (exec (.bankTestPhaseEnd c false) s) (fun t => (t.memCl c.val).test = none ∧ failed t ∧ Cert.Logged s t u 0x28 x.bank ∧
        (t.memCl c.val).bankBad = m.bankBad ++ [x.spare.getD x.bank] ∧ (t.memCl c.val).remap = m.remap ∧
        ∀ h d, x.handle = some h → s.cmd h = some d → Cert.Over s t d d.clamped 0x12 0 s.flt.next.toNat 0)) ∧
      (x.phase = 3 → NextIs (exec (.bankTestPhaseEnd c ok) s) (fun t => (t.memCl c.val).test = none ∧ passed t ∧ (t.memCl c.val).serving x.bank = x.bank ∧
        ∀ h d, x.handle = some h → s.cmd h = some d → Cert.Over s t d d.clamped 0 0 0 0))) ∧
    (∀ h n, m.engTest = some h → s.spareOf c.val = some n →
      NextIs (exec (.spareEngineTestEnd c true) s) (fun t => (t.memCl c.val).engTest = none ∧ passed t ∧ t.eng = s.eng ∧
        ∀ k d, h = some k → s.cmd k = some d → Cert.Over s t d d.clamped 0 0 0 0) ∧
      NextIs (exec (.spareEngineTestEnd c false) s) (fun t => (t.memCl c.val).engTest = none ∧ failed t ∧ (t.pe n).role = .retired ∧
        Cert.Logged s t (0x1000 + n) 0x28 (n % 9) ∧ ∀ k d, h = some k → s.cmd k = some d → Cert.Over s t d d.clamped 0x12 0 s.flt.next.toNat 0)) ∧
    ∀ (u : W16) (h : Nat) (d : Cmd), s.flt.selftests = [(u, h)] → s.cmd h = some d → s.hasGrant 8 (0x1000 + u.toNat) = true →
      (∀ b, b < 16 → u.toNat = 0x1100 + 16 * c.val + b →
        NextIs (exec (.selftestComplete u true) s) (fun t => Cert.Over s t d d.clamped 0 0 0 0 ∧ t.flt.selftests = [] ∧ t.hasGrant 8 (0x1000 + u.toNat) = false ∧
          ∀ a, inBank c.val b a = true → Memory.get t.bytes a = 0) ∧
        NextIs (exec (.selftestComplete u false) s) (fun t => Cert.Over s t d d.clamped 0x12 0 s.flt.next.toNat 0 ∧ Cert.Logged s t u.toNat 0x28 b ∧
          (t.memCl c.val).bankBad = m.bankBad ++ [b])) ∧
      (u = 0xFFFF → NextIs (exec (.selftestComplete u true) s) (fun t => Cert.Over s t d d.clamped 0 0 0 0 ∧ t.bytes = [] ∧ t.poison = [] ∧ t.tly = s.tly ∧
        t.cph = s.cph ∧ t.deck = s.deck ∧ ∀ k, k < 16 → (t.memCl k).l2 = []))

/-- Grants and the pool (R427-R431, R433): a request within its class's reserve is granted; any other joins the queue, which counts it, and is granted there where FREE allows, or waits behind a head larger than FREE; a release serves the queue; the pool follows the measured draw, and 122 A while the module throttles. -/
def Sys2Proof.Cert.GrantsAndPool : Prop :=
  ∀ (s : State), s.on = true → Phase.D ∈ s.start.done →
    let p := s.pwr
    (∀ (cls : Fin 9) (amps who : Nat), s.start.warm = false → s.flt.grave = false → s.needs cls.val who = some amps → s.hasGrant cls.val who = false →
      (∀ g ∈ p.waiting, ¬ (g.cls = cls.val ∧ g.who = who)) →
      let fits := classOut p.grants cls.val + amps ≤ reserveOf cls.val
      let room := freeAmps p.pool.toNat p.grants
      let joins := fun (t : State) => (Sp.look t.pwr.waited 0 cls.val).toNat = min (2 ^ 64 - 1) ((Sp.look p.waited 0 cls.val).toNat + 1)
      (fits → Cert.PwrNow s (.powerGrantRequest cls amps who) { p with grants := p.grants ++ [⟨cls.val, amps, who⟩] }) ∧
      (¬ fits → p.waiting = [] → amps ≤ room →
        NextIs (exec (.powerGrantRequest cls amps who) s) (fun t => t = { s with pwr := t.pwr } ∧
          t.pwr = { p with grants := p.grants ++ [⟨cls.val, amps, who⟩], waited := t.pwr.waited } ∧ joins t)) ∧
      (¬ fits → (p.waiting = [] ∧ room < amps) ∨ (∃ y r, p.waiting = y :: r ∧ room < y.amps) →
        NextIs (exec (.powerGrantRequest cls amps who) s) (fun t => t.pwr = { p with waiting := p.waiting ++ [⟨cls.val, amps, who⟩], waited := t.pwr.waited } ∧ joins t))) ∧
    (∀ (cls : Fin 9) (who : Nat), s.needs cls.val who = none →
      let kept := p.grants.filter (fun g => !(g.cls = cls.val && g.who = who))
      (p.waiting = [] → Cert.PwrNow s (.powerGrantRelease cls who) { p with grants := kept }) ∧
      (∀ y, p.waiting = [y] → ¬ (y.cls = cls.val ∧ y.who = who) → y.amps ≤ freeAmps p.pool.toNat kept →
        Cert.PwrNow s (.powerGrantRelease cls who) { p with grants := kept ++ [y], waiting := [] })) ∧
    (∀ d i : BitVec 10, 0 < p.target.toNat → p.waiting = [] →
      let excess := max (((d.toNat - p.envelope.toNat) * 1000 + p.target.toNat - 1) / p.target.toNat) (i.toNat - p.iccMax.toNat)
      NextIs (exec (.poolUpdate d i) s) (fun t => t = { s with pwr := t.pwr } ∧ t.pwr.d = d ∧ t.pwr.i = i ∧ t.pwr.grants = p.grants ∧
        (p.throttle = true → t.pwr.pool = 122) ∧
        (p.throttle = false → 0 < excess → t.pwr.pool.toNat = max 122 (p.pool.toNat - excess)) ∧
        (p.throttle = false → excess = 0 → d.toNat + 10 < p.envelope.toNat → i.toNat + 10 < p.iccMax.toNat →
          t.pwr.pool.toNat = max 122 (min (p.iccMax.toNat - p.idleA.toNat) (p.pool.toNat + 16))) ∧
        (p.throttle = false → excess = 0 → ¬ (d.toNat + 10 < p.envelope.toNat ∧ i.toNat + 10 < p.iccMax.toNat) → t.pwr.pool = p.pool)))

/-- Pace, the regulator and temperature (R422, R424-R426, R433, R468, R471): the longest monitor is the pace; in PACE mode the target moves by 5 mV within its bounds and is written as one VOUT_COMMAND; a poll shows what it read; a failed transfer sets VRM_ERR; the pool is held at 122 A from TJ_LIMIT until 5 °C below it, and THERM_N from 110 °C until below 100 °C. -/
def Sys2Proof.Cert.PaceAndHeat : Prop :=
  ∀ (s : State), s.on = true →
    let p := s.pwr
    (∀ ps : List Nat, ps.length = 16 → Cert.PwrNow s (.paceRead ps) { p with paceNow := BitVec.ofNat 10 (min 1023 (ps.foldl max 0)) }) ∧
    (Phase.D ∈ s.start.done → p.pace = true → p.stop = false → p.vrmDead = false →
      let want := if p.paceTarget.toNat + 10 < p.paceNow.toNat then p.target.toNat + 5 else if p.paceNow.toNat + 10 < p.paceTarget.toNat then p.target.toNat - 5 else p.target.toNat
      let new := max p.vmin.toNat (min p.vmax.toNat want)
      NextIs (exec .paceAdjust s) (fun t => t = { s with pwr := t.pwr, out := t.out } ∧ t.pwr = { p with target := BitVec.ofNat 12 new } ∧
        t.out = s.out ++ (if p.target.toNat = new then [] else [.vrm 0x21 new]))) ∧
    (p.pace = false ∨ p.stop = true ∨ p.vrmDead = true → exec .paceAdjust s = .next s) ∧
    (∀ vout iout st, Phase.D ∈ s.start.done → exec (.vrmPoll vout iout st) s =
      .next { s with pwr := { p with vout := vout, statusWord := st }, out := s.out ++ [.vrm 0x8B vout.toNat, .vrm 0x8C iout.toNat, .vrm 0x79 st.toNat] }) ∧
    Cert.PwrNow s .vrmTransferFail { p with vrmErr := true } ∧
    ∀ temps : List Nat, temps.length = 36 →
      let hot := temps.foldl max 0
      NextIs (exec (.thermalSample temps) s) (fun t => t = { s with pwr := t.pwr } ∧ t.pwr.tj.toNat = min 255 hot ∧
        (p.tjLimit.toNat ≤ hot → t.pwr.throttle = true ∧ t.pwr.pool = 122) ∧
        (hot + 5 ≤ p.tjLimit.toNat → t.pwr.throttle = false ∧ t.pwr.pool = p.pool) ∧
        (hot < p.tjLimit.toNat → p.tjLimit.toNat < hot + 5 → t.pwr.throttle = p.throttle) ∧
        (110 ≤ hot → t.pwr.thermN = true) ∧ (hot < 100 → t.pwr.thermN = false) ∧ (100 ≤ hot → hot < 110 → t.pwr.thermN = p.thermN))

/-- The supply monitor and the Skid (R434-R436, R439-R441, R462): below SAG_STOP_NV Deck writes stop until the supply is back, and with both reference clocks lost the Skid begins (V_HOLD as last read, log 97); below SAG_SKID, and at an under-voltage of the core, I/O or Deck rail, the Skid begins; a stack whose rail fails is reported as F4; without the SerDes rail no link is UP and no port; an exhausted store ends it all. -/
def Sys2Proof.Cert.SupplyAndSkid : Prop :=
  ∀ (s : State),
    let p := s.pwr
    (∀ mv : BitVec 10, s.on = true → mv.toNat < p.sagStop.toNat →
      ((s.port 0).refclk = true ∨ (s.port 1).refclk = true →
        Cert.PwrNow s (.sagStopNvCrossing mv) { p with mainSense := mv, stop := true, nv := if p.stop then p.nv else some s.deck.nv }) ∧
      ((s.port 0).refclk = false → (s.port 1).refclk = false → NextIs (exec (.sagStopNvCrossing mv) s) (fun t => Cert.SkidBegun s t p.vHold.toNat ∧ t.pwr.stop = true))) ∧
    (∀ mv : BitVec 10, s.on = true → p.stop = true → p.sagStop.toNat + 20 ≤ mv.toNat →
      NextIs (exec (.nvStopEnd mv) s) (fun t => t.pwr.stop = false ∧ t.pwr.mainSense = mv ∧ t.pwr.nv = none ∧
        t.deck = { s.deck with holdCap := p.holdCap, blaze := if s.flt.grave then s.flt.blaze else s.deck.blaze, notes := s.deck.notes.filter (fun n => !n.gone) } ∧
        (Phase.D ∈ s.start.done → p.pace = false → p.vrmDead = false → t.pwr.target = p.vset))) ∧
    (∀ (mv : BitVec 10) (v : W16), s.on = true → mv.toNat < p.sagSkid.toNat →
      NextIs (exec (.sagSkidCrossing mv v) s) (fun t => Cert.SkidBegun s t v.toNat ∧ t.pwr.stop = true ∧ t.pwr.mainSense = mv)) ∧
    (∀ (r : Rail) (v : W16), s.on = true →
      (r = .core ∨ r = .io ∨ r = .mram → NextIs (exec (.railUndervoltage r v) s) (fun t => Cert.SkidBegun s t v.toNat)) ∧
      (r = .serdes → NextIs (exec (.railUndervoltage r v) s) (fun t => (t.port 0).up = false ∧ (t.port 1).up = false ∧
        (s.live = true → ∀ l, l < 256 → (s.link l).state = .up ∨ (s.link l).state = .probing → (t.link l).state = .down))) ∧
      (∀ k, k < 4 → r = .hbm (1#4 <<< k) → s.flt.grave = false → NextIs (exec (.railUndervoltage r v) s) (fun t => t.flt.grave = true ∧
        Cert.Logged s t (0x1500 + k) 0x40 k ∧ ∀ j, t.lnd.stackOk.getLsbD j = (s.lnd.stackOk.getLsbD j && (j != k))))) ∧
    (p.keep = true → exec .holdUpStoreExhausted s = .next { s with pwr := { p with keep := false }, start := { s.start with off := true, writing := none } }) ∧
    (p.keep = false → exec .holdUpStoreExhausted s = .next s)

/-- The hold-up store (R437, R438, R442, R475): E and LEVEL follow V_HOLD; a check starts when due or asked for, or is put off by 60 s; C_MEAS is 0.010 A·s over the fall of V_HOLD; the fitted capacitance is kept in the Deck. -/
def Sys2Proof.Cert.HoldUpStore : Prop :=
  ∀ (s : State),
    let p := s.pwr
    (∀ v : W16, s.on = true →
      let e := Cert.holdEnergy p v.toNat
      NextIs (exec (.holdStatusUpdate v) s) (fun t => t = { s with pwr := t.pwr } ∧ t.pwr.vHold = v ∧ t.pwr.energy.toNat = min 65535 e ∧
        t.pwr.level.toNat = (if p.fullReq.toNat ≤ e then 3 else if p.prioReq.toNat ≤ e then 2 else if 2 ≤ e then 1 else 0))) ∧
    (∀ v : W16, s.on = true → p.check = none → p.checkDue ≤ s.tick →
      (p.stop = true ∨ v.toNat < 10800 → Cert.PwrNow s (.holdCheckStart v) { p with checkDue := s.tick + Cert.secOf 60 }) ∧
      (p.stop = false → 10800 ≤ v.toNat → Cert.PwrNow s (.holdCheckStart v) { p with check := some (s.tick, v) })) ∧
    (∀ (q : PortId) (v vhold : W32), s.whoOk (.pf q) = true → v.getLsbD 31 = true → vhold.toNat < 65536 →
      let n := v.toNat % 32
      let k := max 1 (min 24 n)
      NextIs (exec (.holdCheckGo q v vhold) s) (fun t => t = { s with qm := t.qm, pwr := t.pwr } ∧ t.pwr.holdPeriod.toNat = k ∧ t.pwr.checkGo = true ∧
        Cert.Clamps s t (Cert.pfNo q) (if k = n then 0 else 1) ∧
        (p.check = none → p.stop = false → 10800 ≤ vhold.toNat → t.pwr.check = some (s.tick, BitVec.ofNat 16 vhold.toNat)) ∧
        (p.check.isSome = true → t.pwr.check = p.check) ∧
        (p.check = none → p.stop = true ∨ vhold.toNat < 10800 → t.pwr.check = none ∧ t.pwr.checkDue = s.tick + Cert.secOf 60))) ∧
    (∀ (v v0 : W16) (t0 : Nat), s.on = true → p.check = some (t0, v0) →
      (t0 + 1000000 ≤ s.tick →
        let fall := v0.toNat - v.toNat
        Cert.PwrNow s (.holdCheckComplete v) { p with check := none, checkGo := false, cMeas := BitVec.ofNat 20 (if fall < 1 then 1000000 else min 1000000 (10000000 / fall)), cValid := true, checkDue := s.tick + Cert.secOf (3600 * p.holdPeriod.toNat) }) ∧
      (s.tick < t0 + 1000000 → exec (.holdCheckComplete v) s = .next s)) ∧
    (∀ (q : PortId) (v : W32), s.whoOk (.pf q) = true →
      let c : BitVec 20 := v.setWidth 20
      (p.stop = false → exec (.holdCapWrite q v) s = .next { s with pwr := { p with holdCap := c }, deck := { s.deck with holdCap := c } }) ∧
      (p.stop = true → Cert.PwrNow s (.holdCapWrite q v) { p with holdCap := c })) ∧
    ∀ (w : Who) (v : W32), s.whoOk w = true → v.getLsbD 0 = true → Cert.PwrNow s (.pwrCntClear w v) { p with waited := [] }

/-- Resets, hot-remove and images from the main supply (R128, R405, R441, R443-R445, R449, R454): a module reset leaves the Deck and gives every block its reset values, a power-on ends every outstanding class and any other keeps those in HOLD; without a port reference clock the module is then held in reset until one returns (R28); a warm reset and a quiesce write a full image first, READY asserts HP_ATTN_N (R453); the configuration is kept in the Deck. -/
def Sys2Proof.Cert.ResetsAndImages : Prop :=
  ∀ (s : State),
    let clocked := (s.port 0).refclk = true ∨ (s.port 1).refclk = true
    let held := s.flt.outst &&& (s.flt.hold.setWidth 4)
    let full := fun (t : State) (w : SkidWhy) => t.tly.stopped = true ∧ t.tly.ckpt = none ∧ t.start.skidDone = true ∧
      ∃ i, t.start.writing = some (w, some i) ∧ i.kind = .full ∧ i.stale = false ∧ i.entries = s.tly.entries.filter (fun x => x.2.state != .free)
    (s.start.off = true → clocked → s.start.held = none → NextIs (exec .powerOnReset s) (fun t => Cert.ResetDone s t 0 0)) ∧
    (∀ k, s.start.off = true → clocked → s.start.held = some k → NextIs (exec .powerOnReset s) (fun t => t = { s with tick := 0, ports := t.ports, start := { s.start with off := false, held := none } } ∧
      ∀ q : PortId, t.port q.val = { s.port q.val with trainDue := if (s.port q.val).refclk = true ∧ (s.port q.val).perst = false then some 2000000 else none })) ∧
    (∀ mv : BitVec 10, s.pwr.keep = true → s.start.writing = none → s.pwr.sagStop.toNat + 20 ≤ mv.toNat →
      NextIs (exec (.supplyReturn mv) s) (fun t => Cert.ResetDone s t 2 held)) ∧
    (∀ (p : PortId) (v : W32), s.whoOk (.pf p) = true →
      (v.toNat / 65536 ≠ 0x9256 → NextIs (exec (.warmReset p v) s) (fun t => t.start = s.start ∧ Cert.Logged s t 0x1603 0x02 0x8)) ∧
      (v.toNat / 65536 = 0x9256 → v.getLsbD 0 = true → s.start.warm = false → s.flt.grave = false →
        NextIs (exec (.warmReset p v) s) (fun t => t.start.warm = true ∧ full t .warm)) ∧
      (v.toNat / 65536 = 0x9256 → v.getLsbD 0 = false ∨ s.flt.grave = true → exec (.warmReset p v) s = .next s) ∧
      (v.getLsbD 31 = true → s.start.warm = false → s.start.quiesce = false → s.flt.grave = false →
        NextIs (exec (.quiesce p v) s) (fun t => t = { s with qm := t.qm, start := t.start } ∧
          t.start = { s.start with quiesce := true, quiesceAt := s.tick, phase := 5, quiesceWait := BitVec.ofNat 10 (max 1 (min 1000 (v.toNat % 1024))) }))) ∧
    (s.live = true → s.start.quiesce = true →
      let drained := ∀ e ∈ s.tly.entries, e.2.state ≠ .opened ∧ e.2.state ≠ .active
      let late := s.start.quiesceAt + Cert.msOf s.start.quiesceWait.toNat ≤ s.tick
      (drained ∨ late → NextIs (exec .quiesceDrained s) (fun t => full t .quiesce)) ∧ (¬ drained → ¬ late → exec .quiesceDrained s = .next s)) ∧
    (∀ why i, s.start.off = false → s.start.writing = some (why, i) →
      let written := fun (t : State) => ∃ x, t.deck.skid = some x ∧ x.seq = s.deck.seq + 1 ∧ t.deck.seq = s.deck.seq + 1 ∧
        (∀ y, i = some y → x = { y with seq := s.deck.seq + 1 }) ∧ (i = none → x.stale = true ∧ x.entries = [])
      (why = .sag ∨ why = .grave → NextIs (exec .skidImageWritten s) (fun t => written t ∧ t.start = { s.start with writing := none })) ∧
      (why = .quiesce → s.pwr.keep = false → NextIs (exec .skidImageWritten s) (fun t => written t ∧ t.start.ready = true ∧ t.start.phase = 6 ∧ t.start.writing = none ∧
        t.flt.aliveOn = false ∧ t.flt.alive = false ∧ (∀ q : PortId, t.port q.val = { s.port q.val with attn := true }) ∧ ∀ l, l < 256 → (t.link l).state = .disabled)) ∧
      (why = .warm → s.pwr.keep = false → NextIs (exec .skidImageWritten s) (fun t => written t ∧ t.tick = 0 ∧ t.tly = State.reset.tly ∧ t.eng = State.reset.eng ∧
        (clocked → t.start = { State.reset.start with cause := 1 }) ∧ (¬ clocked → t.start = { State.reset.start with cause := 1, off := true, held := some 1 }) ∧ t.flt.outst = held))) ∧
    (s.on = true → Phase.J ∈ s.start.done → s.mp.cfgDirty = true → s.pwr.stop = false →
      NextIs (exec .configRecordWrite s) (fun t => t = { s with deck := t.deck, mp := { s.mp with cfgDirty := false } } ∧ ∃ c, t.deck = { s.deck with config := some c, configSeq := s.deck.configSeq + 1, configOld := s.deck.config } ∧
        c.groups = s.ch.groups ∧ c.moduleId = s.ch.moduleId ∧ c.frameLife = s.ch.frameLife ∧ c.binds = s.mp.binds ∧ c.prioCap = s.tly.prioCap ∧
        c.resolveWait = s.tly.resolveWait ∧ c.ckptPeriod = s.tly.ckptPeriod ∧ c.reuseHold = s.tly.reuseHold ∧ c.envelope = s.pwr.envelope ∧ c.iccMax = s.pwr.iccMax ∧
        c.tjLimit = s.pwr.tjLimit ∧ c.alertMin = s.flt.alertMin ∧ c.blazeMin = s.flt.blazeMin ∧ c.wdog = s.flt.wdogPeriod ∧ c.hoWait = s.tru.hoWait ∧ c.debug = s.tru.debug))

/-- Start-up phases B to E (R446, Tables 16.2, 16.3): the MP boots and measures its firmware, or both copies fail and F4 stops start-up; EPOCH, watermarks, owners and lifecycle come into force; the pool starts at CEIL, no lower than 122 A; the Landing is zero. -/
def Sys2Proof.Cert.StartUpFirst : Prop :=
  ∀ (s : State),
    let ends := fun (t : State) (ph : Phase) => t.start.done = s.start.done ++ [ph]
    (Cert.Runs s .B →
      NextIs (exec (.startUpPhaseEnd .B (Cert.noFault 0)) s) (fun t => ends t .B ∧ t.mp = { s.mp with run := 0, kick := s.tick } ∧
        Sp.look t.tru.meas 0 0 = Cert.extended (Sp.look s.tru.meas 0 0) Config.firmwareImage) ∧
      NextIs (exec (.startUpPhaseEnd .B { Cert.noFault 0 with fwBad := 2 }) s) (fun t => t.flt.grave = true ∧ Cert.Logged s t 0x1601 0x43 0 ∧ t.start.done = s.start.done)) ∧
    (∀ f, Cert.Runs s .C → NextIs (exec (.startUpPhaseEnd .C f) s) (fun t => ends t .C ∧ t.deck.epoch = (if s.deck.epoch = 0xFFFFFFFF then 1 else s.deck.epoch + 1) ∧ t.tru.wm = t.deck.wmNext ∧ t.tru.boot = t.deck.bootNext ∧
      t.tly.secLimit = t.deck.wmNext.tly ∧ t.lnd.watermark = t.deck.wmNext.lnd ∧ t.deck.lcNext = none ∧
      (s.deck.fuse = true → t.deck.lc = .endState) ∧
      (s.deck.fuse = false → s.deck.lcNext = none → t.deck = { s.deck with epoch := if s.deck.epoch = 0xFFFFFFFF then 1 else s.deck.epoch + 1 }) ∧
      (∀ x, s.deck.fuse = false → s.deck.lcNext = some x → t.deck.lc = x ∧ (x = .endState → t.deck.fuse = true ∧ t.deck.ownerKey = none ∧ t.deck.images = [] ∧ t.deck.secImage = none ∧ t.deck.skid = none) ∧
        (x = .service → s.deck.lc = .field → t.deck.ownerKey = s.deck.ownerKey ∧ t.tru.wm = ⟨0, 0, 0, 0⟩ ∧ t.tru.boot = ⟨0, 0, 0⟩ ∧ t.deck.secImage = none)))) ∧
    (∀ idle, Cert.Runs s .D → s.deck.config = none → idle < 1024 →
      NextIs (exec (.startUpPhaseEnd .D (Cert.noFault idle)) s) (fun t => ends t .D ∧ t.lnd.init = 1 ∧ t.pwr.idleA.toNat = idle ∧ t.pwr.pool.toNat = max 122 (s.pwr.iccMax.toNat - idle) ∧
        t.pwr.target = s.pwr.vset ∧ t.pwr.grants = s.pwr.grants ++ [⟨0, 4, 0x700⟩, ⟨2, 2, 0x701⟩, ⟨7, 4, 0x702⟩] ∧
        t.out = s.out ++ [.vrm 0x20 0, .vrm 0x27 1] ++ (if s.pwr.target = s.pwr.vset then [] else [.vrm 0x21 s.pwr.vset.toNat])) ∧
      NextIs (exec (.startUpPhaseEnd .D { Cert.noFault idle with vrmBad := true }) s) (fun t => ends t .D ∧ t.pwr.vrmErr = true ∧ t.pwr.vrmDead = true ∧ t.pwr.pace = false)) ∧
    (∀ idle, Cert.Runs s .E → NextIs (exec (.startUpPhaseEnd .E (Cert.noFault idle)) s) (fun t => ends t .E ∧ t.bytes = [] ∧ t.poison = [] ∧ t.lnd.init = 2 ∧ t.lnd.stackOk = 15) ∧
      ∀ k, k < 4 → NextIs (exec (.startUpPhaseEnd .E { Cert.noFault idle with stacksBad := [k] }) s) (fun t => t.flt.grave = true ∧ Cert.Logged s t (0x1500 + k) 0x40 k ∧
        t.lnd.stackOk.getLsbD k = false ∧ t.start.done = s.start.done))

/-- Start-up phases F to K (R446, R450, Tables 16.2, 16.3): the channel library is measured and a secure image that fits is installed; units that fail their known-answer tests retire; the Tally is restored and a checkpoint written; links whose ENABLE is 1 leave DISABLED; at the end the ports answer, ALIVE runs and the secure world starts. -/
def Sys2Proof.Cert.StartUpLast : Prop :=
  ∀ (s : State) (idle : Nat),
    let ends := fun (t : State) (ph : Phase) => t.start.done = s.start.done ++ [ph]
    let go := fun (ph : Phase) (f : PhaseFault) (P : State → Prop) => NextIs (exec (.startUpPhaseEnd ph f) s) P
    (Cert.Runs s .F → s.deck.patch = none → s.deck.order = [] →
      let lib := (List.range 4096).flatMap (fun j => leBytes (Config.libWord j).toNat 2)
      (s.deck.secImage = none → go .F (Cert.noFault idle) (fun t => ends t .F ∧ Sp.look t.tru.meas 0 2 = Cert.extended (Sp.look s.tru.meas 0 2) lib ∧ t.tru.secState = s.tru.secState)) ∧
      (∀ m, s.deck.secImage = some m → m.base.toNat + m.words.length ≤ s.tru.wm.pgm.toNat * 1024 →
        go .F (Cert.noFault idle) (fun t => ends t .F ∧ t.eng.secImg = some m ∧ Sp.look t.tru.meas 0 3 = Cert.extended (Sp.look s.tru.meas 0 3) m.raw ∧
          ∀ j, j < m.words.length → Sp.look t.eng.prog 0x3FFE (m.base.toNat + j) = m.words.getD j 0) ∧
        go .F { Cert.noFault idle with imgBad := [257] } (fun t => ends t .F ∧ t.tru.secState = 3 ∧ Cert.Logged s t 0x1605 0x35 0 ∧ t.eng.secImg = s.eng.secImg))) ∧
    (Cert.Runs s .G → s.flt.inj = [] →
      go .G (Cert.noFault idle) (fun t => ends t .G ∧ t = { s with start := t.start }) ∧
      (∀ n, n < 144 → (s.pe n).role ≠ .retired → go .G { Cert.noFault idle with pesBad := [n] } (fun t => (t.pe n).role = .retired)) ∧
      (∀ c, c < 64 → (s.coder c).retired = false → go .G { Cert.noFault idle with codersBad := [c] } (fun t => (t.coder c).retired = true ∧ (t.coder c).queue = [])) ∧
      (∀ n, n < 1024 → (s.grp (n / 16)).slices &&& ~~~(1#16 <<< (n % 16)) ≠ 0 → go .G { Cert.noFault idle with slicesBad := [n] } (fun t => ends t .G ∧
        Cert.Logged s t (0x100 + n / 16) 0x21 n ∧ (t.grp (n / 16)).slices = (s.grp (n / 16)).slices &&& ~~~(1#16 <<< (n % 16)) ∧ (t.grp (n / 16)).retired = (s.grp (n / 16)).retired))) ∧
    (Cert.Runs s .H →
      go .H (Cert.noFault idle) (fun t => ends t .H ∧ t.start.loaded = true ∧ t.tly.restore = 2 ∧
        (s.deck.skid = none → s.deck.ckptA = none → s.deck.ckptB = none → t.tly.image = 0 ∧ t.tly.blank = true)) ∧
      go .H { Cert.noFault idle with tlyBad := some true } (fun t => t.flt.grave = true ∧ Cert.Logged s t 0x1601 0x43 0) ∧
      go .H { Cert.noFault idle with tlyBad := some false } (fun t => t.flt.grave = true ∧ Cert.Logged s t 0x1600 0x42 0)) ∧
    (Cert.Runs s .I → go .I (Cert.noFault idle) (fun t => ends t .I ∧ t.tly.ckpt = none ∧ t.deck.seq = s.deck.seq + 1 ∧ t.tly.lastCkpt = s.tick ∧
      ((∃ i, t.deck.ckptA = some i ∧ t.deck.ckptB = s.deck.ckptB ∧ i.stamp = s.tick ∧ i.stale = false) ∨
        ∃ i, t.deck.ckptB = some i ∧ t.deck.ckptA = s.deck.ckptA ∧ i.stamp = s.tick ∧ i.stale = false))) ∧
    (Cert.Runs s .J → s.deck.config = none → s.deck.lc ≠ .endState → go .J (Cert.noFault idle) (fun t => ends t .J ∧ t = { s with ch := t.ch, pwr := t.pwr, start := t.start } ∧
      ∀ l, l < 256 → (t.link l).state = (if (s.link l).state = .disabled ∧ (s.link l).cfg.enable = true ∧ s.lrefOk l = true then .training else (s.link l).state))) ∧
    (Cert.Runs s .J → s.deck.lc = .endState → go .J (Cert.noFault idle) (fun t => ends t .J ∧ ∀ l, l < 256 → (t.link l).state = (s.link l).state)) ∧
    (∀ c, Cert.Runs s .J → s.deck.config = some c → go .J (Cert.noFault idle) (fun t => ends t .J ∧ t.ch.groups = c.groups ∧ t.ch.moduleId = c.moduleId ∧ t.ch.frameLife = c.frameLife ∧
      t.flt.alertMin = c.alertMin ∧ t.flt.blazeMin = c.blazeMin ∧ t.flt.wdogPeriod = c.wdog ∧ t.tru.hoWait = c.hoWait ∧ t.mp.binds = c.binds)) ∧
    (Cert.Runs s .K → go .K (Cert.noFault idle) (fun t => ends t .K ∧ t.start.phase = 4 ∧
      (∀ p : PortId, ((s.port p.val).perst = false → (t.port p.val).answering = true) ∧ ((s.port p.val).perst = true → (t.port p.val).waitCfg = true ∧ (t.port p.val).answering = (s.port p.val).answering)) ∧
      (s.mp.run ≠ 2 → t.flt.aliveOn = true) ∧
      (∀ m e, s.tru.boot.secEng ≠ 0 → s.tru.secState = 0 → s.eng.secImg = some m → e < 128 → s.secBlock e = true → s.inService e = true → t.tru.secState = 1) ∧
      (s.tru.boot.secEng = 0 → t.tru = s.tru ∧ t.eng = s.eng)))

/-- SMBus and JTAG (R465-R467, R469, Table 13.4): a pointer, a read that advances it, a write that takes effect at FLT_BLAZE_CLASS alone; a wrong PEC is not acknowledged and does nothing; the alert response while the alert is asserted; the JTAG instructions that the lifecycle state permits. -/
def Sys2Proof.Cert.Sideband : Prop :=
  ∀ (s : State), s.on = true →
    let o := s.flt.smbPtr.toNat
    let readable := o % 8 = 0 ∧ ((0x200000 ≤ o ∧ o < 0x280000) ∨ o = 0 ∨ o = 8 ∨ o = 0x10 ∨ o = 0x280000 ∨ o = 0x280008 ∨ o = 0x280018 ∨ o = 0x280300 ∨ o = 0x280310 ∨
      o = 0x180000 ∨ o = 0x180010)
    let sends := fun (c : Instr) (x : List Out) => exec c s = .next { s with out := s.out ++ x }
    (∀ v, exec (.smbPointer v true) s = .next { s with flt := { s.flt with smbPtr := BitVec.ofNat 32 (v.toNat % 0x1000000) } } ∧ sends (.smbPointer v false) [.smbus 0x10 []]) ∧
    (NextIs (exec (.smbRead true) s) (fun t => t.flt = { s.flt with smbPtr := BitVec.ofNat 32 ((o + 8) % 0x1000000) } ∧
        (readable → ∃ v : W64, t.out = s.out ++ [.smbus 0x11 (0 :: leBytes v.toNat 8)]) ∧ (¬ readable → t.out = s.out ++ [.smbus 0x11 (3 :: leBytes 0 8)])) ∧
      sends (.smbRead false) [.smbus 0x11 []]) ∧
    (∀ v, (o = 0x240040 → v.getLsbD 31 = true →
        exec (.smbWrite v true) s = .next { s with flt := { s.flt with blaze := none, winTick := none }, deck := { s.deck with blaze := none } }) ∧
      (o ≠ 0x240040 → NextIs (exec (.smbWrite v true) s) (fun t => Cert.Logged s t 0x1603 0x02 o ∧ t.deck = s.deck ∧ t.out = s.out)) ∧
      sends (.smbWrite v false) [.smbus 0x12 []]) ∧
    (((∃ k, k < 4 ∧ s.flt.outst.getLsbD k = true ∧ s.flt.alertMin.toNat ≤ k + 1) ∨ s.flt.grave = true → sends .alertResponse [.smbus 0x0C [BitVec.ofNat 8 (0x58 + Config.smbStraps.toNat)]]) ∧ (s.flt.grave = false → (∀ k, k < 4 → s.flt.outst.getLsbD k = true → k + 1 < s.flt.alertMin.toNat) → exec .alertResponse s = .next s)) ∧
    exec .smbusTimeout s = .next s ∧
    (∀ i, s.deck.lc = .field ∨ s.deck.lc = .endState → i ≠ .bypass → i ≠ .idcode → exec (.jtagInstruction i) s = .next s) ∧
    (s.deck.lc = .service → exec (.jtagInstruction .secureData) s = .next s) ∧
    NextIs (exec (.jtagInstruction .idcode) s) (fun t => ∃ v : W64, t.out = s.out ++ [.jtag v] ∧ v.toNat % 2 ^ 12 = 0xA6B ∧ v.toNat / 2 ^ 12 % 2 ^ 16 = 0x9256 ∧
      v.toNat / 2 ^ 28 = Config.siliconRevision.toNat % 16) ∧
    NextIs (exec (.jtagInstruction .bypass) s) (fun t => t.out = s.out ++ [.jtag 0] ∧ t.deck = s.deck)

/-- FAULT_NOTICE (R402): a record of class F2, F3 or F4 whose FUNC names a PF or a VF sets QM_VF_EVENT.FAULT_NOTICE (bit 3) of that function, and of no other; a record of class F0 or F1 sets no event bit. -/
def Obligations.FaultNotices : Prop :=
  ∀ (s : State) (r : Report), s.on = true →
    (2 ≤ r.kind.toNat / 16 → r.func.toNat ≤ 0x101 → ∀ f, ((s.report r).fn f).event = if f = r.func.toNat then (s.fn f).event ||| 8 else (s.fn f).event) ∧
    (2 ≤ r.kind.toNat / 16 → 0x101 < r.func.toNat → ∀ f, ((s.report r).fn f).event = (s.fn f).event) ∧
    (r.kind.toNat / 16 < 2 → ∀ f, ((s.report r).fn f).event = (s.fn f).event)

/-! ## The statements made of several parts -/

/-- A step runs the command at the front of the queue; an idle step passes one TICK. The model's own choices: logs 2 and 29. -/
def Obligations.Steps : Prop := Cert.StepRunsFrontCommand ∧ Cert.IdleStepPassesOneTick

/-- Multiplier and FP pipelines: latency, port, operands and flags of every row. -/
def Obligations.PipelineRows : Prop := Cert.MultiplierResults ∧ Cert.FpPipelineRows

/-- Floating-point numbers: subnormal operands, identities, comparison and conversions. -/
def Obligations.FpNumbers : Prop := Cert.FpSubnormalOperandsFlush ∧ Cert.FpNormalNumbersSurvive ∧ Cert.FpCompareOrders ∧ Cert.FcvtReplacements ∧ Cert.FcvtIntegersExact

/-- Moves: every destination stores its value, every source port reads what its table says. -/
def Obligations.MovesAndSources : Prop := Cert.MovesStore ∧ Cert.SourcesRead

/-- Branches, repeats and control words. The model's own choices: log 48. -/
def Obligations.BranchAndControlWords : Prop := Cert.BranchWords ∧ Cert.ControlWords ∧ Cert.RepeatWords

/-- Trap entry and return: what is saved, where the program goes on. The model's own choices: log 45. -/
def Obligations.TrapsAndReturns : Prop := Cert.TrapEntries ∧ Cert.TrapReturns

/-- Stores: scratch at once, other memory through the L1 and the store list. The model's own choices: log 17. -/
def Obligations.StoresWrite : Prop := Cert.StoresToScratch ∧ Cert.StoresAreBuffered

/-- LOU.GO starts each operation; what the Tally operations answer. The model's own choices: logs 75 and 99. -/
def Obligations.LongOperations : Prop := Cert.LongOperationsStart ∧ Cert.TallyOperationResults

/-- The microcode sequencer: where each microword goes, micro-traps, handlers, and what the program receives. The model's own choices: log 9. -/
def Obligations.MicrocodeSequencer : Prop := Cert.Microcode

/-- BSCAN, POPCNT, FP long operations, CRC32C and BCMP: results and failures. The model's own choices: log 9. -/
def Obligations.LongOperationResults : Prop := Cert.BitAndFpLongResults ∧ Cert.CrcAndCompareResults

/-- RQ.GAL and RQ.CPH: a complete request in range is queued, another is answered with BADREQ. The model's own choices: logs 40 and 41. -/
def Obligations.ServiceRequests : Prop := Cert.GalleyRequests ∧ Cert.CipherRequests

/-- DONE, GATE and RETURN_GATE, and the end of a program. The model's own choices: logs 45 and 47. -/
def Obligations.ProgramEndings : Prop := Cert.DoneAndGates ∧ Cert.ProgramsEnd

/-- At a step exactly one engine row answers; a lane mismatch freezes the engine. The model's own choices: log 34. -/
def Obligations.OneRowPerWord : Prop := Cert.OneRowPerWord ∧ Cert.MismatchFreezes

/-- Dispatch, barriers and waits that end, rewritten words, transports accepted once. The model's own choices: logs 34, 44 and 48. -/
def Obligations.DispatchAndWaits : Prop := Cert.DispatchStarts ∧ Cert.WaitsOfEnginesEnd ∧ Cert.EngineRecords ∧ Cert.TransportsAccepted

/-- Lane retries, tests and decisions, and the spare engine that takes over. The model's own choices: logs 34 and 44. -/
def Obligations.LanesAndSpares : Prop := Cert.LaneRetriesAndResync ∧ Cert.LaneRetryCommits ∧ Cert.LanesDecided ∧ Cert.MigrationsBindTheSpare

/-- Reference clocks, PERST_N, training, loss of a port, viral, and function resets. The model's own choices: logs 6, 52 and 89. -/
def Obligations.PortEvents : Prop := Cert.PortPins ∧ Cert.PortLosses ∧ Cert.FunctionResets

/-- Configuration requests, DOE objects, CDAT, IDE keys and SPDM. The model's own choices: logs 10, 25 and 90. -/
def Obligations.ConfigDoeAndSpdm : Prop := Cert.ConfigAndDoe ∧ Cert.SpdmRequests

/-- Register writes: fields, clamps, and what a refused write leaves. The model's own choices: logs 39 and 53. -/
def Obligations.RegisterWrites : Prop := Cert.RegisterWrites

/-- Doorbells, and queue pairs enabled, disabled and drained. The model's own choices: logs 24, 86, 87, 88 and 91. -/
def Obligations.DoorbellsAndQueuePairs : Prop := Cert.Doorbells ∧ Cert.QueuePairs

/-- Command fetch with its checks; completions, coalescing and vectors. The model's own choices: logs 13, 19 and 56. -/
def Obligations.FetchesAndCompletions : Prop := Cert.CommandFetches ∧ Cert.CompletionsAndVectors

/-- CXL.mem reads and writes: what is allowed, refused and poisoned. The model's own choices: log 4. -/
def Obligations.HostMemoryAccesses : Prop := Cert.HostMemoryAccesses

/-- The commands that report: IDENTIFY, QUERY, GET_LOG, FAULT_READ, and the status commands. The model's own choices: logs 11 and 35. -/
def Obligations.QueryCommands : Prop := Cert.QueryCommands

/-- The commands that set: quotas, modes, envelopes, path groups. -/
def Obligations.SettingCommands : Prop := Cert.SettingCommands ∧ Cert.GroupCommands

/-- BANK_STATE, INJECT, SELFTEST, HANDOVER, SERVICE_OPCODE and lifecycle commands. The model's own choices: logs 12 and 28. -/
def Obligations.UnitCommands : Prop := Cert.UnitCommands

/-- Transaction commands wait for an entry, and an entry is allocated with its fields. The model's own choices: logs 22 and 50. -/
def Obligations.TransactionsBegin : Prop := Cert.TransactionCommands ∧ Cert.EntryAllocates

/-- ABORT, RESUME, the restore log, notes, and the Tally's hold and note timers. The model's own choices: logs 30, 49, 92 and 93. -/
def Obligations.TallyCommandsAndTimers : Prop := Cert.TallyCommands ∧ Cert.TallyTimers

/-- COMPRESS, EXPAND, SEAL and UNSEAL: their checks and the operation they queue. The model's own choices: logs 26, 85 and 94. -/
def Obligations.DataCommands : Prop := Cert.DataCommands

/-- KEY_LOAD, KEY_ERASE, IMAGE_LOAD, IMAGE_BIND and the end of a load. The model's own choices: logs 10, 27 and 35. -/
def Obligations.KeysAndImages : Prop := Cert.KeyCommands ∧ Cert.ImageCommands

/-- Checkpoints start and end; doubt closes and in-doubt entries resolve. The model's own choices: logs 29 and 31. -/
def Obligations.CheckpointsAndDoubt : Prop := Cert.Checkpoints ∧ Cert.DoubtTimers

/-- Links: configuration, training, probing, loss of lock, silence and reference. The model's own choices: logs 32 and 33. -/
def Obligations.LinkStates : Prop := Cert.LinkConfiguration ∧ Cert.LinkStates ∧ Cert.LinkReferences

/-- A frame read back from its bytes is the frame; damaged bytes and frames its TYPE does not allow are found. The model's own choices: log 42. -/
def Obligations.FramesReadBack : Prop := Cert.FramesAsBytes

/-- Frames received: checks, sequence, NAK, and data placed for its entry. The model's own choices: logs 42 and 98. -/
def Obligations.ReceivedData : Prop := Cert.ReceiveChecks ∧ Cert.DataFrames

/-- ACK, NAK, BUSY and outcome frames; QUERY and REPORT. The model's own choices: logs 32 and 42. -/
def Obligations.Answers : Prop := Cert.Acknowledgements ∧ Cert.Questions

/-- CREDIT, IDLE and PROBE frames, what a link sends and sends again. The model's own choices: log 73. -/
def Obligations.ControlFramesAndSends : Prop := Cert.ControlFrames ∧ Cert.LinkSends ∧ Cert.Resends

/-- Homes: requests admitted or turned away, snoops, grants and evictions. The model's own choices: logs 3, 14 and 82. -/
def Obligations.HomesAndSnoops : Prop := Cert.HomeRequests ∧ Cert.Snoops ∧ Cert.Grants

/-- Host snoops and responses, tickets, and home timeouts. The model's own choices: logs 4, 18 and 82. -/
def Obligations.HostCoherence : Prop := Cert.HostCoherence ∧ Cert.HomeTimeouts

/-- CLEAN, INVALIDATE and DISCARD: their checks and what their ends leave. The model's own choices: log 69. -/
def Obligations.RangeOperations : Prop := Cert.RangeStarts ∧ Cert.RangeEnds

/-- Caches switched and flushed, counters cleared, scratch banks, patrol scrub. The model's own choices: log 67. -/
def Obligations.CachesAndScratch : Prop := Cert.CacheEnables ∧ Cert.FlushEnds ∧ Cert.CounterClears ∧ Cert.ScratchBanks ∧ Cert.PatrolScrub

/-- Key capture, the end of every cipher operation, and scrubs. The model's own choices: logs 43, 83 and 85. -/
def Obligations.CipherOperations : Prop := Cert.KeyCaptures ∧ Cert.CipherEnds ∧ Cert.Scrubs

/-- Galley coders: taking work, confirmations, and the end of every operation. The model's own choices: logs 43, 83 and 85. -/
def Obligations.CoderOperations : Prop := Cert.Coders ∧ Cert.CoderEnds

/-- Hand-overs of blocks and the lone restart of the secure world. The model's own choices: logs 46 and 74. -/
def Obligations.SecureWorld : Prop := Cert.HandOvers ∧ Cert.HandOverResets ∧ Cert.LoneRestarts

/-- The lifecycle changes only at start-up; commands, keys, measurement and debug enables. The model's own choices: logs 46, 53 and 56. -/
def Obligations.LifecycleAndDebug : Prop := Cert.LifecycleChangesAtStartUp ∧ Cert.Lifecycles ∧ Cert.MeasureAndDebug

/-- Fault reports, the grave stop, what units contain, exits and the blaze. The model's own choices: logs 36 and 100. -/
def Obligations.FaultReportsAndExits : Prop := Cert.FaultReports ∧ Cert.ContainedReports ∧ Cert.FaultExits

/-- ALIVE, the MP watchdog and restart; injections armed and timed out. The model's own choices: logs 28 and 67. -/
def Obligations.ProcessorAndInjections : Prop := Cert.ManagementProcessor ∧ Cert.Injections

/-- Background tests and full self-tests: start, phases and end. The model's own choices: log 64. -/
def Obligations.Tests : Prop := Cert.TestStarts ∧ Cert.TestEnds

/-- Grants and the current pool; regulator, pace and heat. The model's own choices: logs 60 and 61. -/
def Obligations.PowerAndHeat : Prop := Cert.GrantsAndPool ∧ Cert.PaceAndHeat

/-- Sags, the Skid, the hold-up store, resets, quiesce and the images they write. The model's own choices: logs 6, 62, 97 and 100. -/
def Obligations.SupplyAndResets : Prop := Cert.SupplyAndSkid ∧ Cert.HoldUpStore ∧ Cert.ResetsAndImages

/-- Every phase of start-up when its faults are as given. The model's own choices: logs 6, 37 and 65. -/
def Obligations.StartUp : Prop := Cert.StartUpFirst ∧ Cert.StartUpLast

/-- SMBus pointer, read, write and alert response; JTAG. The model's own choices: logs 20, 53, 58 and 66. -/
def Obligations.Sideband : Prop := Cert.Sideband
end

