-- ==== Sys2Proof/Laws/Sparse.lean ====
section
/-! SUPPORT. Laws of the sparse tables and of the memory: what a read after a write gives, and that every memory operation keeps the canonical form. -/

namespace Sys2Proof.Machine

variable {α : Type} [DecidableEq α]

/-! ## The canonical form -/

/-- The canonical form in words: keys strictly rising, and no entry that equals the default. -/
theorem Sp.wf_iff (t : Sp α) (d : α) : Sp.wf t d = true ↔ t.Pairwise (fun a b => a.1 < b.1) ∧ ∀ e ∈ t, e.2 ≠ d := by
  induction t with
  | nil => simp [Sp.wf]
  | cons x r ih =>
    obtain ⟨j, v⟩ := x
    cases r with
    | nil => simp [Sp.wf]
    | cons y r =>
      obtain ⟨j', v'⟩ := y
      simp only [Sp.wf, Bool.and_eq_true, decide_eq_true_eq] at ih ⊢
      constructor
      · rintro ⟨⟨hv, hj⟩, hr⟩
        have h := ih.1 hr
        refine ⟨List.pairwise_cons.2 ⟨?_, h.1⟩, ?_⟩
        · intro e he
          rcases List.mem_cons.1 he with rfl | he
          · exact hj
          · exact lt_trans hj ((List.pairwise_cons.1 h.1).1 e he)
        · intro e he
          rcases List.mem_cons.1 he with rfl | he
          · exact hv
          · exact h.2 e he
      · rintro ⟨hp, hn⟩
        have hp' := List.pairwise_cons.1 hp
        exact ⟨⟨hn (j, v) (by simp), hp'.1 (j', v') (by simp)⟩, ih.2 ⟨hp'.2, fun e he => hn e (List.mem_cons_of_mem _ he)⟩⟩

/-- A table from which entries have been filtered stays canonical. -/
theorem Sp.wf_filter (t : Sp α) (d : α) (p : Nat × α → Bool) (h : Sp.wf t d = true) : Sp.wf (t.filter p) d = true := by
  rw [Sp.wf_iff] at h ⊢
  exact ⟨h.1.filter p, fun e he => h.2 e (List.mem_of_mem_filter he)⟩

/-- Inserting a fresh key keeps the rising order. -/
theorem Sp.ins_mem (t : Sp α) (k : Nat) (v : α) (e : Nat × α) : e ∈ Sp.ins t k v ↔ e = (k, v) ∨ e ∈ t := by
  induction t with
  | nil => simp [Sp.ins]
  | cons x r ih =>
    obtain ⟨j, w⟩ := x
    simp only [Sp.ins]
    split
    · simp
    · simp only [List.mem_cons, ih]; tauto

theorem Sp.ins_pairwise (t : Sp α) (k : Nat) (v : α) (h : t.Pairwise (fun a b => a.1 < b.1)) (hk : ∀ e ∈ t, e.1 ≠ k) :
    (Sp.ins t k v).Pairwise (fun a b => a.1 < b.1) := by
  induction t with
  | nil => simp [Sp.ins]
  | cons x r ih =>
    obtain ⟨j, w⟩ := x
    have hp := List.pairwise_cons.1 h
    simp only [Sp.ins]
    split
    · rename_i hlt
      refine List.pairwise_cons.2 ⟨?_, h⟩
      intro e he
      rcases List.mem_cons.1 he with rfl | he
      · exact hlt
      · exact lt_trans hlt (hp.1 e he)
    · rename_i hlt
      have hne := hk (j, w) (by simp)
      refine List.pairwise_cons.2 ⟨?_, ih hp.2 (fun e he => hk e (List.mem_cons_of_mem _ he))⟩
      intro e he
      rcases (Sp.ins_mem r k v e).1 he with rfl | he
      · simp only at hne ⊢; omega
      · exact hp.1 e he

/-- Writing keeps the canonical form. -/
theorem Sp.wf_put (t : Sp α) (d : α) (k : Nat) (v : α) (h : Sp.wf t d = true) : Sp.wf (Sp.put t d k v) d = true := by
  unfold Sp.put
  split
  · exact Sp.wf_filter t d _ h
  · rename_i hv
    have h' := (Sp.wf_iff _ _).1 (Sp.wf_filter t d (fun e => e.1 != k) h)
    rw [Sp.wf_iff]
    refine ⟨Sp.ins_pairwise _ _ _ h'.1 ?_, ?_⟩
    · intro e he; simpa using (List.mem_filter.1 he).2
    · intro e he
      rcases (Sp.ins_mem _ _ _ _).1 he with rfl | he
      · exact hv
      · exact h'.2 e he

/-! ## Read after write -/

omit [DecidableEq α] in
theorem Sp.look_drop_self (t : Sp α) (d : α) (k : Nat) : Sp.look (Sp.drop t k) d k = d := by
  induction t with
  | nil => rfl
  | cons x r ih =>
    obtain ⟨j, w⟩ := x
    by_cases hj : j = k
    · simpa [Sp.drop, hj] using ih
    · simpa [Sp.drop, hj, Sp.look] using ih

omit [DecidableEq α] in
theorem Sp.look_drop_ne (t : Sp α) (d : α) (k j : Nat) (h : j ≠ k) : Sp.look (Sp.drop t k) d j = Sp.look t d j := by
  induction t with
  | nil => rfl
  | cons x r ih =>
    obtain ⟨i, w⟩ := x
    by_cases hi : i = k
    · have hne : i ≠ j := fun e => h (e ▸ hi)
      simpa [Sp.drop, hi, Sp.look, Ne.symm h] using ih
    · simp only [Sp.drop, List.filter_cons, bne_iff_ne, ne_eq, hi, not_false_eq_true, if_true, Sp.look]
      split
      · rfl
      · exact ih

omit [DecidableEq α] in
theorem Sp.look_ins_self (t : Sp α) (d : α) (k : Nat) (v : α) (h : ∀ e ∈ t, e.1 ≠ k) : Sp.look (Sp.ins t k v) d k = v := by
  induction t with
  | nil => simp [Sp.ins, Sp.look]
  | cons x r ih =>
    obtain ⟨j, w⟩ := x
    have hj := h (j, w) (by simp)
    simp only [Sp.ins]
    split
    · simp [Sp.look]
    · simp only [Sp.look, hj, if_false]
      exact ih (fun e he => h e (List.mem_cons_of_mem _ he))

omit [DecidableEq α] in
theorem Sp.look_ins_ne (t : Sp α) (d : α) (k j : Nat) (v : α) (h : j ≠ k) : Sp.look (Sp.ins t k v) d j = Sp.look t d j := by
  induction t with
  | nil => simp [Sp.ins, Sp.look, Ne.symm h]
  | cons x r ih =>
    obtain ⟨i, w⟩ := x
    simp only [Sp.ins]
    split
    · simp [Sp.look, Ne.symm h]
    · simp only [Sp.look]
      split
      · rfl
      · exact ih

/-- A read after a write to the same key gives the value written. -/
@[simp] theorem Sp.look_put_self (t : Sp α) (d : α) (k : Nat) (v : α) : Sp.look (Sp.put t d k v) d k = v := by
  unfold Sp.put
  split
  · rename_i h; rw [Sp.look_drop_self, h]
  · exact Sp.look_ins_self _ _ _ _ (fun e he => by simpa using (List.mem_filter.1 he).2)

/-- A write leaves every other key alone. -/
theorem Sp.look_put_ne (t : Sp α) (d : α) (k j : Nat) (v : α) (h : j ≠ k) : Sp.look (Sp.put t d k v) d j = Sp.look t d j := by
  unfold Sp.put
  split
  · exact Sp.look_drop_ne _ _ _ _ h
  · rw [Sp.look_ins_ne _ _ _ _ _ h, Sp.look_drop_ne _ _ _ _ h]

/-- Another key reads as before, whatever value an unlisted key of it reads as. -/
theorem Sp.look_put_other (t : Sp α) (d d' : α) (k j : Nat) (v : α) (h : j ≠ k) : Sp.look (Sp.put t d k v) d' j = Sp.look t d' j := by
  unfold Sp.put
  split
  · exact Sp.look_drop_ne _ _ _ _ h
  · rw [Sp.look_ins_ne _ _ _ _ _ h, Sp.look_drop_ne _ _ _ _ h]

/-- A read after a write, in one equation. -/
theorem Sp.look_put (t : Sp α) (d : α) (k j : Nat) (v : α) : Sp.look (Sp.put t d k v) d j = if j = k then v else Sp.look t d j := by
  split
  · rename_i h; rw [h, Sp.look_put_self]
  · rename_i h; exact Sp.look_put_ne _ _ _ _ _ h

@[simp] theorem Sp.look_upd_self (t : Sp α) (d : α) (k : Nat) (f : α → α) : Sp.look (Sp.upd t d k f) d k = f (Sp.look t d k) :=
  Sp.look_put_self _ _ _ _

theorem Sp.look_upd_ne (t : Sp α) (d : α) (k j : Nat) (f : α → α) (h : j ≠ k) : Sp.look (Sp.upd t d k f) d j = Sp.look t d j :=
  Sp.look_put_ne _ _ _ _ _ h

omit [DecidableEq α] in
@[simp] theorem Sp.look_nil (d : α) (k : Nat) : Sp.look ([] : Sp α) d k = d := rfl

/-! ## The memory -/

theorem Memory.wf_set (m : Memory) (a : Nat) (v : Byte) (h : Memory.wf m = true) : Memory.wf (m.set a v) = true := Sp.wf_put _ _ _ _ h

theorem Memory.wf_setN (m : Memory) (a : Nat) (bs : List Byte) (h : Memory.wf m = true) : Memory.wf (m.setN a bs) = true := by
  induction bs generalizing m a with
  | nil => exact h
  | cons b r ih => exact ih _ _ (Memory.wf_set _ _ _ h)

theorem Memory.wf_clear (m : Memory) (lo hi : Nat) (h : Memory.wf m = true) : Memory.wf (m.clear lo hi) = true := Sp.wf_filter _ _ _ h

/-- The byte written is the byte read. -/
theorem Memory.get_set_self (m : Memory) (a : Nat) (v : Byte) : (m.set a v).get a = v := Sp.look_put_self _ _ _ _

/-- Every other byte is as before. -/
theorem Memory.get_set_ne (m : Memory) (a b : Nat) (v : Byte) (h : b ≠ a) : (m.set a v).get b = m.get b := Sp.look_put_ne _ _ _ _ _ h

/-- A store of bytes from `a` leaves every byte outside its range alone. -/
theorem Memory.get_setN_out (m : Memory) (a b : Nat) (bs : List Byte) (h : b < a ∨ a + bs.length ≤ b) : (m.setN a bs).get b = m.get b := by
  induction bs generalizing m a with
  | nil => rfl
  | cons x r ih =>
    simp only [List.length_cons] at h
    rw [Memory.setN, ih _ _ (by omega), Memory.get_set_ne _ _ _ _ (by omega)]

/-- A store of bytes from `a` is read back byte by byte. -/
theorem Memory.get_setN_in (m : Memory) (a k : Nat) (bs : List Byte) (h : k < bs.length) : (m.setN a bs).get (a + k) = bs[k] := by
  induction bs generalizing m a k with
  | nil => simp at h
  | cons x r ih =>
    cases k with
    | zero => rw [Memory.setN, Memory.get_setN_out _ _ _ _ (by omega)]; exact Memory.get_set_self _ _ _
    | succ k =>
      have := ih (m.set a x) (a + 1) k (by simpa using h)
      simpa [Memory.setN, Nat.add_assoc, Nat.add_comm 1 k] using this

/-- Reading n bytes gives n bytes. -/
@[simp] theorem Memory.getN_length (m : Memory) (a n : Nat) : (m.getN a n).length = n := by
  induction n generalizing a with
  | zero => rfl
  | succ n ih => simp [Memory.getN, ih]

end Sys2Proof.Machine
end

