-- ==== Sys2Proof/Laws/State.lean ====
section
/-! SUPPORT. Reading a field or an item of the state after each update: one lemma per field per update, so that no later proof unfolds a record update. -/

namespace Sys2Proof.Machine

/-! ## updPort -/

@[simp] theorem State.updPort_tick (s : State) (p : Nat) (f : Port → Port) : (s.updPort p f).tick = s.tick := rfl
@[simp] theorem State.updPort_qm (s : State) (p : Nat) (f : Port → Port) : (s.updPort p f).qm = s.qm := rfl
@[simp] theorem State.updPort_tly (s : State) (p : Nat) (f : Port → Port) : (s.updPort p f).tly = s.tly := rfl
@[simp] theorem State.updPort_deck (s : State) (p : Nat) (f : Port → Port) : (s.updPort p f).deck = s.deck := rfl
@[simp] theorem State.updPort_ch (s : State) (p : Nat) (f : Port → Port) : (s.updPort p f).ch = s.ch := rfl
@[simp] theorem State.updPort_eng (s : State) (p : Nat) (f : Port → Port) : (s.updPort p f).eng = s.eng := rfl
@[simp] theorem State.updPort_mem (s : State) (p : Nat) (f : Port → Port) : (s.updPort p f).mem = s.mem := rfl
@[simp] theorem State.updPort_bytes (s : State) (p : Nat) (f : Port → Port) : (s.updPort p f).bytes = s.bytes := rfl
@[simp] theorem State.updPort_poison (s : State) (p : Nat) (f : Port → Port) : (s.updPort p f).poison = s.poison := rfl
@[simp] theorem State.updPort_ecc (s : State) (p : Nat) (f : Port → Port) : (s.updPort p f).ecc = s.ecc := rfl
@[simp] theorem State.updPort_lnd (s : State) (p : Nat) (f : Port → Port) : (s.updPort p f).lnd = s.lnd := rfl
@[simp] theorem State.updPort_coh (s : State) (p : Nat) (f : Port → Port) : (s.updPort p f).coh = s.coh := rfl
@[simp] theorem State.updPort_cph (s : State) (p : Nat) (f : Port → Port) : (s.updPort p f).cph = s.cph := rfl
@[simp] theorem State.updPort_gal (s : State) (p : Nat) (f : Port → Port) : (s.updPort p f).gal = s.gal := rfl
@[simp] theorem State.updPort_tru (s : State) (p : Nat) (f : Port → Port) : (s.updPort p f).tru = s.tru := rfl
@[simp] theorem State.updPort_flt (s : State) (p : Nat) (f : Port → Port) : (s.updPort p f).flt = s.flt := rfl
@[simp] theorem State.updPort_mp (s : State) (p : Nat) (f : Port → Port) : (s.updPort p f).mp = s.mp := rfl
@[simp] theorem State.updPort_pwr (s : State) (p : Nat) (f : Port → Port) : (s.updPort p f).pwr = s.pwr := rfl
@[simp] theorem State.updPort_start (s : State) (p : Nat) (f : Port → Port) : (s.updPort p f).start = s.start := rfl
@[simp] theorem State.updPort_fresh (s : State) (p : Nat) (f : Port → Port) : (s.updPort p f).fresh = s.fresh := rfl
@[simp] theorem State.updPort_out (s : State) (p : Nat) (f : Port → Port) : (s.updPort p f).out = s.out := rfl
@[simp] theorem State.updPort_pending (s : State) (p : Nat) (f : Port → Port) : (s.updPort p f).pending = s.pending := rfl
@[simp] theorem State.updPort_port (s : State) (p : Nat) (f : Port → Port) : (s.updPort p f).port p = f (s.port p) := Sp.look_upd_self _ _ _ _
theorem State.updPort_port_ne (s : State) (p : Nat) (f : Port → Port) (p' : Nat) (hn : p' ≠ p) : (s.updPort p f).port p' = s.port p' := Sp.look_upd_ne _ _ _ _ _ hn
@[simp] theorem State.updPort_fn (s : State) (p : Nat) (f : Port → Port) (k' : Nat) : (s.updPort p f).fn k' = s.fn k' := rfl
@[simp] theorem State.updPort_queue (s : State) (p : Nat) (f : Port → Port) (k' q' : Nat) : (s.updPort p f).queue k' q' = s.queue k' q' := rfl
@[simp] theorem State.updPort_win (s : State) (p : Nat) (f : Port → Port) (m' w' : Nat) : (s.updPort p f).win m' w' = s.win m' w' := rfl
@[simp] theorem State.updPort_entry (s : State) (p : Nat) (f : Port → Port) (i' : Nat) : (s.updPort p f).entry i' = s.entry i' := rfl
@[simp] theorem State.updPort_link (s : State) (p : Nat) (f : Port → Port) (l' : Nat) : (s.updPort p f).link l' = s.link l' := rfl
@[simp] theorem State.updPort_group (s : State) (p : Nat) (f : Port → Port) (g' : Nat) : (s.updPort p f).group g' = s.group g' := rfl
@[simp] theorem State.updPort_flow (s : State) (p : Nat) (f : Port → Port) (i' g' : Nat) : (s.updPort p f).flow i' g' = s.flow i' g' := rfl
@[simp] theorem State.updPort_le (s : State) (p : Nat) (f : Port → Port) (e' : Nat) : (s.updPort p f).le e' = s.le e' := rfl
@[simp] theorem State.updPort_pe (s : State) (p : Nat) (f : Port → Port) (n' : Nat) : (s.updPort p f).pe n' = s.pe n' := rfl
@[simp] theorem State.updPort_engCl (s : State) (p : Nat) (f : Port → Port) (c' : Nat) : (s.updPort p f).engCl c' = s.engCl c' := rfl
@[simp] theorem State.updPort_memCl (s : State) (p : Nat) (f : Port → Port) (c' : Nat) : (s.updPort p f).memCl c' = s.memCl c' := rfl
@[simp] theorem State.updPort_home (s : State) (p : Nat) (f : Port → Port) (h' : Nat) : (s.updPort p f).home h' = s.home h' := rfl
@[simp] theorem State.updPort_slot (s : State) (p : Nat) (f : Port → Port) (i' : Nat) : (s.updPort p f).slot i' = s.slot i' := rfl
@[simp] theorem State.updPort_grp (s : State) (p : Nat) (f : Port → Port) (g' : Nat) : (s.updPort p f).grp g' = s.grp g' := rfl
@[simp] theorem State.updPort_coder (s : State) (p : Nat) (f : Port → Port) (c' : Nat) : (s.updPort p f).coder c' = s.coder c' := rfl
@[simp] theorem State.updPort_live (s : State) (p : Nat) (f : Port → Port) : (s.updPort p f).live = s.live := rfl
@[simp] theorem State.updPort_on (s : State) (p : Nat) (f : Port → Port) : (s.updPort p f).on = s.on := rfl
@[simp] theorem State.updPort_isReady (s : State) (p : Nat) (f : Port → Port) : (s.updPort p f).isReady = s.isReady := rfl

/-! ## updFn -/

@[simp] theorem State.updFn_tick (s : State) (k : Nat) (f : Fn → Fn) : (s.updFn k f).tick = s.tick := rfl
@[simp] theorem State.updFn_ports (s : State) (k : Nat) (f : Fn → Fn) : (s.updFn k f).ports = s.ports := rfl
@[simp] theorem State.updFn_tly (s : State) (k : Nat) (f : Fn → Fn) : (s.updFn k f).tly = s.tly := rfl
@[simp] theorem State.updFn_deck (s : State) (k : Nat) (f : Fn → Fn) : (s.updFn k f).deck = s.deck := rfl
@[simp] theorem State.updFn_ch (s : State) (k : Nat) (f : Fn → Fn) : (s.updFn k f).ch = s.ch := rfl
@[simp] theorem State.updFn_eng (s : State) (k : Nat) (f : Fn → Fn) : (s.updFn k f).eng = s.eng := rfl
@[simp] theorem State.updFn_mem (s : State) (k : Nat) (f : Fn → Fn) : (s.updFn k f).mem = s.mem := rfl
@[simp] theorem State.updFn_bytes (s : State) (k : Nat) (f : Fn → Fn) : (s.updFn k f).bytes = s.bytes := rfl
@[simp] theorem State.updFn_poison (s : State) (k : Nat) (f : Fn → Fn) : (s.updFn k f).poison = s.poison := rfl
@[simp] theorem State.updFn_ecc (s : State) (k : Nat) (f : Fn → Fn) : (s.updFn k f).ecc = s.ecc := rfl
@[simp] theorem State.updFn_lnd (s : State) (k : Nat) (f : Fn → Fn) : (s.updFn k f).lnd = s.lnd := rfl
@[simp] theorem State.updFn_coh (s : State) (k : Nat) (f : Fn → Fn) : (s.updFn k f).coh = s.coh := rfl
@[simp] theorem State.updFn_cph (s : State) (k : Nat) (f : Fn → Fn) : (s.updFn k f).cph = s.cph := rfl
@[simp] theorem State.updFn_gal (s : State) (k : Nat) (f : Fn → Fn) : (s.updFn k f).gal = s.gal := rfl
@[simp] theorem State.updFn_tru (s : State) (k : Nat) (f : Fn → Fn) : (s.updFn k f).tru = s.tru := rfl
@[simp] theorem State.updFn_flt (s : State) (k : Nat) (f : Fn → Fn) : (s.updFn k f).flt = s.flt := rfl
@[simp] theorem State.updFn_mp (s : State) (k : Nat) (f : Fn → Fn) : (s.updFn k f).mp = s.mp := rfl
@[simp] theorem State.updFn_pwr (s : State) (k : Nat) (f : Fn → Fn) : (s.updFn k f).pwr = s.pwr := rfl
@[simp] theorem State.updFn_start (s : State) (k : Nat) (f : Fn → Fn) : (s.updFn k f).start = s.start := rfl
@[simp] theorem State.updFn_fresh (s : State) (k : Nat) (f : Fn → Fn) : (s.updFn k f).fresh = s.fresh := rfl
@[simp] theorem State.updFn_out (s : State) (k : Nat) (f : Fn → Fn) : (s.updFn k f).out = s.out := rfl
@[simp] theorem State.updFn_pending (s : State) (k : Nat) (f : Fn → Fn) : (s.updFn k f).pending = s.pending := rfl
@[simp] theorem State.updFn_port (s : State) (k : Nat) (f : Fn → Fn) (p' : Nat) : (s.updFn k f).port p' = s.port p' := rfl
@[simp] theorem State.updFn_fn (s : State) (k : Nat) (f : Fn → Fn) : (s.updFn k f).fn k = f (s.fn k) := Sp.look_upd_self _ _ _ _
theorem State.updFn_fn_ne (s : State) (k : Nat) (f : Fn → Fn) (k' : Nat) (hn : k' ≠ k) : (s.updFn k f).fn k' = s.fn k' := Sp.look_upd_ne _ _ _ _ _ hn
@[simp] theorem State.updFn_queue (s : State) (k : Nat) (f : Fn → Fn) (k' q' : Nat) : (s.updFn k f).queue k' q' = s.queue k' q' := rfl
@[simp] theorem State.updFn_win (s : State) (k : Nat) (f : Fn → Fn) (m' w' : Nat) : (s.updFn k f).win m' w' = s.win m' w' := rfl
@[simp] theorem State.updFn_entry (s : State) (k : Nat) (f : Fn → Fn) (i' : Nat) : (s.updFn k f).entry i' = s.entry i' := rfl
@[simp] theorem State.updFn_link (s : State) (k : Nat) (f : Fn → Fn) (l' : Nat) : (s.updFn k f).link l' = s.link l' := rfl
@[simp] theorem State.updFn_group (s : State) (k : Nat) (f : Fn → Fn) (g' : Nat) : (s.updFn k f).group g' = s.group g' := rfl
@[simp] theorem State.updFn_flow (s : State) (k : Nat) (f : Fn → Fn) (i' g' : Nat) : (s.updFn k f).flow i' g' = s.flow i' g' := rfl
@[simp] theorem State.updFn_le (s : State) (k : Nat) (f : Fn → Fn) (e' : Nat) : (s.updFn k f).le e' = s.le e' := rfl
@[simp] theorem State.updFn_pe (s : State) (k : Nat) (f : Fn → Fn) (n' : Nat) : (s.updFn k f).pe n' = s.pe n' := rfl
@[simp] theorem State.updFn_engCl (s : State) (k : Nat) (f : Fn → Fn) (c' : Nat) : (s.updFn k f).engCl c' = s.engCl c' := rfl
@[simp] theorem State.updFn_memCl (s : State) (k : Nat) (f : Fn → Fn) (c' : Nat) : (s.updFn k f).memCl c' = s.memCl c' := rfl
@[simp] theorem State.updFn_home (s : State) (k : Nat) (f : Fn → Fn) (h' : Nat) : (s.updFn k f).home h' = s.home h' := rfl
@[simp] theorem State.updFn_slot (s : State) (k : Nat) (f : Fn → Fn) (i' : Nat) : (s.updFn k f).slot i' = s.slot i' := rfl
@[simp] theorem State.updFn_grp (s : State) (k : Nat) (f : Fn → Fn) (g' : Nat) : (s.updFn k f).grp g' = s.grp g' := rfl
@[simp] theorem State.updFn_coder (s : State) (k : Nat) (f : Fn → Fn) (c' : Nat) : (s.updFn k f).coder c' = s.coder c' := rfl
@[simp] theorem State.updFn_live (s : State) (k : Nat) (f : Fn → Fn) : (s.updFn k f).live = s.live := rfl
@[simp] theorem State.updFn_on (s : State) (k : Nat) (f : Fn → Fn) : (s.updFn k f).on = s.on := rfl
@[simp] theorem State.updFn_isReady (s : State) (k : Nat) (f : Fn → Fn) : (s.updFn k f).isReady = s.isReady := rfl

/-! ## updQueue -/

@[simp] theorem State.updQueue_tick (s : State) (k q : Nat) (f : Queue → Queue) : (s.updQueue k q f).tick = s.tick := rfl
@[simp] theorem State.updQueue_ports (s : State) (k q : Nat) (f : Queue → Queue) : (s.updQueue k q f).ports = s.ports := rfl
@[simp] theorem State.updQueue_tly (s : State) (k q : Nat) (f : Queue → Queue) : (s.updQueue k q f).tly = s.tly := rfl
@[simp] theorem State.updQueue_deck (s : State) (k q : Nat) (f : Queue → Queue) : (s.updQueue k q f).deck = s.deck := rfl
@[simp] theorem State.updQueue_ch (s : State) (k q : Nat) (f : Queue → Queue) : (s.updQueue k q f).ch = s.ch := rfl
@[simp] theorem State.updQueue_eng (s : State) (k q : Nat) (f : Queue → Queue) : (s.updQueue k q f).eng = s.eng := rfl
@[simp] theorem State.updQueue_mem (s : State) (k q : Nat) (f : Queue → Queue) : (s.updQueue k q f).mem = s.mem := rfl
@[simp] theorem State.updQueue_bytes (s : State) (k q : Nat) (f : Queue → Queue) : (s.updQueue k q f).bytes = s.bytes := rfl
@[simp] theorem State.updQueue_poison (s : State) (k q : Nat) (f : Queue → Queue) : (s.updQueue k q f).poison = s.poison := rfl
@[simp] theorem State.updQueue_ecc (s : State) (k q : Nat) (f : Queue → Queue) : (s.updQueue k q f).ecc = s.ecc := rfl
@[simp] theorem State.updQueue_lnd (s : State) (k q : Nat) (f : Queue → Queue) : (s.updQueue k q f).lnd = s.lnd := rfl
@[simp] theorem State.updQueue_coh (s : State) (k q : Nat) (f : Queue → Queue) : (s.updQueue k q f).coh = s.coh := rfl
@[simp] theorem State.updQueue_cph (s : State) (k q : Nat) (f : Queue → Queue) : (s.updQueue k q f).cph = s.cph := rfl
@[simp] theorem State.updQueue_gal (s : State) (k q : Nat) (f : Queue → Queue) : (s.updQueue k q f).gal = s.gal := rfl
@[simp] theorem State.updQueue_tru (s : State) (k q : Nat) (f : Queue → Queue) : (s.updQueue k q f).tru = s.tru := rfl
@[simp] theorem State.updQueue_flt (s : State) (k q : Nat) (f : Queue → Queue) : (s.updQueue k q f).flt = s.flt := rfl
@[simp] theorem State.updQueue_mp (s : State) (k q : Nat) (f : Queue → Queue) : (s.updQueue k q f).mp = s.mp := rfl
@[simp] theorem State.updQueue_pwr (s : State) (k q : Nat) (f : Queue → Queue) : (s.updQueue k q f).pwr = s.pwr := rfl
@[simp] theorem State.updQueue_start (s : State) (k q : Nat) (f : Queue → Queue) : (s.updQueue k q f).start = s.start := rfl
@[simp] theorem State.updQueue_fresh (s : State) (k q : Nat) (f : Queue → Queue) : (s.updQueue k q f).fresh = s.fresh := rfl
@[simp] theorem State.updQueue_out (s : State) (k q : Nat) (f : Queue → Queue) : (s.updQueue k q f).out = s.out := rfl
@[simp] theorem State.updQueue_pending (s : State) (k q : Nat) (f : Queue → Queue) : (s.updQueue k q f).pending = s.pending := rfl
@[simp] theorem State.updQueue_port (s : State) (k q : Nat) (f : Queue → Queue) (p' : Nat) : (s.updQueue k q f).port p' = s.port p' := rfl
@[simp] theorem State.updQueue_fn (s : State) (k q : Nat) (f : Queue → Queue) (k' : Nat) : (s.updQueue k q f).fn k' = s.fn k' := rfl
@[simp] theorem State.updQueue_queue (s : State) (k q : Nat) (f : Queue → Queue) : (s.updQueue k q f).queue k q = f (s.queue k q) := Sp.look_upd_self _ _ _ _
theorem State.updQueue_queue_ne (s : State) (k q : Nat) (f : Queue → Queue) (k' q' : Nat) (h : 9 * k' + q' ≠ 9 * k + q) : (s.updQueue k q f).queue k' q' = s.queue k' q' := Sp.look_put_other _ _ _ _ _ _ h
@[simp] theorem State.updQueue_win (s : State) (k q : Nat) (f : Queue → Queue) (m' w' : Nat) : (s.updQueue k q f).win m' w' = s.win m' w' := rfl
@[simp] theorem State.updQueue_entry (s : State) (k q : Nat) (f : Queue → Queue) (i' : Nat) : (s.updQueue k q f).entry i' = s.entry i' := rfl
@[simp] theorem State.updQueue_link (s : State) (k q : Nat) (f : Queue → Queue) (l' : Nat) : (s.updQueue k q f).link l' = s.link l' := rfl
@[simp] theorem State.updQueue_group (s : State) (k q : Nat) (f : Queue → Queue) (g' : Nat) : (s.updQueue k q f).group g' = s.group g' := rfl
@[simp] theorem State.updQueue_flow (s : State) (k q : Nat) (f : Queue → Queue) (i' g' : Nat) : (s.updQueue k q f).flow i' g' = s.flow i' g' := rfl
@[simp] theorem State.updQueue_le (s : State) (k q : Nat) (f : Queue → Queue) (e' : Nat) : (s.updQueue k q f).le e' = s.le e' := rfl
@[simp] theorem State.updQueue_pe (s : State) (k q : Nat) (f : Queue → Queue) (n' : Nat) : (s.updQueue k q f).pe n' = s.pe n' := rfl
@[simp] theorem State.updQueue_engCl (s : State) (k q : Nat) (f : Queue → Queue) (c' : Nat) : (s.updQueue k q f).engCl c' = s.engCl c' := rfl
@[simp] theorem State.updQueue_memCl (s : State) (k q : Nat) (f : Queue → Queue) (c' : Nat) : (s.updQueue k q f).memCl c' = s.memCl c' := rfl
@[simp] theorem State.updQueue_home (s : State) (k q : Nat) (f : Queue → Queue) (h' : Nat) : (s.updQueue k q f).home h' = s.home h' := rfl
@[simp] theorem State.updQueue_slot (s : State) (k q : Nat) (f : Queue → Queue) (i' : Nat) : (s.updQueue k q f).slot i' = s.slot i' := rfl
@[simp] theorem State.updQueue_grp (s : State) (k q : Nat) (f : Queue → Queue) (g' : Nat) : (s.updQueue k q f).grp g' = s.grp g' := rfl
@[simp] theorem State.updQueue_coder (s : State) (k q : Nat) (f : Queue → Queue) (c' : Nat) : (s.updQueue k q f).coder c' = s.coder c' := rfl
@[simp] theorem State.updQueue_live (s : State) (k q : Nat) (f : Queue → Queue) : (s.updQueue k q f).live = s.live := rfl
@[simp] theorem State.updQueue_on (s : State) (k q : Nat) (f : Queue → Queue) : (s.updQueue k q f).on = s.on := rfl
@[simp] theorem State.updQueue_isReady (s : State) (k q : Nat) (f : Queue → Queue) : (s.updQueue k q f).isReady = s.isReady := rfl

/-! ## updWin -/

@[simp] theorem State.updWin_tick (s : State) (m w : Nat) (f : HWin → HWin) : (s.updWin m w f).tick = s.tick := rfl
@[simp] theorem State.updWin_ports (s : State) (m w : Nat) (f : HWin → HWin) : (s.updWin m w f).ports = s.ports := rfl
@[simp] theorem State.updWin_tly (s : State) (m w : Nat) (f : HWin → HWin) : (s.updWin m w f).tly = s.tly := rfl
@[simp] theorem State.updWin_deck (s : State) (m w : Nat) (f : HWin → HWin) : (s.updWin m w f).deck = s.deck := rfl
@[simp] theorem State.updWin_ch (s : State) (m w : Nat) (f : HWin → HWin) : (s.updWin m w f).ch = s.ch := rfl
@[simp] theorem State.updWin_eng (s : State) (m w : Nat) (f : HWin → HWin) : (s.updWin m w f).eng = s.eng := rfl
@[simp] theorem State.updWin_mem (s : State) (m w : Nat) (f : HWin → HWin) : (s.updWin m w f).mem = s.mem := rfl
@[simp] theorem State.updWin_bytes (s : State) (m w : Nat) (f : HWin → HWin) : (s.updWin m w f).bytes = s.bytes := rfl
@[simp] theorem State.updWin_poison (s : State) (m w : Nat) (f : HWin → HWin) : (s.updWin m w f).poison = s.poison := rfl
@[simp] theorem State.updWin_ecc (s : State) (m w : Nat) (f : HWin → HWin) : (s.updWin m w f).ecc = s.ecc := rfl
@[simp] theorem State.updWin_lnd (s : State) (m w : Nat) (f : HWin → HWin) : (s.updWin m w f).lnd = s.lnd := rfl
@[simp] theorem State.updWin_coh (s : State) (m w : Nat) (f : HWin → HWin) : (s.updWin m w f).coh = s.coh := rfl
@[simp] theorem State.updWin_cph (s : State) (m w : Nat) (f : HWin → HWin) : (s.updWin m w f).cph = s.cph := rfl
@[simp] theorem State.updWin_gal (s : State) (m w : Nat) (f : HWin → HWin) : (s.updWin m w f).gal = s.gal := rfl
@[simp] theorem State.updWin_tru (s : State) (m w : Nat) (f : HWin → HWin) : (s.updWin m w f).tru = s.tru := rfl
@[simp] theorem State.updWin_flt (s : State) (m w : Nat) (f : HWin → HWin) : (s.updWin m w f).flt = s.flt := rfl
@[simp] theorem State.updWin_mp (s : State) (m w : Nat) (f : HWin → HWin) : (s.updWin m w f).mp = s.mp := rfl
@[simp] theorem State.updWin_pwr (s : State) (m w : Nat) (f : HWin → HWin) : (s.updWin m w f).pwr = s.pwr := rfl
@[simp] theorem State.updWin_start (s : State) (m w : Nat) (f : HWin → HWin) : (s.updWin m w f).start = s.start := rfl
@[simp] theorem State.updWin_fresh (s : State) (m w : Nat) (f : HWin → HWin) : (s.updWin m w f).fresh = s.fresh := rfl
@[simp] theorem State.updWin_out (s : State) (m w : Nat) (f : HWin → HWin) : (s.updWin m w f).out = s.out := rfl
@[simp] theorem State.updWin_pending (s : State) (m w : Nat) (f : HWin → HWin) : (s.updWin m w f).pending = s.pending := rfl
@[simp] theorem State.updWin_port (s : State) (m w : Nat) (f : HWin → HWin) (p' : Nat) : (s.updWin m w f).port p' = s.port p' := rfl
@[simp] theorem State.updWin_fn (s : State) (m w : Nat) (f : HWin → HWin) (k' : Nat) : (s.updWin m w f).fn k' = s.fn k' := rfl
@[simp] theorem State.updWin_queue (s : State) (m w : Nat) (f : HWin → HWin) (k' q' : Nat) : (s.updWin m w f).queue k' q' = s.queue k' q' := rfl
@[simp] theorem State.updWin_win (s : State) (m w : Nat) (f : HWin → HWin) : (s.updWin m w f).win m w = f (s.win m w) := Sp.look_upd_self _ _ _ _
theorem State.updWin_win_ne (s : State) (m w : Nat) (f : HWin → HWin) (m' w' : Nat) (h : 16 * m' + w' ≠ 16 * m + w) : (s.updWin m w f).win m' w' = s.win m' w' := Sp.look_upd_ne _ _ _ _ _ h
@[simp] theorem State.updWin_entry (s : State) (m w : Nat) (f : HWin → HWin) (i' : Nat) : (s.updWin m w f).entry i' = s.entry i' := rfl
@[simp] theorem State.updWin_link (s : State) (m w : Nat) (f : HWin → HWin) (l' : Nat) : (s.updWin m w f).link l' = s.link l' := rfl
@[simp] theorem State.updWin_group (s : State) (m w : Nat) (f : HWin → HWin) (g' : Nat) : (s.updWin m w f).group g' = s.group g' := rfl
@[simp] theorem State.updWin_flow (s : State) (m w : Nat) (f : HWin → HWin) (i' g' : Nat) : (s.updWin m w f).flow i' g' = s.flow i' g' := rfl
@[simp] theorem State.updWin_le (s : State) (m w : Nat) (f : HWin → HWin) (e' : Nat) : (s.updWin m w f).le e' = s.le e' := rfl
@[simp] theorem State.updWin_pe (s : State) (m w : Nat) (f : HWin → HWin) (n' : Nat) : (s.updWin m w f).pe n' = s.pe n' := rfl
@[simp] theorem State.updWin_engCl (s : State) (m w : Nat) (f : HWin → HWin) (c' : Nat) : (s.updWin m w f).engCl c' = s.engCl c' := rfl
@[simp] theorem State.updWin_memCl (s : State) (m w : Nat) (f : HWin → HWin) (c' : Nat) : (s.updWin m w f).memCl c' = s.memCl c' := rfl
@[simp] theorem State.updWin_home (s : State) (m w : Nat) (f : HWin → HWin) (h' : Nat) : (s.updWin m w f).home h' = s.home h' := rfl
@[simp] theorem State.updWin_slot (s : State) (m w : Nat) (f : HWin → HWin) (i' : Nat) : (s.updWin m w f).slot i' = s.slot i' := rfl
@[simp] theorem State.updWin_grp (s : State) (m w : Nat) (f : HWin → HWin) (g' : Nat) : (s.updWin m w f).grp g' = s.grp g' := rfl
@[simp] theorem State.updWin_coder (s : State) (m w : Nat) (f : HWin → HWin) (c' : Nat) : (s.updWin m w f).coder c' = s.coder c' := rfl
@[simp] theorem State.updWin_live (s : State) (m w : Nat) (f : HWin → HWin) : (s.updWin m w f).live = s.live := rfl
@[simp] theorem State.updWin_on (s : State) (m w : Nat) (f : HWin → HWin) : (s.updWin m w f).on = s.on := rfl
@[simp] theorem State.updWin_isReady (s : State) (m w : Nat) (f : HWin → HWin) : (s.updWin m w f).isReady = s.isReady := rfl

/-! ## setEntry -/

@[simp] theorem State.setEntry_tick (s : State) (i : Nat) (v : Entry) : (s.setEntry i v).tick = s.tick := rfl
@[simp] theorem State.setEntry_ports (s : State) (i : Nat) (v : Entry) : (s.setEntry i v).ports = s.ports := rfl
@[simp] theorem State.setEntry_qm (s : State) (i : Nat) (v : Entry) : (s.setEntry i v).qm = s.qm := rfl
@[simp] theorem State.setEntry_deck (s : State) (i : Nat) (v : Entry) : (s.setEntry i v).deck = s.deck := rfl
@[simp] theorem State.setEntry_ch (s : State) (i : Nat) (v : Entry) : (s.setEntry i v).ch = s.ch := rfl
@[simp] theorem State.setEntry_eng (s : State) (i : Nat) (v : Entry) : (s.setEntry i v).eng = s.eng := rfl
@[simp] theorem State.setEntry_mem (s : State) (i : Nat) (v : Entry) : (s.setEntry i v).mem = s.mem := rfl
@[simp] theorem State.setEntry_bytes (s : State) (i : Nat) (v : Entry) : (s.setEntry i v).bytes = s.bytes := rfl
@[simp] theorem State.setEntry_poison (s : State) (i : Nat) (v : Entry) : (s.setEntry i v).poison = s.poison := rfl
@[simp] theorem State.setEntry_ecc (s : State) (i : Nat) (v : Entry) : (s.setEntry i v).ecc = s.ecc := rfl
@[simp] theorem State.setEntry_lnd (s : State) (i : Nat) (v : Entry) : (s.setEntry i v).lnd = s.lnd := rfl
@[simp] theorem State.setEntry_coh (s : State) (i : Nat) (v : Entry) : (s.setEntry i v).coh = s.coh := rfl
@[simp] theorem State.setEntry_cph (s : State) (i : Nat) (v : Entry) : (s.setEntry i v).cph = s.cph := rfl
@[simp] theorem State.setEntry_gal (s : State) (i : Nat) (v : Entry) : (s.setEntry i v).gal = s.gal := rfl
@[simp] theorem State.setEntry_tru (s : State) (i : Nat) (v : Entry) : (s.setEntry i v).tru = s.tru := rfl
@[simp] theorem State.setEntry_flt (s : State) (i : Nat) (v : Entry) : (s.setEntry i v).flt = s.flt := rfl
@[simp] theorem State.setEntry_mp (s : State) (i : Nat) (v : Entry) : (s.setEntry i v).mp = s.mp := rfl
@[simp] theorem State.setEntry_pwr (s : State) (i : Nat) (v : Entry) : (s.setEntry i v).pwr = s.pwr := rfl
@[simp] theorem State.setEntry_start (s : State) (i : Nat) (v : Entry) : (s.setEntry i v).start = s.start := rfl
@[simp] theorem State.setEntry_fresh (s : State) (i : Nat) (v : Entry) : (s.setEntry i v).fresh = s.fresh := rfl
@[simp] theorem State.setEntry_out (s : State) (i : Nat) (v : Entry) : (s.setEntry i v).out = s.out := rfl
@[simp] theorem State.setEntry_pending (s : State) (i : Nat) (v : Entry) : (s.setEntry i v).pending = s.pending := rfl
@[simp] theorem State.setEntry_port (s : State) (i : Nat) (v : Entry) (p' : Nat) : (s.setEntry i v).port p' = s.port p' := rfl
@[simp] theorem State.setEntry_fn (s : State) (i : Nat) (v : Entry) (k' : Nat) : (s.setEntry i v).fn k' = s.fn k' := rfl
@[simp] theorem State.setEntry_queue (s : State) (i : Nat) (v : Entry) (k' q' : Nat) : (s.setEntry i v).queue k' q' = s.queue k' q' := rfl
@[simp] theorem State.setEntry_win (s : State) (i : Nat) (v : Entry) (m' w' : Nat) : (s.setEntry i v).win m' w' = s.win m' w' := rfl
@[simp] theorem State.setEntry_entry (s : State) (i : Nat) (v : Entry) : (s.setEntry i v).entry i = v := Sp.look_put_self _ _ _ _
theorem State.setEntry_entry_ne (s : State) (i : Nat) (v : Entry) (i' : Nat) (hn : i' ≠ i) : (s.setEntry i v).entry i' = s.entry i' := Sp.look_put_ne _ _ _ _ _ hn
@[simp] theorem State.setEntry_link (s : State) (i : Nat) (v : Entry) (l' : Nat) : (s.setEntry i v).link l' = s.link l' := rfl
@[simp] theorem State.setEntry_group (s : State) (i : Nat) (v : Entry) (g' : Nat) : (s.setEntry i v).group g' = s.group g' := rfl
@[simp] theorem State.setEntry_flow (s : State) (i : Nat) (v : Entry) (i' g' : Nat) : (s.setEntry i v).flow i' g' = s.flow i' g' := rfl
@[simp] theorem State.setEntry_le (s : State) (i : Nat) (v : Entry) (e' : Nat) : (s.setEntry i v).le e' = s.le e' := rfl
@[simp] theorem State.setEntry_pe (s : State) (i : Nat) (v : Entry) (n' : Nat) : (s.setEntry i v).pe n' = s.pe n' := rfl
@[simp] theorem State.setEntry_engCl (s : State) (i : Nat) (v : Entry) (c' : Nat) : (s.setEntry i v).engCl c' = s.engCl c' := rfl
@[simp] theorem State.setEntry_memCl (s : State) (i : Nat) (v : Entry) (c' : Nat) : (s.setEntry i v).memCl c' = s.memCl c' := rfl
@[simp] theorem State.setEntry_home (s : State) (i : Nat) (v : Entry) (h' : Nat) : (s.setEntry i v).home h' = s.home h' := rfl
@[simp] theorem State.setEntry_slot (s : State) (i : Nat) (v : Entry) (i' : Nat) : (s.setEntry i v).slot i' = s.slot i' := rfl
@[simp] theorem State.setEntry_grp (s : State) (i : Nat) (v : Entry) (g' : Nat) : (s.setEntry i v).grp g' = s.grp g' := rfl
@[simp] theorem State.setEntry_coder (s : State) (i : Nat) (v : Entry) (c' : Nat) : (s.setEntry i v).coder c' = s.coder c' := rfl
@[simp] theorem State.setEntry_live (s : State) (i : Nat) (v : Entry) : (s.setEntry i v).live = s.live := rfl
@[simp] theorem State.setEntry_on (s : State) (i : Nat) (v : Entry) : (s.setEntry i v).on = s.on := rfl
@[simp] theorem State.setEntry_isReady (s : State) (i : Nat) (v : Entry) : (s.setEntry i v).isReady = s.isReady := rfl

/-! ## updEntry -/

@[simp] theorem State.updEntry_tick (s : State) (i : Nat) (f : Entry → Entry) : (s.updEntry i f).tick = s.tick := rfl
@[simp] theorem State.updEntry_ports (s : State) (i : Nat) (f : Entry → Entry) : (s.updEntry i f).ports = s.ports := rfl
@[simp] theorem State.updEntry_qm (s : State) (i : Nat) (f : Entry → Entry) : (s.updEntry i f).qm = s.qm := rfl
@[simp] theorem State.updEntry_deck (s : State) (i : Nat) (f : Entry → Entry) : (s.updEntry i f).deck = s.deck := rfl
@[simp] theorem State.updEntry_ch (s : State) (i : Nat) (f : Entry → Entry) : (s.updEntry i f).ch = s.ch := rfl
@[simp] theorem State.updEntry_eng (s : State) (i : Nat) (f : Entry → Entry) : (s.updEntry i f).eng = s.eng := rfl
@[simp] theorem State.updEntry_mem (s : State) (i : Nat) (f : Entry → Entry) : (s.updEntry i f).mem = s.mem := rfl
@[simp] theorem State.updEntry_bytes (s : State) (i : Nat) (f : Entry → Entry) : (s.updEntry i f).bytes = s.bytes := rfl
@[simp] theorem State.updEntry_poison (s : State) (i : Nat) (f : Entry → Entry) : (s.updEntry i f).poison = s.poison := rfl
@[simp] theorem State.updEntry_ecc (s : State) (i : Nat) (f : Entry → Entry) : (s.updEntry i f).ecc = s.ecc := rfl
@[simp] theorem State.updEntry_lnd (s : State) (i : Nat) (f : Entry → Entry) : (s.updEntry i f).lnd = s.lnd := rfl
@[simp] theorem State.updEntry_coh (s : State) (i : Nat) (f : Entry → Entry) : (s.updEntry i f).coh = s.coh := rfl
@[simp] theorem State.updEntry_cph (s : State) (i : Nat) (f : Entry → Entry) : (s.updEntry i f).cph = s.cph := rfl
@[simp] theorem State.updEntry_gal (s : State) (i : Nat) (f : Entry → Entry) : (s.updEntry i f).gal = s.gal := rfl
@[simp] theorem State.updEntry_tru (s : State) (i : Nat) (f : Entry → Entry) : (s.updEntry i f).tru = s.tru := rfl
@[simp] theorem State.updEntry_flt (s : State) (i : Nat) (f : Entry → Entry) : (s.updEntry i f).flt = s.flt := rfl
@[simp] theorem State.updEntry_mp (s : State) (i : Nat) (f : Entry → Entry) : (s.updEntry i f).mp = s.mp := rfl
@[simp] theorem State.updEntry_pwr (s : State) (i : Nat) (f : Entry → Entry) : (s.updEntry i f).pwr = s.pwr := rfl
@[simp] theorem State.updEntry_start (s : State) (i : Nat) (f : Entry → Entry) : (s.updEntry i f).start = s.start := rfl
@[simp] theorem State.updEntry_fresh (s : State) (i : Nat) (f : Entry → Entry) : (s.updEntry i f).fresh = s.fresh := rfl
@[simp] theorem State.updEntry_out (s : State) (i : Nat) (f : Entry → Entry) : (s.updEntry i f).out = s.out := rfl
@[simp] theorem State.updEntry_pending (s : State) (i : Nat) (f : Entry → Entry) : (s.updEntry i f).pending = s.pending := rfl
@[simp] theorem State.updEntry_port (s : State) (i : Nat) (f : Entry → Entry) (p' : Nat) : (s.updEntry i f).port p' = s.port p' := rfl
@[simp] theorem State.updEntry_fn (s : State) (i : Nat) (f : Entry → Entry) (k' : Nat) : (s.updEntry i f).fn k' = s.fn k' := rfl
@[simp] theorem State.updEntry_queue (s : State) (i : Nat) (f : Entry → Entry) (k' q' : Nat) : (s.updEntry i f).queue k' q' = s.queue k' q' := rfl
@[simp] theorem State.updEntry_win (s : State) (i : Nat) (f : Entry → Entry) (m' w' : Nat) : (s.updEntry i f).win m' w' = s.win m' w' := rfl
@[simp] theorem State.updEntry_entry (s : State) (i : Nat) (f : Entry → Entry) : (s.updEntry i f).entry i = f (s.entry i) := Sp.look_put_self _ _ _ _
theorem State.updEntry_entry_ne (s : State) (i : Nat) (f : Entry → Entry) (i' : Nat) (hn : i' ≠ i) : (s.updEntry i f).entry i' = s.entry i' := Sp.look_put_ne _ _ _ _ _ hn
@[simp] theorem State.updEntry_link (s : State) (i : Nat) (f : Entry → Entry) (l' : Nat) : (s.updEntry i f).link l' = s.link l' := rfl
@[simp] theorem State.updEntry_group (s : State) (i : Nat) (f : Entry → Entry) (g' : Nat) : (s.updEntry i f).group g' = s.group g' := rfl
@[simp] theorem State.updEntry_flow (s : State) (i : Nat) (f : Entry → Entry) (i' g' : Nat) : (s.updEntry i f).flow i' g' = s.flow i' g' := rfl
@[simp] theorem State.updEntry_le (s : State) (i : Nat) (f : Entry → Entry) (e' : Nat) : (s.updEntry i f).le e' = s.le e' := rfl
@[simp] theorem State.updEntry_pe (s : State) (i : Nat) (f : Entry → Entry) (n' : Nat) : (s.updEntry i f).pe n' = s.pe n' := rfl
@[simp] theorem State.updEntry_engCl (s : State) (i : Nat) (f : Entry → Entry) (c' : Nat) : (s.updEntry i f).engCl c' = s.engCl c' := rfl
@[simp] theorem State.updEntry_memCl (s : State) (i : Nat) (f : Entry → Entry) (c' : Nat) : (s.updEntry i f).memCl c' = s.memCl c' := rfl
@[simp] theorem State.updEntry_home (s : State) (i : Nat) (f : Entry → Entry) (h' : Nat) : (s.updEntry i f).home h' = s.home h' := rfl
@[simp] theorem State.updEntry_slot (s : State) (i : Nat) (f : Entry → Entry) (i' : Nat) : (s.updEntry i f).slot i' = s.slot i' := rfl
@[simp] theorem State.updEntry_grp (s : State) (i : Nat) (f : Entry → Entry) (g' : Nat) : (s.updEntry i f).grp g' = s.grp g' := rfl
@[simp] theorem State.updEntry_coder (s : State) (i : Nat) (f : Entry → Entry) (c' : Nat) : (s.updEntry i f).coder c' = s.coder c' := rfl
@[simp] theorem State.updEntry_live (s : State) (i : Nat) (f : Entry → Entry) : (s.updEntry i f).live = s.live := rfl
@[simp] theorem State.updEntry_on (s : State) (i : Nat) (f : Entry → Entry) : (s.updEntry i f).on = s.on := rfl
@[simp] theorem State.updEntry_isReady (s : State) (i : Nat) (f : Entry → Entry) : (s.updEntry i f).isReady = s.isReady := rfl

/-! ## updLink -/

@[simp] theorem State.updLink_tick (s : State) (l : Nat) (f : Link → Link) : (s.updLink l f).tick = s.tick := rfl
@[simp] theorem State.updLink_ports (s : State) (l : Nat) (f : Link → Link) : (s.updLink l f).ports = s.ports := rfl
@[simp] theorem State.updLink_qm (s : State) (l : Nat) (f : Link → Link) : (s.updLink l f).qm = s.qm := rfl
@[simp] theorem State.updLink_tly (s : State) (l : Nat) (f : Link → Link) : (s.updLink l f).tly = s.tly := rfl
@[simp] theorem State.updLink_deck (s : State) (l : Nat) (f : Link → Link) : (s.updLink l f).deck = s.deck := rfl
@[simp] theorem State.updLink_eng (s : State) (l : Nat) (f : Link → Link) : (s.updLink l f).eng = s.eng := rfl
@[simp] theorem State.updLink_mem (s : State) (l : Nat) (f : Link → Link) : (s.updLink l f).mem = s.mem := rfl
@[simp] theorem State.updLink_bytes (s : State) (l : Nat) (f : Link → Link) : (s.updLink l f).bytes = s.bytes := rfl
@[simp] theorem State.updLink_poison (s : State) (l : Nat) (f : Link → Link) : (s.updLink l f).poison = s.poison := rfl
@[simp] theorem State.updLink_ecc (s : State) (l : Nat) (f : Link → Link) : (s.updLink l f).ecc = s.ecc := rfl
@[simp] theorem State.updLink_lnd (s : State) (l : Nat) (f : Link → Link) : (s.updLink l f).lnd = s.lnd := rfl
@[simp] theorem State.updLink_coh (s : State) (l : Nat) (f : Link → Link) : (s.updLink l f).coh = s.coh := rfl
@[simp] theorem State.updLink_cph (s : State) (l : Nat) (f : Link → Link) : (s.updLink l f).cph = s.cph := rfl
@[simp] theorem State.updLink_gal (s : State) (l : Nat) (f : Link → Link) : (s.updLink l f).gal = s.gal := rfl
@[simp] theorem State.updLink_tru (s : State) (l : Nat) (f : Link → Link) : (s.updLink l f).tru = s.tru := rfl
@[simp] theorem State.updLink_flt (s : State) (l : Nat) (f : Link → Link) : (s.updLink l f).flt = s.flt := rfl
@[simp] theorem State.updLink_mp (s : State) (l : Nat) (f : Link → Link) : (s.updLink l f).mp = s.mp := rfl
@[simp] theorem State.updLink_pwr (s : State) (l : Nat) (f : Link → Link) : (s.updLink l f).pwr = s.pwr := rfl
@[simp] theorem State.updLink_start (s : State) (l : Nat) (f : Link → Link) : (s.updLink l f).start = s.start := rfl
@[simp] theorem State.updLink_fresh (s : State) (l : Nat) (f : Link → Link) : (s.updLink l f).fresh = s.fresh := rfl
@[simp] theorem State.updLink_out (s : State) (l : Nat) (f : Link → Link) : (s.updLink l f).out = s.out := rfl
@[simp] theorem State.updLink_pending (s : State) (l : Nat) (f : Link → Link) : (s.updLink l f).pending = s.pending := rfl
@[simp] theorem State.updLink_port (s : State) (l : Nat) (f : Link → Link) (p' : Nat) : (s.updLink l f).port p' = s.port p' := rfl
@[simp] theorem State.updLink_fn (s : State) (l : Nat) (f : Link → Link) (k' : Nat) : (s.updLink l f).fn k' = s.fn k' := rfl
@[simp] theorem State.updLink_queue (s : State) (l : Nat) (f : Link → Link) (k' q' : Nat) : (s.updLink l f).queue k' q' = s.queue k' q' := rfl
@[simp] theorem State.updLink_win (s : State) (l : Nat) (f : Link → Link) (m' w' : Nat) : (s.updLink l f).win m' w' = s.win m' w' := rfl
@[simp] theorem State.updLink_entry (s : State) (l : Nat) (f : Link → Link) (i' : Nat) : (s.updLink l f).entry i' = s.entry i' := rfl
@[simp] theorem State.updLink_link (s : State) (l : Nat) (f : Link → Link) : (s.updLink l f).link l = f (s.link l) := Sp.look_upd_self _ _ _ _
theorem State.updLink_link_ne (s : State) (l : Nat) (f : Link → Link) (l' : Nat) (hn : l' ≠ l) : (s.updLink l f).link l' = s.link l' := Sp.look_upd_ne _ _ _ _ _ hn
@[simp] theorem State.updLink_group (s : State) (l : Nat) (f : Link → Link) (g' : Nat) : (s.updLink l f).group g' = s.group g' := rfl
@[simp] theorem State.updLink_flow (s : State) (l : Nat) (f : Link → Link) (i' g' : Nat) : (s.updLink l f).flow i' g' = s.flow i' g' := rfl
@[simp] theorem State.updLink_le (s : State) (l : Nat) (f : Link → Link) (e' : Nat) : (s.updLink l f).le e' = s.le e' := rfl
@[simp] theorem State.updLink_pe (s : State) (l : Nat) (f : Link → Link) (n' : Nat) : (s.updLink l f).pe n' = s.pe n' := rfl
@[simp] theorem State.updLink_engCl (s : State) (l : Nat) (f : Link → Link) (c' : Nat) : (s.updLink l f).engCl c' = s.engCl c' := rfl
@[simp] theorem State.updLink_memCl (s : State) (l : Nat) (f : Link → Link) (c' : Nat) : (s.updLink l f).memCl c' = s.memCl c' := rfl
@[simp] theorem State.updLink_home (s : State) (l : Nat) (f : Link → Link) (h' : Nat) : (s.updLink l f).home h' = s.home h' := rfl
@[simp] theorem State.updLink_slot (s : State) (l : Nat) (f : Link → Link) (i' : Nat) : (s.updLink l f).slot i' = s.slot i' := rfl
@[simp] theorem State.updLink_grp (s : State) (l : Nat) (f : Link → Link) (g' : Nat) : (s.updLink l f).grp g' = s.grp g' := rfl
@[simp] theorem State.updLink_coder (s : State) (l : Nat) (f : Link → Link) (c' : Nat) : (s.updLink l f).coder c' = s.coder c' := rfl
@[simp] theorem State.updLink_live (s : State) (l : Nat) (f : Link → Link) : (s.updLink l f).live = s.live := rfl
@[simp] theorem State.updLink_on (s : State) (l : Nat) (f : Link → Link) : (s.updLink l f).on = s.on := rfl
@[simp] theorem State.updLink_isReady (s : State) (l : Nat) (f : Link → Link) : (s.updLink l f).isReady = s.isReady := rfl

/-! ## setGroup -/

@[simp] theorem State.setGroup_tick (s : State) (g : Nat) (v : Group) : (s.setGroup g v).tick = s.tick := rfl
@[simp] theorem State.setGroup_ports (s : State) (g : Nat) (v : Group) : (s.setGroup g v).ports = s.ports := rfl
@[simp] theorem State.setGroup_qm (s : State) (g : Nat) (v : Group) : (s.setGroup g v).qm = s.qm := rfl
@[simp] theorem State.setGroup_tly (s : State) (g : Nat) (v : Group) : (s.setGroup g v).tly = s.tly := rfl
@[simp] theorem State.setGroup_deck (s : State) (g : Nat) (v : Group) : (s.setGroup g v).deck = s.deck := rfl
@[simp] theorem State.setGroup_eng (s : State) (g : Nat) (v : Group) : (s.setGroup g v).eng = s.eng := rfl
@[simp] theorem State.setGroup_mem (s : State) (g : Nat) (v : Group) : (s.setGroup g v).mem = s.mem := rfl
@[simp] theorem State.setGroup_bytes (s : State) (g : Nat) (v : Group) : (s.setGroup g v).bytes = s.bytes := rfl
@[simp] theorem State.setGroup_poison (s : State) (g : Nat) (v : Group) : (s.setGroup g v).poison = s.poison := rfl
@[simp] theorem State.setGroup_ecc (s : State) (g : Nat) (v : Group) : (s.setGroup g v).ecc = s.ecc := rfl
@[simp] theorem State.setGroup_lnd (s : State) (g : Nat) (v : Group) : (s.setGroup g v).lnd = s.lnd := rfl
@[simp] theorem State.setGroup_coh (s : State) (g : Nat) (v : Group) : (s.setGroup g v).coh = s.coh := rfl
@[simp] theorem State.setGroup_cph (s : State) (g : Nat) (v : Group) : (s.setGroup g v).cph = s.cph := rfl
@[simp] theorem State.setGroup_gal (s : State) (g : Nat) (v : Group) : (s.setGroup g v).gal = s.gal := rfl
@[simp] theorem State.setGroup_tru (s : State) (g : Nat) (v : Group) : (s.setGroup g v).tru = s.tru := rfl
@[simp] theorem State.setGroup_flt (s : State) (g : Nat) (v : Group) : (s.setGroup g v).flt = s.flt := rfl
@[simp] theorem State.setGroup_mp (s : State) (g : Nat) (v : Group) : (s.setGroup g v).mp = s.mp := rfl
@[simp] theorem State.setGroup_pwr (s : State) (g : Nat) (v : Group) : (s.setGroup g v).pwr = s.pwr := rfl
@[simp] theorem State.setGroup_start (s : State) (g : Nat) (v : Group) : (s.setGroup g v).start = s.start := rfl
@[simp] theorem State.setGroup_fresh (s : State) (g : Nat) (v : Group) : (s.setGroup g v).fresh = s.fresh := rfl
@[simp] theorem State.setGroup_out (s : State) (g : Nat) (v : Group) : (s.setGroup g v).out = s.out := rfl
@[simp] theorem State.setGroup_pending (s : State) (g : Nat) (v : Group) : (s.setGroup g v).pending = s.pending := rfl
@[simp] theorem State.setGroup_port (s : State) (g : Nat) (v : Group) (p' : Nat) : (s.setGroup g v).port p' = s.port p' := rfl
@[simp] theorem State.setGroup_fn (s : State) (g : Nat) (v : Group) (k' : Nat) : (s.setGroup g v).fn k' = s.fn k' := rfl
@[simp] theorem State.setGroup_queue (s : State) (g : Nat) (v : Group) (k' q' : Nat) : (s.setGroup g v).queue k' q' = s.queue k' q' := rfl
@[simp] theorem State.setGroup_win (s : State) (g : Nat) (v : Group) (m' w' : Nat) : (s.setGroup g v).win m' w' = s.win m' w' := rfl
@[simp] theorem State.setGroup_entry (s : State) (g : Nat) (v : Group) (i' : Nat) : (s.setGroup g v).entry i' = s.entry i' := rfl
@[simp] theorem State.setGroup_link (s : State) (g : Nat) (v : Group) (l' : Nat) : (s.setGroup g v).link l' = s.link l' := rfl
@[simp] theorem State.setGroup_group (s : State) (g : Nat) (v : Group) : (s.setGroup g v).group g = v := Sp.look_put_self _ _ _ _
theorem State.setGroup_group_ne (s : State) (g : Nat) (v : Group) (g' : Nat) (hn : g' ≠ g) : (s.setGroup g v).group g' = s.group g' := Sp.look_put_ne _ _ _ _ _ hn
@[simp] theorem State.setGroup_flow (s : State) (g : Nat) (v : Group) (i' g' : Nat) : (s.setGroup g v).flow i' g' = s.flow i' g' := rfl
@[simp] theorem State.setGroup_le (s : State) (g : Nat) (v : Group) (e' : Nat) : (s.setGroup g v).le e' = s.le e' := rfl
@[simp] theorem State.setGroup_pe (s : State) (g : Nat) (v : Group) (n' : Nat) : (s.setGroup g v).pe n' = s.pe n' := rfl
@[simp] theorem State.setGroup_engCl (s : State) (g : Nat) (v : Group) (c' : Nat) : (s.setGroup g v).engCl c' = s.engCl c' := rfl
@[simp] theorem State.setGroup_memCl (s : State) (g : Nat) (v : Group) (c' : Nat) : (s.setGroup g v).memCl c' = s.memCl c' := rfl
@[simp] theorem State.setGroup_home (s : State) (g : Nat) (v : Group) (h' : Nat) : (s.setGroup g v).home h' = s.home h' := rfl
@[simp] theorem State.setGroup_slot (s : State) (g : Nat) (v : Group) (i' : Nat) : (s.setGroup g v).slot i' = s.slot i' := rfl
@[simp] theorem State.setGroup_grp (s : State) (g : Nat) (v : Group) (g' : Nat) : (s.setGroup g v).grp g' = s.grp g' := rfl
@[simp] theorem State.setGroup_coder (s : State) (g : Nat) (v : Group) (c' : Nat) : (s.setGroup g v).coder c' = s.coder c' := rfl
@[simp] theorem State.setGroup_live (s : State) (g : Nat) (v : Group) : (s.setGroup g v).live = s.live := rfl
@[simp] theorem State.setGroup_on (s : State) (g : Nat) (v : Group) : (s.setGroup g v).on = s.on := rfl
@[simp] theorem State.setGroup_isReady (s : State) (g : Nat) (v : Group) : (s.setGroup g v).isReady = s.isReady := rfl

/-! ## updFlow -/

@[simp] theorem State.updFlow_tick (s : State) (i g : Nat) (f : Flow → Flow) : (s.updFlow i g f).tick = s.tick := rfl
@[simp] theorem State.updFlow_ports (s : State) (i g : Nat) (f : Flow → Flow) : (s.updFlow i g f).ports = s.ports := rfl
@[simp] theorem State.updFlow_qm (s : State) (i g : Nat) (f : Flow → Flow) : (s.updFlow i g f).qm = s.qm := rfl
@[simp] theorem State.updFlow_tly (s : State) (i g : Nat) (f : Flow → Flow) : (s.updFlow i g f).tly = s.tly := rfl
@[simp] theorem State.updFlow_deck (s : State) (i g : Nat) (f : Flow → Flow) : (s.updFlow i g f).deck = s.deck := rfl
@[simp] theorem State.updFlow_eng (s : State) (i g : Nat) (f : Flow → Flow) : (s.updFlow i g f).eng = s.eng := rfl
@[simp] theorem State.updFlow_mem (s : State) (i g : Nat) (f : Flow → Flow) : (s.updFlow i g f).mem = s.mem := rfl
@[simp] theorem State.updFlow_bytes (s : State) (i g : Nat) (f : Flow → Flow) : (s.updFlow i g f).bytes = s.bytes := rfl
@[simp] theorem State.updFlow_poison (s : State) (i g : Nat) (f : Flow → Flow) : (s.updFlow i g f).poison = s.poison := rfl
@[simp] theorem State.updFlow_ecc (s : State) (i g : Nat) (f : Flow → Flow) : (s.updFlow i g f).ecc = s.ecc := rfl
@[simp] theorem State.updFlow_lnd (s : State) (i g : Nat) (f : Flow → Flow) : (s.updFlow i g f).lnd = s.lnd := rfl
@[simp] theorem State.updFlow_coh (s : State) (i g : Nat) (f : Flow → Flow) : (s.updFlow i g f).coh = s.coh := rfl
@[simp] theorem State.updFlow_cph (s : State) (i g : Nat) (f : Flow → Flow) : (s.updFlow i g f).cph = s.cph := rfl
@[simp] theorem State.updFlow_gal (s : State) (i g : Nat) (f : Flow → Flow) : (s.updFlow i g f).gal = s.gal := rfl
@[simp] theorem State.updFlow_tru (s : State) (i g : Nat) (f : Flow → Flow) : (s.updFlow i g f).tru = s.tru := rfl
@[simp] theorem State.updFlow_flt (s : State) (i g : Nat) (f : Flow → Flow) : (s.updFlow i g f).flt = s.flt := rfl
@[simp] theorem State.updFlow_mp (s : State) (i g : Nat) (f : Flow → Flow) : (s.updFlow i g f).mp = s.mp := rfl
@[simp] theorem State.updFlow_pwr (s : State) (i g : Nat) (f : Flow → Flow) : (s.updFlow i g f).pwr = s.pwr := rfl
@[simp] theorem State.updFlow_start (s : State) (i g : Nat) (f : Flow → Flow) : (s.updFlow i g f).start = s.start := rfl
@[simp] theorem State.updFlow_fresh (s : State) (i g : Nat) (f : Flow → Flow) : (s.updFlow i g f).fresh = s.fresh := rfl
@[simp] theorem State.updFlow_out (s : State) (i g : Nat) (f : Flow → Flow) : (s.updFlow i g f).out = s.out := rfl
@[simp] theorem State.updFlow_pending (s : State) (i g : Nat) (f : Flow → Flow) : (s.updFlow i g f).pending = s.pending := rfl
@[simp] theorem State.updFlow_port (s : State) (i g : Nat) (f : Flow → Flow) (p' : Nat) : (s.updFlow i g f).port p' = s.port p' := rfl
@[simp] theorem State.updFlow_fn (s : State) (i g : Nat) (f : Flow → Flow) (k' : Nat) : (s.updFlow i g f).fn k' = s.fn k' := rfl
@[simp] theorem State.updFlow_queue (s : State) (i g : Nat) (f : Flow → Flow) (k' q' : Nat) : (s.updFlow i g f).queue k' q' = s.queue k' q' := rfl
@[simp] theorem State.updFlow_win (s : State) (i g : Nat) (f : Flow → Flow) (m' w' : Nat) : (s.updFlow i g f).win m' w' = s.win m' w' := rfl
@[simp] theorem State.updFlow_entry (s : State) (i g : Nat) (f : Flow → Flow) (i' : Nat) : (s.updFlow i g f).entry i' = s.entry i' := rfl
@[simp] theorem State.updFlow_link (s : State) (i g : Nat) (f : Flow → Flow) (l' : Nat) : (s.updFlow i g f).link l' = s.link l' := rfl
@[simp] theorem State.updFlow_group (s : State) (i g : Nat) (f : Flow → Flow) (g' : Nat) : (s.updFlow i g f).group g' = s.group g' := rfl
@[simp] theorem State.updFlow_flow (s : State) (i g : Nat) (f : Flow → Flow) : (s.updFlow i g f).flow i g = f (s.flow i g) := Sp.look_upd_self _ _ _ _
theorem State.updFlow_flow_ne (s : State) (i g : Nat) (f : Flow → Flow) (i' g' : Nat) (h : 4 * i' + g' ≠ 4 * i + g) : (s.updFlow i g f).flow i' g' = s.flow i' g' := Sp.look_upd_ne _ _ _ _ _ h
@[simp] theorem State.updFlow_le (s : State) (i g : Nat) (f : Flow → Flow) (e' : Nat) : (s.updFlow i g f).le e' = s.le e' := rfl
@[simp] theorem State.updFlow_pe (s : State) (i g : Nat) (f : Flow → Flow) (n' : Nat) : (s.updFlow i g f).pe n' = s.pe n' := rfl
@[simp] theorem State.updFlow_engCl (s : State) (i g : Nat) (f : Flow → Flow) (c' : Nat) : (s.updFlow i g f).engCl c' = s.engCl c' := rfl
@[simp] theorem State.updFlow_memCl (s : State) (i g : Nat) (f : Flow → Flow) (c' : Nat) : (s.updFlow i g f).memCl c' = s.memCl c' := rfl
@[simp] theorem State.updFlow_home (s : State) (i g : Nat) (f : Flow → Flow) (h' : Nat) : (s.updFlow i g f).home h' = s.home h' := rfl
@[simp] theorem State.updFlow_slot (s : State) (i g : Nat) (f : Flow → Flow) (i' : Nat) : (s.updFlow i g f).slot i' = s.slot i' := rfl
@[simp] theorem State.updFlow_grp (s : State) (i g : Nat) (f : Flow → Flow) (g' : Nat) : (s.updFlow i g f).grp g' = s.grp g' := rfl
@[simp] theorem State.updFlow_coder (s : State) (i g : Nat) (f : Flow → Flow) (c' : Nat) : (s.updFlow i g f).coder c' = s.coder c' := rfl
@[simp] theorem State.updFlow_live (s : State) (i g : Nat) (f : Flow → Flow) : (s.updFlow i g f).live = s.live := rfl
@[simp] theorem State.updFlow_on (s : State) (i g : Nat) (f : Flow → Flow) : (s.updFlow i g f).on = s.on := rfl
@[simp] theorem State.updFlow_isReady (s : State) (i g : Nat) (f : Flow → Flow) : (s.updFlow i g f).isReady = s.isReady := rfl

/-! ## updLe -/

@[simp] theorem State.updLe_tick (s : State) (e : Nat) (f : Eng → Eng) : (s.updLe e f).tick = s.tick := rfl
@[simp] theorem State.updLe_ports (s : State) (e : Nat) (f : Eng → Eng) : (s.updLe e f).ports = s.ports := rfl
@[simp] theorem State.updLe_qm (s : State) (e : Nat) (f : Eng → Eng) : (s.updLe e f).qm = s.qm := rfl
@[simp] theorem State.updLe_tly (s : State) (e : Nat) (f : Eng → Eng) : (s.updLe e f).tly = s.tly := rfl
@[simp] theorem State.updLe_deck (s : State) (e : Nat) (f : Eng → Eng) : (s.updLe e f).deck = s.deck := rfl
@[simp] theorem State.updLe_ch (s : State) (e : Nat) (f : Eng → Eng) : (s.updLe e f).ch = s.ch := rfl
@[simp] theorem State.updLe_mem (s : State) (e : Nat) (f : Eng → Eng) : (s.updLe e f).mem = s.mem := rfl
@[simp] theorem State.updLe_bytes (s : State) (e : Nat) (f : Eng → Eng) : (s.updLe e f).bytes = s.bytes := rfl
@[simp] theorem State.updLe_poison (s : State) (e : Nat) (f : Eng → Eng) : (s.updLe e f).poison = s.poison := rfl
@[simp] theorem State.updLe_ecc (s : State) (e : Nat) (f : Eng → Eng) : (s.updLe e f).ecc = s.ecc := rfl
@[simp] theorem State.updLe_lnd (s : State) (e : Nat) (f : Eng → Eng) : (s.updLe e f).lnd = s.lnd := rfl
@[simp] theorem State.updLe_coh (s : State) (e : Nat) (f : Eng → Eng) : (s.updLe e f).coh = s.coh := rfl
@[simp] theorem State.updLe_cph (s : State) (e : Nat) (f : Eng → Eng) : (s.updLe e f).cph = s.cph := rfl
@[simp] theorem State.updLe_gal (s : State) (e : Nat) (f : Eng → Eng) : (s.updLe e f).gal = s.gal := rfl
@[simp] theorem State.updLe_tru (s : State) (e : Nat) (f : Eng → Eng) : (s.updLe e f).tru = s.tru := rfl
@[simp] theorem State.updLe_flt (s : State) (e : Nat) (f : Eng → Eng) : (s.updLe e f).flt = s.flt := rfl
@[simp] theorem State.updLe_mp (s : State) (e : Nat) (f : Eng → Eng) : (s.updLe e f).mp = s.mp := rfl
@[simp] theorem State.updLe_pwr (s : State) (e : Nat) (f : Eng → Eng) : (s.updLe e f).pwr = s.pwr := rfl
@[simp] theorem State.updLe_start (s : State) (e : Nat) (f : Eng → Eng) : (s.updLe e f).start = s.start := rfl
@[simp] theorem State.updLe_fresh (s : State) (e : Nat) (f : Eng → Eng) : (s.updLe e f).fresh = s.fresh := rfl
@[simp] theorem State.updLe_out (s : State) (e : Nat) (f : Eng → Eng) : (s.updLe e f).out = s.out := rfl
@[simp] theorem State.updLe_pending (s : State) (e : Nat) (f : Eng → Eng) : (s.updLe e f).pending = s.pending := rfl
@[simp] theorem State.updLe_port (s : State) (e : Nat) (f : Eng → Eng) (p' : Nat) : (s.updLe e f).port p' = s.port p' := rfl
@[simp] theorem State.updLe_fn (s : State) (e : Nat) (f : Eng → Eng) (k' : Nat) : (s.updLe e f).fn k' = s.fn k' := rfl
@[simp] theorem State.updLe_queue (s : State) (e : Nat) (f : Eng → Eng) (k' q' : Nat) : (s.updLe e f).queue k' q' = s.queue k' q' := rfl
@[simp] theorem State.updLe_win (s : State) (e : Nat) (f : Eng → Eng) (m' w' : Nat) : (s.updLe e f).win m' w' = s.win m' w' := rfl
@[simp] theorem State.updLe_entry (s : State) (e : Nat) (f : Eng → Eng) (i' : Nat) : (s.updLe e f).entry i' = s.entry i' := rfl
@[simp] theorem State.updLe_link (s : State) (e : Nat) (f : Eng → Eng) (l' : Nat) : (s.updLe e f).link l' = s.link l' := rfl
@[simp] theorem State.updLe_group (s : State) (e : Nat) (f : Eng → Eng) (g' : Nat) : (s.updLe e f).group g' = s.group g' := rfl
@[simp] theorem State.updLe_flow (s : State) (e : Nat) (f : Eng → Eng) (i' g' : Nat) : (s.updLe e f).flow i' g' = s.flow i' g' := rfl
@[simp] theorem State.updLe_le (s : State) (e : Nat) (f : Eng → Eng) : (s.updLe e f).le e = f (s.le e) := Sp.look_upd_self _ _ _ _
theorem State.updLe_le_ne (s : State) (e : Nat) (f : Eng → Eng) (e' : Nat) (hn : e' ≠ e) : (s.updLe e f).le e' = s.le e' := Sp.look_upd_ne _ _ _ _ _ hn
@[simp] theorem State.updLe_pe (s : State) (e : Nat) (f : Eng → Eng) (n' : Nat) : (s.updLe e f).pe n' = s.pe n' := rfl
@[simp] theorem State.updLe_engCl (s : State) (e : Nat) (f : Eng → Eng) (c' : Nat) : (s.updLe e f).engCl c' = s.engCl c' := rfl
@[simp] theorem State.updLe_memCl (s : State) (e : Nat) (f : Eng → Eng) (c' : Nat) : (s.updLe e f).memCl c' = s.memCl c' := rfl
@[simp] theorem State.updLe_home (s : State) (e : Nat) (f : Eng → Eng) (h' : Nat) : (s.updLe e f).home h' = s.home h' := rfl
@[simp] theorem State.updLe_slot (s : State) (e : Nat) (f : Eng → Eng) (i' : Nat) : (s.updLe e f).slot i' = s.slot i' := rfl
@[simp] theorem State.updLe_grp (s : State) (e : Nat) (f : Eng → Eng) (g' : Nat) : (s.updLe e f).grp g' = s.grp g' := rfl
@[simp] theorem State.updLe_coder (s : State) (e : Nat) (f : Eng → Eng) (c' : Nat) : (s.updLe e f).coder c' = s.coder c' := rfl
@[simp] theorem State.updLe_live (s : State) (e : Nat) (f : Eng → Eng) : (s.updLe e f).live = s.live := rfl
@[simp] theorem State.updLe_on (s : State) (e : Nat) (f : Eng → Eng) : (s.updLe e f).on = s.on := rfl
@[simp] theorem State.updLe_isReady (s : State) (e : Nat) (f : Eng → Eng) : (s.updLe e f).isReady = s.isReady := rfl

/-! ## updPe -/

@[simp] theorem State.updPe_tick (s : State) (n : Nat) (f : Pe → Pe) : (s.updPe n f).tick = s.tick := rfl
@[simp] theorem State.updPe_ports (s : State) (n : Nat) (f : Pe → Pe) : (s.updPe n f).ports = s.ports := rfl
@[simp] theorem State.updPe_qm (s : State) (n : Nat) (f : Pe → Pe) : (s.updPe n f).qm = s.qm := rfl
@[simp] theorem State.updPe_tly (s : State) (n : Nat) (f : Pe → Pe) : (s.updPe n f).tly = s.tly := rfl
@[simp] theorem State.updPe_deck (s : State) (n : Nat) (f : Pe → Pe) : (s.updPe n f).deck = s.deck := rfl
@[simp] theorem State.updPe_ch (s : State) (n : Nat) (f : Pe → Pe) : (s.updPe n f).ch = s.ch := rfl
@[simp] theorem State.updPe_mem (s : State) (n : Nat) (f : Pe → Pe) : (s.updPe n f).mem = s.mem := rfl
@[simp] theorem State.updPe_bytes (s : State) (n : Nat) (f : Pe → Pe) : (s.updPe n f).bytes = s.bytes := rfl
@[simp] theorem State.updPe_poison (s : State) (n : Nat) (f : Pe → Pe) : (s.updPe n f).poison = s.poison := rfl
@[simp] theorem State.updPe_ecc (s : State) (n : Nat) (f : Pe → Pe) : (s.updPe n f).ecc = s.ecc := rfl
@[simp] theorem State.updPe_lnd (s : State) (n : Nat) (f : Pe → Pe) : (s.updPe n f).lnd = s.lnd := rfl
@[simp] theorem State.updPe_coh (s : State) (n : Nat) (f : Pe → Pe) : (s.updPe n f).coh = s.coh := rfl
@[simp] theorem State.updPe_cph (s : State) (n : Nat) (f : Pe → Pe) : (s.updPe n f).cph = s.cph := rfl
@[simp] theorem State.updPe_gal (s : State) (n : Nat) (f : Pe → Pe) : (s.updPe n f).gal = s.gal := rfl
@[simp] theorem State.updPe_tru (s : State) (n : Nat) (f : Pe → Pe) : (s.updPe n f).tru = s.tru := rfl
@[simp] theorem State.updPe_flt (s : State) (n : Nat) (f : Pe → Pe) : (s.updPe n f).flt = s.flt := rfl
@[simp] theorem State.updPe_mp (s : State) (n : Nat) (f : Pe → Pe) : (s.updPe n f).mp = s.mp := rfl
@[simp] theorem State.updPe_pwr (s : State) (n : Nat) (f : Pe → Pe) : (s.updPe n f).pwr = s.pwr := rfl
@[simp] theorem State.updPe_start (s : State) (n : Nat) (f : Pe → Pe) : (s.updPe n f).start = s.start := rfl
@[simp] theorem State.updPe_fresh (s : State) (n : Nat) (f : Pe → Pe) : (s.updPe n f).fresh = s.fresh := rfl
@[simp] theorem State.updPe_out (s : State) (n : Nat) (f : Pe → Pe) : (s.updPe n f).out = s.out := rfl
@[simp] theorem State.updPe_pending (s : State) (n : Nat) (f : Pe → Pe) : (s.updPe n f).pending = s.pending := rfl
@[simp] theorem State.updPe_port (s : State) (n : Nat) (f : Pe → Pe) (p' : Nat) : (s.updPe n f).port p' = s.port p' := rfl
@[simp] theorem State.updPe_fn (s : State) (n : Nat) (f : Pe → Pe) (k' : Nat) : (s.updPe n f).fn k' = s.fn k' := rfl
@[simp] theorem State.updPe_queue (s : State) (n : Nat) (f : Pe → Pe) (k' q' : Nat) : (s.updPe n f).queue k' q' = s.queue k' q' := rfl
@[simp] theorem State.updPe_win (s : State) (n : Nat) (f : Pe → Pe) (m' w' : Nat) : (s.updPe n f).win m' w' = s.win m' w' := rfl
@[simp] theorem State.updPe_entry (s : State) (n : Nat) (f : Pe → Pe) (i' : Nat) : (s.updPe n f).entry i' = s.entry i' := rfl
@[simp] theorem State.updPe_link (s : State) (n : Nat) (f : Pe → Pe) (l' : Nat) : (s.updPe n f).link l' = s.link l' := rfl
@[simp] theorem State.updPe_group (s : State) (n : Nat) (f : Pe → Pe) (g' : Nat) : (s.updPe n f).group g' = s.group g' := rfl
@[simp] theorem State.updPe_flow (s : State) (n : Nat) (f : Pe → Pe) (i' g' : Nat) : (s.updPe n f).flow i' g' = s.flow i' g' := rfl
@[simp] theorem State.updPe_le (s : State) (n : Nat) (f : Pe → Pe) (e' : Nat) : (s.updPe n f).le e' = s.le e' := rfl
@[simp] theorem State.updPe_pe (s : State) (n : Nat) (f : Pe → Pe) : (s.updPe n f).pe n = f (s.pe n) := Sp.look_upd_self _ _ _ _
theorem State.updPe_pe_ne (s : State) (n : Nat) (f : Pe → Pe) (n' : Nat) (hn : n' ≠ n) : (s.updPe n f).pe n' = s.pe n' := Sp.look_put_other _ _ _ _ _ _ hn
@[simp] theorem State.updPe_engCl (s : State) (n : Nat) (f : Pe → Pe) (c' : Nat) : (s.updPe n f).engCl c' = s.engCl c' := rfl
@[simp] theorem State.updPe_memCl (s : State) (n : Nat) (f : Pe → Pe) (c' : Nat) : (s.updPe n f).memCl c' = s.memCl c' := rfl
@[simp] theorem State.updPe_home (s : State) (n : Nat) (f : Pe → Pe) (h' : Nat) : (s.updPe n f).home h' = s.home h' := rfl
@[simp] theorem State.updPe_slot (s : State) (n : Nat) (f : Pe → Pe) (i' : Nat) : (s.updPe n f).slot i' = s.slot i' := rfl
@[simp] theorem State.updPe_grp (s : State) (n : Nat) (f : Pe → Pe) (g' : Nat) : (s.updPe n f).grp g' = s.grp g' := rfl
@[simp] theorem State.updPe_coder (s : State) (n : Nat) (f : Pe → Pe) (c' : Nat) : (s.updPe n f).coder c' = s.coder c' := rfl
@[simp] theorem State.updPe_live (s : State) (n : Nat) (f : Pe → Pe) : (s.updPe n f).live = s.live := rfl
@[simp] theorem State.updPe_on (s : State) (n : Nat) (f : Pe → Pe) : (s.updPe n f).on = s.on := rfl
@[simp] theorem State.updPe_isReady (s : State) (n : Nat) (f : Pe → Pe) : (s.updPe n f).isReady = s.isReady := rfl

/-! ## updEngCl -/

@[simp] theorem State.updEngCl_tick (s : State) (c : Nat) (f : EngCl → EngCl) : (s.updEngCl c f).tick = s.tick := rfl
@[simp] theorem State.updEngCl_ports (s : State) (c : Nat) (f : EngCl → EngCl) : (s.updEngCl c f).ports = s.ports := rfl
@[simp] theorem State.updEngCl_qm (s : State) (c : Nat) (f : EngCl → EngCl) : (s.updEngCl c f).qm = s.qm := rfl
@[simp] theorem State.updEngCl_tly (s : State) (c : Nat) (f : EngCl → EngCl) : (s.updEngCl c f).tly = s.tly := rfl
@[simp] theorem State.updEngCl_deck (s : State) (c : Nat) (f : EngCl → EngCl) : (s.updEngCl c f).deck = s.deck := rfl
@[simp] theorem State.updEngCl_ch (s : State) (c : Nat) (f : EngCl → EngCl) : (s.updEngCl c f).ch = s.ch := rfl
@[simp] theorem State.updEngCl_mem (s : State) (c : Nat) (f : EngCl → EngCl) : (s.updEngCl c f).mem = s.mem := rfl
@[simp] theorem State.updEngCl_bytes (s : State) (c : Nat) (f : EngCl → EngCl) : (s.updEngCl c f).bytes = s.bytes := rfl
@[simp] theorem State.updEngCl_poison (s : State) (c : Nat) (f : EngCl → EngCl) : (s.updEngCl c f).poison = s.poison := rfl
@[simp] theorem State.updEngCl_ecc (s : State) (c : Nat) (f : EngCl → EngCl) : (s.updEngCl c f).ecc = s.ecc := rfl
@[simp] theorem State.updEngCl_lnd (s : State) (c : Nat) (f : EngCl → EngCl) : (s.updEngCl c f).lnd = s.lnd := rfl
@[simp] theorem State.updEngCl_coh (s : State) (c : Nat) (f : EngCl → EngCl) : (s.updEngCl c f).coh = s.coh := rfl
@[simp] theorem State.updEngCl_cph (s : State) (c : Nat) (f : EngCl → EngCl) : (s.updEngCl c f).cph = s.cph := rfl
@[simp] theorem State.updEngCl_gal (s : State) (c : Nat) (f : EngCl → EngCl) : (s.updEngCl c f).gal = s.gal := rfl
@[simp] theorem State.updEngCl_tru (s : State) (c : Nat) (f : EngCl → EngCl) : (s.updEngCl c f).tru = s.tru := rfl
@[simp] theorem State.updEngCl_flt (s : State) (c : Nat) (f : EngCl → EngCl) : (s.updEngCl c f).flt = s.flt := rfl
@[simp] theorem State.updEngCl_mp (s : State) (c : Nat) (f : EngCl → EngCl) : (s.updEngCl c f).mp = s.mp := rfl
@[simp] theorem State.updEngCl_pwr (s : State) (c : Nat) (f : EngCl → EngCl) : (s.updEngCl c f).pwr = s.pwr := rfl
@[simp] theorem State.updEngCl_start (s : State) (c : Nat) (f : EngCl → EngCl) : (s.updEngCl c f).start = s.start := rfl
@[simp] theorem State.updEngCl_fresh (s : State) (c : Nat) (f : EngCl → EngCl) : (s.updEngCl c f).fresh = s.fresh := rfl
@[simp] theorem State.updEngCl_out (s : State) (c : Nat) (f : EngCl → EngCl) : (s.updEngCl c f).out = s.out := rfl
@[simp] theorem State.updEngCl_pending (s : State) (c : Nat) (f : EngCl → EngCl) : (s.updEngCl c f).pending = s.pending := rfl
@[simp] theorem State.updEngCl_port (s : State) (c : Nat) (f : EngCl → EngCl) (p' : Nat) : (s.updEngCl c f).port p' = s.port p' := rfl
@[simp] theorem State.updEngCl_fn (s : State) (c : Nat) (f : EngCl → EngCl) (k' : Nat) : (s.updEngCl c f).fn k' = s.fn k' := rfl
@[simp] theorem State.updEngCl_queue (s : State) (c : Nat) (f : EngCl → EngCl) (k' q' : Nat) : (s.updEngCl c f).queue k' q' = s.queue k' q' := rfl
@[simp] theorem State.updEngCl_win (s : State) (c : Nat) (f : EngCl → EngCl) (m' w' : Nat) : (s.updEngCl c f).win m' w' = s.win m' w' := rfl
@[simp] theorem State.updEngCl_entry (s : State) (c : Nat) (f : EngCl → EngCl) (i' : Nat) : (s.updEngCl c f).entry i' = s.entry i' := rfl
@[simp] theorem State.updEngCl_link (s : State) (c : Nat) (f : EngCl → EngCl) (l' : Nat) : (s.updEngCl c f).link l' = s.link l' := rfl
@[simp] theorem State.updEngCl_group (s : State) (c : Nat) (f : EngCl → EngCl) (g' : Nat) : (s.updEngCl c f).group g' = s.group g' := rfl
@[simp] theorem State.updEngCl_flow (s : State) (c : Nat) (f : EngCl → EngCl) (i' g' : Nat) : (s.updEngCl c f).flow i' g' = s.flow i' g' := rfl
@[simp] theorem State.updEngCl_le (s : State) (c : Nat) (f : EngCl → EngCl) (e' : Nat) : (s.updEngCl c f).le e' = s.le e' := rfl
@[simp] theorem State.updEngCl_pe (s : State) (c : Nat) (f : EngCl → EngCl) (n' : Nat) : (s.updEngCl c f).pe n' = s.pe n' := rfl
@[simp] theorem State.updEngCl_engCl (s : State) (c : Nat) (f : EngCl → EngCl) : (s.updEngCl c f).engCl c = f (s.engCl c) := Sp.look_upd_self _ _ _ _
theorem State.updEngCl_engCl_ne (s : State) (c : Nat) (f : EngCl → EngCl) (c' : Nat) (hn : c' ≠ c) : (s.updEngCl c f).engCl c' = s.engCl c' := Sp.look_upd_ne _ _ _ _ _ hn
@[simp] theorem State.updEngCl_memCl (s : State) (c : Nat) (f : EngCl → EngCl) (c' : Nat) : (s.updEngCl c f).memCl c' = s.memCl c' := rfl
@[simp] theorem State.updEngCl_home (s : State) (c : Nat) (f : EngCl → EngCl) (h' : Nat) : (s.updEngCl c f).home h' = s.home h' := rfl
@[simp] theorem State.updEngCl_slot (s : State) (c : Nat) (f : EngCl → EngCl) (i' : Nat) : (s.updEngCl c f).slot i' = s.slot i' := rfl
@[simp] theorem State.updEngCl_grp (s : State) (c : Nat) (f : EngCl → EngCl) (g' : Nat) : (s.updEngCl c f).grp g' = s.grp g' := rfl
@[simp] theorem State.updEngCl_coder (s : State) (c : Nat) (f : EngCl → EngCl) (c' : Nat) : (s.updEngCl c f).coder c' = s.coder c' := rfl
@[simp] theorem State.updEngCl_live (s : State) (c : Nat) (f : EngCl → EngCl) : (s.updEngCl c f).live = s.live := rfl
@[simp] theorem State.updEngCl_on (s : State) (c : Nat) (f : EngCl → EngCl) : (s.updEngCl c f).on = s.on := rfl
@[simp] theorem State.updEngCl_isReady (s : State) (c : Nat) (f : EngCl → EngCl) : (s.updEngCl c f).isReady = s.isReady := rfl

/-! ## updMem -/

@[simp] theorem State.updMem_tick (s : State) (c : Nat) (f : MemCl → MemCl) : (s.updMem c f).tick = s.tick := rfl
@[simp] theorem State.updMem_ports (s : State) (c : Nat) (f : MemCl → MemCl) : (s.updMem c f).ports = s.ports := rfl
@[simp] theorem State.updMem_qm (s : State) (c : Nat) (f : MemCl → MemCl) : (s.updMem c f).qm = s.qm := rfl
@[simp] theorem State.updMem_tly (s : State) (c : Nat) (f : MemCl → MemCl) : (s.updMem c f).tly = s.tly := rfl
@[simp] theorem State.updMem_deck (s : State) (c : Nat) (f : MemCl → MemCl) : (s.updMem c f).deck = s.deck := rfl
@[simp] theorem State.updMem_ch (s : State) (c : Nat) (f : MemCl → MemCl) : (s.updMem c f).ch = s.ch := rfl
@[simp] theorem State.updMem_eng (s : State) (c : Nat) (f : MemCl → MemCl) : (s.updMem c f).eng = s.eng := rfl
@[simp] theorem State.updMem_bytes (s : State) (c : Nat) (f : MemCl → MemCl) : (s.updMem c f).bytes = s.bytes := rfl
@[simp] theorem State.updMem_poison (s : State) (c : Nat) (f : MemCl → MemCl) : (s.updMem c f).poison = s.poison := rfl
@[simp] theorem State.updMem_ecc (s : State) (c : Nat) (f : MemCl → MemCl) : (s.updMem c f).ecc = s.ecc := rfl
@[simp] theorem State.updMem_lnd (s : State) (c : Nat) (f : MemCl → MemCl) : (s.updMem c f).lnd = s.lnd := rfl
@[simp] theorem State.updMem_coh (s : State) (c : Nat) (f : MemCl → MemCl) : (s.updMem c f).coh = s.coh := rfl
@[simp] theorem State.updMem_cph (s : State) (c : Nat) (f : MemCl → MemCl) : (s.updMem c f).cph = s.cph := rfl
@[simp] theorem State.updMem_gal (s : State) (c : Nat) (f : MemCl → MemCl) : (s.updMem c f).gal = s.gal := rfl
@[simp] theorem State.updMem_tru (s : State) (c : Nat) (f : MemCl → MemCl) : (s.updMem c f).tru = s.tru := rfl
@[simp] theorem State.updMem_flt (s : State) (c : Nat) (f : MemCl → MemCl) : (s.updMem c f).flt = s.flt := rfl
@[simp] theorem State.updMem_mp (s : State) (c : Nat) (f : MemCl → MemCl) : (s.updMem c f).mp = s.mp := rfl
@[simp] theorem State.updMem_pwr (s : State) (c : Nat) (f : MemCl → MemCl) : (s.updMem c f).pwr = s.pwr := rfl
@[simp] theorem State.updMem_start (s : State) (c : Nat) (f : MemCl → MemCl) : (s.updMem c f).start = s.start := rfl
@[simp] theorem State.updMem_fresh (s : State) (c : Nat) (f : MemCl → MemCl) : (s.updMem c f).fresh = s.fresh := rfl
@[simp] theorem State.updMem_out (s : State) (c : Nat) (f : MemCl → MemCl) : (s.updMem c f).out = s.out := rfl
@[simp] theorem State.updMem_pending (s : State) (c : Nat) (f : MemCl → MemCl) : (s.updMem c f).pending = s.pending := rfl
@[simp] theorem State.updMem_port (s : State) (c : Nat) (f : MemCl → MemCl) (p' : Nat) : (s.updMem c f).port p' = s.port p' := rfl
@[simp] theorem State.updMem_fn (s : State) (c : Nat) (f : MemCl → MemCl) (k' : Nat) : (s.updMem c f).fn k' = s.fn k' := rfl
@[simp] theorem State.updMem_queue (s : State) (c : Nat) (f : MemCl → MemCl) (k' q' : Nat) : (s.updMem c f).queue k' q' = s.queue k' q' := rfl
@[simp] theorem State.updMem_win (s : State) (c : Nat) (f : MemCl → MemCl) (m' w' : Nat) : (s.updMem c f).win m' w' = s.win m' w' := rfl
@[simp] theorem State.updMem_entry (s : State) (c : Nat) (f : MemCl → MemCl) (i' : Nat) : (s.updMem c f).entry i' = s.entry i' := rfl
@[simp] theorem State.updMem_link (s : State) (c : Nat) (f : MemCl → MemCl) (l' : Nat) : (s.updMem c f).link l' = s.link l' := rfl
@[simp] theorem State.updMem_group (s : State) (c : Nat) (f : MemCl → MemCl) (g' : Nat) : (s.updMem c f).group g' = s.group g' := rfl
@[simp] theorem State.updMem_flow (s : State) (c : Nat) (f : MemCl → MemCl) (i' g' : Nat) : (s.updMem c f).flow i' g' = s.flow i' g' := rfl
@[simp] theorem State.updMem_le (s : State) (c : Nat) (f : MemCl → MemCl) (e' : Nat) : (s.updMem c f).le e' = s.le e' := rfl
@[simp] theorem State.updMem_pe (s : State) (c : Nat) (f : MemCl → MemCl) (n' : Nat) : (s.updMem c f).pe n' = s.pe n' := rfl
@[simp] theorem State.updMem_engCl (s : State) (c : Nat) (f : MemCl → MemCl) (c' : Nat) : (s.updMem c f).engCl c' = s.engCl c' := rfl
@[simp] theorem State.updMem_memCl (s : State) (c : Nat) (f : MemCl → MemCl) : (s.updMem c f).memCl c = f (s.memCl c) := Sp.look_upd_self _ _ _ _
theorem State.updMem_memCl_ne (s : State) (c : Nat) (f : MemCl → MemCl) (c' : Nat) (hn : c' ≠ c) : (s.updMem c f).memCl c' = s.memCl c' := Sp.look_upd_ne _ _ _ _ _ hn
@[simp] theorem State.updMem_home (s : State) (c : Nat) (f : MemCl → MemCl) (h' : Nat) : (s.updMem c f).home h' = s.home h' := rfl
@[simp] theorem State.updMem_slot (s : State) (c : Nat) (f : MemCl → MemCl) (i' : Nat) : (s.updMem c f).slot i' = s.slot i' := rfl
@[simp] theorem State.updMem_grp (s : State) (c : Nat) (f : MemCl → MemCl) (g' : Nat) : (s.updMem c f).grp g' = s.grp g' := rfl
@[simp] theorem State.updMem_coder (s : State) (c : Nat) (f : MemCl → MemCl) (c' : Nat) : (s.updMem c f).coder c' = s.coder c' := rfl
@[simp] theorem State.updMem_live (s : State) (c : Nat) (f : MemCl → MemCl) : (s.updMem c f).live = s.live := rfl
@[simp] theorem State.updMem_on (s : State) (c : Nat) (f : MemCl → MemCl) : (s.updMem c f).on = s.on := rfl
@[simp] theorem State.updMem_isReady (s : State) (c : Nat) (f : MemCl → MemCl) : (s.updMem c f).isReady = s.isReady := rfl

/-! ## updHome -/

@[simp] theorem State.updHome_tick (s : State) (h : Nat) (f : Home → Home) : (s.updHome h f).tick = s.tick := rfl
@[simp] theorem State.updHome_ports (s : State) (h : Nat) (f : Home → Home) : (s.updHome h f).ports = s.ports := rfl
@[simp] theorem State.updHome_qm (s : State) (h : Nat) (f : Home → Home) : (s.updHome h f).qm = s.qm := rfl
@[simp] theorem State.updHome_tly (s : State) (h : Nat) (f : Home → Home) : (s.updHome h f).tly = s.tly := rfl
@[simp] theorem State.updHome_deck (s : State) (h : Nat) (f : Home → Home) : (s.updHome h f).deck = s.deck := rfl
@[simp] theorem State.updHome_ch (s : State) (h : Nat) (f : Home → Home) : (s.updHome h f).ch = s.ch := rfl
@[simp] theorem State.updHome_eng (s : State) (h : Nat) (f : Home → Home) : (s.updHome h f).eng = s.eng := rfl
@[simp] theorem State.updHome_mem (s : State) (h : Nat) (f : Home → Home) : (s.updHome h f).mem = s.mem := rfl
@[simp] theorem State.updHome_bytes (s : State) (h : Nat) (f : Home → Home) : (s.updHome h f).bytes = s.bytes := rfl
@[simp] theorem State.updHome_poison (s : State) (h : Nat) (f : Home → Home) : (s.updHome h f).poison = s.poison := rfl
@[simp] theorem State.updHome_ecc (s : State) (h : Nat) (f : Home → Home) : (s.updHome h f).ecc = s.ecc := rfl
@[simp] theorem State.updHome_lnd (s : State) (h : Nat) (f : Home → Home) : (s.updHome h f).lnd = s.lnd := rfl
@[simp] theorem State.updHome_cph (s : State) (h : Nat) (f : Home → Home) : (s.updHome h f).cph = s.cph := rfl
@[simp] theorem State.updHome_gal (s : State) (h : Nat) (f : Home → Home) : (s.updHome h f).gal = s.gal := rfl
@[simp] theorem State.updHome_tru (s : State) (h : Nat) (f : Home → Home) : (s.updHome h f).tru = s.tru := rfl
@[simp] theorem State.updHome_flt (s : State) (h : Nat) (f : Home → Home) : (s.updHome h f).flt = s.flt := rfl
@[simp] theorem State.updHome_mp (s : State) (h : Nat) (f : Home → Home) : (s.updHome h f).mp = s.mp := rfl
@[simp] theorem State.updHome_pwr (s : State) (h : Nat) (f : Home → Home) : (s.updHome h f).pwr = s.pwr := rfl
@[simp] theorem State.updHome_start (s : State) (h : Nat) (f : Home → Home) : (s.updHome h f).start = s.start := rfl
@[simp] theorem State.updHome_fresh (s : State) (h : Nat) (f : Home → Home) : (s.updHome h f).fresh = s.fresh := rfl
@[simp] theorem State.updHome_out (s : State) (h : Nat) (f : Home → Home) : (s.updHome h f).out = s.out := rfl
@[simp] theorem State.updHome_pending (s : State) (h : Nat) (f : Home → Home) : (s.updHome h f).pending = s.pending := rfl
@[simp] theorem State.updHome_port (s : State) (h : Nat) (f : Home → Home) (p' : Nat) : (s.updHome h f).port p' = s.port p' := rfl
@[simp] theorem State.updHome_fn (s : State) (h : Nat) (f : Home → Home) (k' : Nat) : (s.updHome h f).fn k' = s.fn k' := rfl
@[simp] theorem State.updHome_queue (s : State) (h : Nat) (f : Home → Home) (k' q' : Nat) : (s.updHome h f).queue k' q' = s.queue k' q' := rfl
@[simp] theorem State.updHome_win (s : State) (h : Nat) (f : Home → Home) (m' w' : Nat) : (s.updHome h f).win m' w' = s.win m' w' := rfl
@[simp] theorem State.updHome_entry (s : State) (h : Nat) (f : Home → Home) (i' : Nat) : (s.updHome h f).entry i' = s.entry i' := rfl
@[simp] theorem State.updHome_link (s : State) (h : Nat) (f : Home → Home) (l' : Nat) : (s.updHome h f).link l' = s.link l' := rfl
@[simp] theorem State.updHome_group (s : State) (h : Nat) (f : Home → Home) (g' : Nat) : (s.updHome h f).group g' = s.group g' := rfl
@[simp] theorem State.updHome_flow (s : State) (h : Nat) (f : Home → Home) (i' g' : Nat) : (s.updHome h f).flow i' g' = s.flow i' g' := rfl
@[simp] theorem State.updHome_le (s : State) (h : Nat) (f : Home → Home) (e' : Nat) : (s.updHome h f).le e' = s.le e' := rfl
@[simp] theorem State.updHome_pe (s : State) (h : Nat) (f : Home → Home) (n' : Nat) : (s.updHome h f).pe n' = s.pe n' := rfl
@[simp] theorem State.updHome_engCl (s : State) (h : Nat) (f : Home → Home) (c' : Nat) : (s.updHome h f).engCl c' = s.engCl c' := rfl
@[simp] theorem State.updHome_memCl (s : State) (h : Nat) (f : Home → Home) (c' : Nat) : (s.updHome h f).memCl c' = s.memCl c' := rfl
@[simp] theorem State.updHome_home (s : State) (h : Nat) (f : Home → Home) : (s.updHome h f).home h = f (s.home h) := Sp.look_upd_self _ _ _ _
theorem State.updHome_home_ne (s : State) (h : Nat) (f : Home → Home) (h' : Nat) (hn : h' ≠ h) : (s.updHome h f).home h' = s.home h' := Sp.look_upd_ne _ _ _ _ _ hn
@[simp] theorem State.updHome_slot (s : State) (h : Nat) (f : Home → Home) (i' : Nat) : (s.updHome h f).slot i' = s.slot i' := rfl
@[simp] theorem State.updHome_grp (s : State) (h : Nat) (f : Home → Home) (g' : Nat) : (s.updHome h f).grp g' = s.grp g' := rfl
@[simp] theorem State.updHome_coder (s : State) (h : Nat) (f : Home → Home) (c' : Nat) : (s.updHome h f).coder c' = s.coder c' := rfl
@[simp] theorem State.updHome_live (s : State) (h : Nat) (f : Home → Home) : (s.updHome h f).live = s.live := rfl
@[simp] theorem State.updHome_on (s : State) (h : Nat) (f : Home → Home) : (s.updHome h f).on = s.on := rfl
@[simp] theorem State.updHome_isReady (s : State) (h : Nat) (f : Home → Home) : (s.updHome h f).isReady = s.isReady := rfl

/-! ## setSlot -/

@[simp] theorem State.setSlot_tick (s : State) (i : Nat) (v : KeySlot) : (s.setSlot i v).tick = s.tick := rfl
@[simp] theorem State.setSlot_ports (s : State) (i : Nat) (v : KeySlot) : (s.setSlot i v).ports = s.ports := rfl
@[simp] theorem State.setSlot_qm (s : State) (i : Nat) (v : KeySlot) : (s.setSlot i v).qm = s.qm := rfl
@[simp] theorem State.setSlot_tly (s : State) (i : Nat) (v : KeySlot) : (s.setSlot i v).tly = s.tly := rfl
@[simp] theorem State.setSlot_deck (s : State) (i : Nat) (v : KeySlot) : (s.setSlot i v).deck = s.deck := rfl
@[simp] theorem State.setSlot_ch (s : State) (i : Nat) (v : KeySlot) : (s.setSlot i v).ch = s.ch := rfl
@[simp] theorem State.setSlot_eng (s : State) (i : Nat) (v : KeySlot) : (s.setSlot i v).eng = s.eng := rfl
@[simp] theorem State.setSlot_mem (s : State) (i : Nat) (v : KeySlot) : (s.setSlot i v).mem = s.mem := rfl
@[simp] theorem State.setSlot_bytes (s : State) (i : Nat) (v : KeySlot) : (s.setSlot i v).bytes = s.bytes := rfl
@[simp] theorem State.setSlot_poison (s : State) (i : Nat) (v : KeySlot) : (s.setSlot i v).poison = s.poison := rfl
@[simp] theorem State.setSlot_ecc (s : State) (i : Nat) (v : KeySlot) : (s.setSlot i v).ecc = s.ecc := rfl
@[simp] theorem State.setSlot_lnd (s : State) (i : Nat) (v : KeySlot) : (s.setSlot i v).lnd = s.lnd := rfl
@[simp] theorem State.setSlot_coh (s : State) (i : Nat) (v : KeySlot) : (s.setSlot i v).coh = s.coh := rfl
@[simp] theorem State.setSlot_gal (s : State) (i : Nat) (v : KeySlot) : (s.setSlot i v).gal = s.gal := rfl
@[simp] theorem State.setSlot_tru (s : State) (i : Nat) (v : KeySlot) : (s.setSlot i v).tru = s.tru := rfl
@[simp] theorem State.setSlot_flt (s : State) (i : Nat) (v : KeySlot) : (s.setSlot i v).flt = s.flt := rfl
@[simp] theorem State.setSlot_mp (s : State) (i : Nat) (v : KeySlot) : (s.setSlot i v).mp = s.mp := rfl
@[simp] theorem State.setSlot_pwr (s : State) (i : Nat) (v : KeySlot) : (s.setSlot i v).pwr = s.pwr := rfl
@[simp] theorem State.setSlot_start (s : State) (i : Nat) (v : KeySlot) : (s.setSlot i v).start = s.start := rfl
@[simp] theorem State.setSlot_fresh (s : State) (i : Nat) (v : KeySlot) : (s.setSlot i v).fresh = s.fresh := rfl
@[simp] theorem State.setSlot_out (s : State) (i : Nat) (v : KeySlot) : (s.setSlot i v).out = s.out := rfl
@[simp] theorem State.setSlot_pending (s : State) (i : Nat) (v : KeySlot) : (s.setSlot i v).pending = s.pending := rfl
@[simp] theorem State.setSlot_port (s : State) (i : Nat) (v : KeySlot) (p' : Nat) : (s.setSlot i v).port p' = s.port p' := rfl
@[simp] theorem State.setSlot_fn (s : State) (i : Nat) (v : KeySlot) (k' : Nat) : (s.setSlot i v).fn k' = s.fn k' := rfl
@[simp] theorem State.setSlot_queue (s : State) (i : Nat) (v : KeySlot) (k' q' : Nat) : (s.setSlot i v).queue k' q' = s.queue k' q' := rfl
@[simp] theorem State.setSlot_win (s : State) (i : Nat) (v : KeySlot) (m' w' : Nat) : (s.setSlot i v).win m' w' = s.win m' w' := rfl
@[simp] theorem State.setSlot_entry (s : State) (i : Nat) (v : KeySlot) (i' : Nat) : (s.setSlot i v).entry i' = s.entry i' := rfl
@[simp] theorem State.setSlot_link (s : State) (i : Nat) (v : KeySlot) (l' : Nat) : (s.setSlot i v).link l' = s.link l' := rfl
@[simp] theorem State.setSlot_group (s : State) (i : Nat) (v : KeySlot) (g' : Nat) : (s.setSlot i v).group g' = s.group g' := rfl
@[simp] theorem State.setSlot_flow (s : State) (i : Nat) (v : KeySlot) (i' g' : Nat) : (s.setSlot i v).flow i' g' = s.flow i' g' := rfl
@[simp] theorem State.setSlot_le (s : State) (i : Nat) (v : KeySlot) (e' : Nat) : (s.setSlot i v).le e' = s.le e' := rfl
@[simp] theorem State.setSlot_pe (s : State) (i : Nat) (v : KeySlot) (n' : Nat) : (s.setSlot i v).pe n' = s.pe n' := rfl
@[simp] theorem State.setSlot_engCl (s : State) (i : Nat) (v : KeySlot) (c' : Nat) : (s.setSlot i v).engCl c' = s.engCl c' := rfl
@[simp] theorem State.setSlot_memCl (s : State) (i : Nat) (v : KeySlot) (c' : Nat) : (s.setSlot i v).memCl c' = s.memCl c' := rfl
@[simp] theorem State.setSlot_home (s : State) (i : Nat) (v : KeySlot) (h' : Nat) : (s.setSlot i v).home h' = s.home h' := rfl
@[simp] theorem State.setSlot_slot (s : State) (i : Nat) (v : KeySlot) : (s.setSlot i v).slot i = v := Sp.look_put_self _ _ _ _
theorem State.setSlot_slot_ne (s : State) (i : Nat) (v : KeySlot) (i' : Nat) (hn : i' ≠ i) : (s.setSlot i v).slot i' = s.slot i' := Sp.look_put_ne _ _ _ _ _ hn
@[simp] theorem State.setSlot_grp (s : State) (i : Nat) (v : KeySlot) (g' : Nat) : (s.setSlot i v).grp g' = s.grp g' := rfl
@[simp] theorem State.setSlot_coder (s : State) (i : Nat) (v : KeySlot) (c' : Nat) : (s.setSlot i v).coder c' = s.coder c' := rfl
@[simp] theorem State.setSlot_live (s : State) (i : Nat) (v : KeySlot) : (s.setSlot i v).live = s.live := rfl
@[simp] theorem State.setSlot_on (s : State) (i : Nat) (v : KeySlot) : (s.setSlot i v).on = s.on := rfl
@[simp] theorem State.setSlot_isReady (s : State) (i : Nat) (v : KeySlot) : (s.setSlot i v).isReady = s.isReady := rfl

/-! ## updGrp -/

@[simp] theorem State.updGrp_tick (s : State) (g : Nat) (f : Svc → Svc) : (s.updGrp g f).tick = s.tick := rfl
@[simp] theorem State.updGrp_ports (s : State) (g : Nat) (f : Svc → Svc) : (s.updGrp g f).ports = s.ports := rfl
@[simp] theorem State.updGrp_qm (s : State) (g : Nat) (f : Svc → Svc) : (s.updGrp g f).qm = s.qm := rfl
@[simp] theorem State.updGrp_tly (s : State) (g : Nat) (f : Svc → Svc) : (s.updGrp g f).tly = s.tly := rfl
@[simp] theorem State.updGrp_deck (s : State) (g : Nat) (f : Svc → Svc) : (s.updGrp g f).deck = s.deck := rfl
@[simp] theorem State.updGrp_ch (s : State) (g : Nat) (f : Svc → Svc) : (s.updGrp g f).ch = s.ch := rfl
@[simp] theorem State.updGrp_eng (s : State) (g : Nat) (f : Svc → Svc) : (s.updGrp g f).eng = s.eng := rfl
@[simp] theorem State.updGrp_mem (s : State) (g : Nat) (f : Svc → Svc) : (s.updGrp g f).mem = s.mem := rfl
@[simp] theorem State.updGrp_bytes (s : State) (g : Nat) (f : Svc → Svc) : (s.updGrp g f).bytes = s.bytes := rfl
@[simp] theorem State.updGrp_poison (s : State) (g : Nat) (f : Svc → Svc) : (s.updGrp g f).poison = s.poison := rfl
@[simp] theorem State.updGrp_ecc (s : State) (g : Nat) (f : Svc → Svc) : (s.updGrp g f).ecc = s.ecc := rfl
@[simp] theorem State.updGrp_lnd (s : State) (g : Nat) (f : Svc → Svc) : (s.updGrp g f).lnd = s.lnd := rfl
@[simp] theorem State.updGrp_coh (s : State) (g : Nat) (f : Svc → Svc) : (s.updGrp g f).coh = s.coh := rfl
@[simp] theorem State.updGrp_gal (s : State) (g : Nat) (f : Svc → Svc) : (s.updGrp g f).gal = s.gal := rfl
@[simp] theorem State.updGrp_tru (s : State) (g : Nat) (f : Svc → Svc) : (s.updGrp g f).tru = s.tru := rfl
@[simp] theorem State.updGrp_flt (s : State) (g : Nat) (f : Svc → Svc) : (s.updGrp g f).flt = s.flt := rfl
@[simp] theorem State.updGrp_mp (s : State) (g : Nat) (f : Svc → Svc) : (s.updGrp g f).mp = s.mp := rfl
@[simp] theorem State.updGrp_pwr (s : State) (g : Nat) (f : Svc → Svc) : (s.updGrp g f).pwr = s.pwr := rfl
@[simp] theorem State.updGrp_start (s : State) (g : Nat) (f : Svc → Svc) : (s.updGrp g f).start = s.start := rfl
@[simp] theorem State.updGrp_fresh (s : State) (g : Nat) (f : Svc → Svc) : (s.updGrp g f).fresh = s.fresh := rfl
@[simp] theorem State.updGrp_out (s : State) (g : Nat) (f : Svc → Svc) : (s.updGrp g f).out = s.out := rfl
@[simp] theorem State.updGrp_pending (s : State) (g : Nat) (f : Svc → Svc) : (s.updGrp g f).pending = s.pending := rfl
@[simp] theorem State.updGrp_port (s : State) (g : Nat) (f : Svc → Svc) (p' : Nat) : (s.updGrp g f).port p' = s.port p' := rfl
@[simp] theorem State.updGrp_fn (s : State) (g : Nat) (f : Svc → Svc) (k' : Nat) : (s.updGrp g f).fn k' = s.fn k' := rfl
@[simp] theorem State.updGrp_queue (s : State) (g : Nat) (f : Svc → Svc) (k' q' : Nat) : (s.updGrp g f).queue k' q' = s.queue k' q' := rfl
@[simp] theorem State.updGrp_win (s : State) (g : Nat) (f : Svc → Svc) (m' w' : Nat) : (s.updGrp g f).win m' w' = s.win m' w' := rfl
@[simp] theorem State.updGrp_entry (s : State) (g : Nat) (f : Svc → Svc) (i' : Nat) : (s.updGrp g f).entry i' = s.entry i' := rfl
@[simp] theorem State.updGrp_link (s : State) (g : Nat) (f : Svc → Svc) (l' : Nat) : (s.updGrp g f).link l' = s.link l' := rfl
@[simp] theorem State.updGrp_group (s : State) (g : Nat) (f : Svc → Svc) (g' : Nat) : (s.updGrp g f).group g' = s.group g' := rfl
@[simp] theorem State.updGrp_flow (s : State) (g : Nat) (f : Svc → Svc) (i' g' : Nat) : (s.updGrp g f).flow i' g' = s.flow i' g' := rfl
@[simp] theorem State.updGrp_le (s : State) (g : Nat) (f : Svc → Svc) (e' : Nat) : (s.updGrp g f).le e' = s.le e' := rfl
@[simp] theorem State.updGrp_pe (s : State) (g : Nat) (f : Svc → Svc) (n' : Nat) : (s.updGrp g f).pe n' = s.pe n' := rfl
@[simp] theorem State.updGrp_engCl (s : State) (g : Nat) (f : Svc → Svc) (c' : Nat) : (s.updGrp g f).engCl c' = s.engCl c' := rfl
@[simp] theorem State.updGrp_memCl (s : State) (g : Nat) (f : Svc → Svc) (c' : Nat) : (s.updGrp g f).memCl c' = s.memCl c' := rfl
@[simp] theorem State.updGrp_home (s : State) (g : Nat) (f : Svc → Svc) (h' : Nat) : (s.updGrp g f).home h' = s.home h' := rfl
@[simp] theorem State.updGrp_slot (s : State) (g : Nat) (f : Svc → Svc) (i' : Nat) : (s.updGrp g f).slot i' = s.slot i' := rfl
@[simp] theorem State.updGrp_grp (s : State) (g : Nat) (f : Svc → Svc) : (s.updGrp g f).grp g = f (s.grp g) := Sp.look_upd_self _ _ _ _
theorem State.updGrp_grp_ne (s : State) (g : Nat) (f : Svc → Svc) (g' : Nat) (hn : g' ≠ g) : (s.updGrp g f).grp g' = s.grp g' := Sp.look_upd_ne _ _ _ _ _ hn
@[simp] theorem State.updGrp_coder (s : State) (g : Nat) (f : Svc → Svc) (c' : Nat) : (s.updGrp g f).coder c' = s.coder c' := rfl
@[simp] theorem State.updGrp_live (s : State) (g : Nat) (f : Svc → Svc) : (s.updGrp g f).live = s.live := rfl
@[simp] theorem State.updGrp_on (s : State) (g : Nat) (f : Svc → Svc) : (s.updGrp g f).on = s.on := rfl
@[simp] theorem State.updGrp_isReady (s : State) (g : Nat) (f : Svc → Svc) : (s.updGrp g f).isReady = s.isReady := rfl

/-! ## updCoder -/

@[simp] theorem State.updCoder_tick (s : State) (c : Nat) (f : Svc → Svc) : (s.updCoder c f).tick = s.tick := rfl
@[simp] theorem State.updCoder_ports (s : State) (c : Nat) (f : Svc → Svc) : (s.updCoder c f).ports = s.ports := rfl
@[simp] theorem State.updCoder_qm (s : State) (c : Nat) (f : Svc → Svc) : (s.updCoder c f).qm = s.qm := rfl
@[simp] theorem State.updCoder_tly (s : State) (c : Nat) (f : Svc → Svc) : (s.updCoder c f).tly = s.tly := rfl
@[simp] theorem State.updCoder_deck (s : State) (c : Nat) (f : Svc → Svc) : (s.updCoder c f).deck = s.deck := rfl
@[simp] theorem State.updCoder_ch (s : State) (c : Nat) (f : Svc → Svc) : (s.updCoder c f).ch = s.ch := rfl
@[simp] theorem State.updCoder_eng (s : State) (c : Nat) (f : Svc → Svc) : (s.updCoder c f).eng = s.eng := rfl
@[simp] theorem State.updCoder_mem (s : State) (c : Nat) (f : Svc → Svc) : (s.updCoder c f).mem = s.mem := rfl
@[simp] theorem State.updCoder_bytes (s : State) (c : Nat) (f : Svc → Svc) : (s.updCoder c f).bytes = s.bytes := rfl
@[simp] theorem State.updCoder_poison (s : State) (c : Nat) (f : Svc → Svc) : (s.updCoder c f).poison = s.poison := rfl
@[simp] theorem State.updCoder_ecc (s : State) (c : Nat) (f : Svc → Svc) : (s.updCoder c f).ecc = s.ecc := rfl
@[simp] theorem State.updCoder_lnd (s : State) (c : Nat) (f : Svc → Svc) : (s.updCoder c f).lnd = s.lnd := rfl
@[simp] theorem State.updCoder_coh (s : State) (c : Nat) (f : Svc → Svc) : (s.updCoder c f).coh = s.coh := rfl
@[simp] theorem State.updCoder_cph (s : State) (c : Nat) (f : Svc → Svc) : (s.updCoder c f).cph = s.cph := rfl
@[simp] theorem State.updCoder_tru (s : State) (c : Nat) (f : Svc → Svc) : (s.updCoder c f).tru = s.tru := rfl
@[simp] theorem State.updCoder_flt (s : State) (c : Nat) (f : Svc → Svc) : (s.updCoder c f).flt = s.flt := rfl
@[simp] theorem State.updCoder_mp (s : State) (c : Nat) (f : Svc → Svc) : (s.updCoder c f).mp = s.mp := rfl
@[simp] theorem State.updCoder_pwr (s : State) (c : Nat) (f : Svc → Svc) : (s.updCoder c f).pwr = s.pwr := rfl
@[simp] theorem State.updCoder_start (s : State) (c : Nat) (f : Svc → Svc) : (s.updCoder c f).start = s.start := rfl
@[simp] theorem State.updCoder_fresh (s : State) (c : Nat) (f : Svc → Svc) : (s.updCoder c f).fresh = s.fresh := rfl
@[simp] theorem State.updCoder_out (s : State) (c : Nat) (f : Svc → Svc) : (s.updCoder c f).out = s.out := rfl
@[simp] theorem State.updCoder_pending (s : State) (c : Nat) (f : Svc → Svc) : (s.updCoder c f).pending = s.pending := rfl
@[simp] theorem State.updCoder_port (s : State) (c : Nat) (f : Svc → Svc) (p' : Nat) : (s.updCoder c f).port p' = s.port p' := rfl
@[simp] theorem State.updCoder_fn (s : State) (c : Nat) (f : Svc → Svc) (k' : Nat) : (s.updCoder c f).fn k' = s.fn k' := rfl
@[simp] theorem State.updCoder_queue (s : State) (c : Nat) (f : Svc → Svc) (k' q' : Nat) : (s.updCoder c f).queue k' q' = s.queue k' q' := rfl
@[simp] theorem State.updCoder_win (s : State) (c : Nat) (f : Svc → Svc) (m' w' : Nat) : (s.updCoder c f).win m' w' = s.win m' w' := rfl
@[simp] theorem State.updCoder_entry (s : State) (c : Nat) (f : Svc → Svc) (i' : Nat) : (s.updCoder c f).entry i' = s.entry i' := rfl
@[simp] theorem State.updCoder_link (s : State) (c : Nat) (f : Svc → Svc) (l' : Nat) : (s.updCoder c f).link l' = s.link l' := rfl
@[simp] theorem State.updCoder_group (s : State) (c : Nat) (f : Svc → Svc) (g' : Nat) : (s.updCoder c f).group g' = s.group g' := rfl
@[simp] theorem State.updCoder_flow (s : State) (c : Nat) (f : Svc → Svc) (i' g' : Nat) : (s.updCoder c f).flow i' g' = s.flow i' g' := rfl
@[simp] theorem State.updCoder_le (s : State) (c : Nat) (f : Svc → Svc) (e' : Nat) : (s.updCoder c f).le e' = s.le e' := rfl
@[simp] theorem State.updCoder_pe (s : State) (c : Nat) (f : Svc → Svc) (n' : Nat) : (s.updCoder c f).pe n' = s.pe n' := rfl
@[simp] theorem State.updCoder_engCl (s : State) (c : Nat) (f : Svc → Svc) (c' : Nat) : (s.updCoder c f).engCl c' = s.engCl c' := rfl
@[simp] theorem State.updCoder_memCl (s : State) (c : Nat) (f : Svc → Svc) (c' : Nat) : (s.updCoder c f).memCl c' = s.memCl c' := rfl
@[simp] theorem State.updCoder_home (s : State) (c : Nat) (f : Svc → Svc) (h' : Nat) : (s.updCoder c f).home h' = s.home h' := rfl
@[simp] theorem State.updCoder_slot (s : State) (c : Nat) (f : Svc → Svc) (i' : Nat) : (s.updCoder c f).slot i' = s.slot i' := rfl
@[simp] theorem State.updCoder_grp (s : State) (c : Nat) (f : Svc → Svc) (g' : Nat) : (s.updCoder c f).grp g' = s.grp g' := rfl
@[simp] theorem State.updCoder_coder (s : State) (c : Nat) (f : Svc → Svc) : (s.updCoder c f).coder c = f (s.coder c) := Sp.look_upd_self _ _ _ _
theorem State.updCoder_coder_ne (s : State) (c : Nat) (f : Svc → Svc) (c' : Nat) (hn : c' ≠ c) : (s.updCoder c f).coder c' = s.coder c' := Sp.look_upd_ne _ _ _ _ _ hn
@[simp] theorem State.updCoder_live (s : State) (c : Nat) (f : Svc → Svc) : (s.updCoder c f).live = s.live := rfl
@[simp] theorem State.updCoder_on (s : State) (c : Nat) (f : Svc → Svc) : (s.updCoder c f).on = s.on := rfl
@[simp] theorem State.updCoder_isReady (s : State) (c : Nat) (f : Svc → Svc) : (s.updCoder c f).isReady = s.isReady := rfl

/-! ## emit -/

@[simp] theorem State.emit_tick (s : State) (o : Out) : (s.emit o).tick = s.tick := rfl
@[simp] theorem State.emit_ports (s : State) (o : Out) : (s.emit o).ports = s.ports := rfl
@[simp] theorem State.emit_qm (s : State) (o : Out) : (s.emit o).qm = s.qm := rfl
@[simp] theorem State.emit_tly (s : State) (o : Out) : (s.emit o).tly = s.tly := rfl
@[simp] theorem State.emit_deck (s : State) (o : Out) : (s.emit o).deck = s.deck := rfl
@[simp] theorem State.emit_ch (s : State) (o : Out) : (s.emit o).ch = s.ch := rfl
@[simp] theorem State.emit_eng (s : State) (o : Out) : (s.emit o).eng = s.eng := rfl
@[simp] theorem State.emit_mem (s : State) (o : Out) : (s.emit o).mem = s.mem := rfl
@[simp] theorem State.emit_bytes (s : State) (o : Out) : (s.emit o).bytes = s.bytes := rfl
@[simp] theorem State.emit_poison (s : State) (o : Out) : (s.emit o).poison = s.poison := rfl
@[simp] theorem State.emit_ecc (s : State) (o : Out) : (s.emit o).ecc = s.ecc := rfl
@[simp] theorem State.emit_lnd (s : State) (o : Out) : (s.emit o).lnd = s.lnd := rfl
@[simp] theorem State.emit_coh (s : State) (o : Out) : (s.emit o).coh = s.coh := rfl
@[simp] theorem State.emit_cph (s : State) (o : Out) : (s.emit o).cph = s.cph := rfl
@[simp] theorem State.emit_gal (s : State) (o : Out) : (s.emit o).gal = s.gal := rfl
@[simp] theorem State.emit_tru (s : State) (o : Out) : (s.emit o).tru = s.tru := rfl
@[simp] theorem State.emit_flt (s : State) (o : Out) : (s.emit o).flt = s.flt := rfl
@[simp] theorem State.emit_mp (s : State) (o : Out) : (s.emit o).mp = s.mp := rfl
@[simp] theorem State.emit_pwr (s : State) (o : Out) : (s.emit o).pwr = s.pwr := rfl
@[simp] theorem State.emit_start (s : State) (o : Out) : (s.emit o).start = s.start := rfl
@[simp] theorem State.emit_fresh (s : State) (o : Out) : (s.emit o).fresh = s.fresh := rfl
@[simp] theorem State.emit_out (s : State) (o : Out) : (s.emit o).out = s.out ++ [o] := rfl
@[simp] theorem State.emit_pending (s : State) (o : Out) : (s.emit o).pending = s.pending := rfl
@[simp] theorem State.emit_port (s : State) (o : Out) (p' : Nat) : (s.emit o).port p' = s.port p' := rfl
@[simp] theorem State.emit_fn (s : State) (o : Out) (k' : Nat) : (s.emit o).fn k' = s.fn k' := rfl
@[simp] theorem State.emit_queue (s : State) (o : Out) (k' q' : Nat) : (s.emit o).queue k' q' = s.queue k' q' := rfl
@[simp] theorem State.emit_win (s : State) (o : Out) (m' w' : Nat) : (s.emit o).win m' w' = s.win m' w' := rfl
@[simp] theorem State.emit_entry (s : State) (o : Out) (i' : Nat) : (s.emit o).entry i' = s.entry i' := rfl
@[simp] theorem State.emit_link (s : State) (o : Out) (l' : Nat) : (s.emit o).link l' = s.link l' := rfl
@[simp] theorem State.emit_group (s : State) (o : Out) (g' : Nat) : (s.emit o).group g' = s.group g' := rfl
@[simp] theorem State.emit_flow (s : State) (o : Out) (i' g' : Nat) : (s.emit o).flow i' g' = s.flow i' g' := rfl
@[simp] theorem State.emit_le (s : State) (o : Out) (e' : Nat) : (s.emit o).le e' = s.le e' := rfl
@[simp] theorem State.emit_pe (s : State) (o : Out) (n' : Nat) : (s.emit o).pe n' = s.pe n' := rfl
@[simp] theorem State.emit_engCl (s : State) (o : Out) (c' : Nat) : (s.emit o).engCl c' = s.engCl c' := rfl
@[simp] theorem State.emit_memCl (s : State) (o : Out) (c' : Nat) : (s.emit o).memCl c' = s.memCl c' := rfl
@[simp] theorem State.emit_home (s : State) (o : Out) (h' : Nat) : (s.emit o).home h' = s.home h' := rfl
@[simp] theorem State.emit_slot (s : State) (o : Out) (i' : Nat) : (s.emit o).slot i' = s.slot i' := rfl
@[simp] theorem State.emit_grp (s : State) (o : Out) (g' : Nat) : (s.emit o).grp g' = s.grp g' := rfl
@[simp] theorem State.emit_coder (s : State) (o : Out) (c' : Nat) : (s.emit o).coder c' = s.coder c' := rfl
@[simp] theorem State.emit_live (s : State) (o : Out) : (s.emit o).live = s.live := rfl
@[simp] theorem State.emit_on (s : State) (o : Out) : (s.emit o).on = s.on := rfl
@[simp] theorem State.emit_isReady (s : State) (o : Out) : (s.emit o).isReady = s.isReady := rfl

/-! ## setFlt -/

@[simp] theorem State.setFlt_tick (s : State) (f : Flt → Flt) : (s.setFlt f).tick = s.tick := rfl
@[simp] theorem State.setFlt_ports (s : State) (f : Flt → Flt) : (s.setFlt f).ports = s.ports := rfl
@[simp] theorem State.setFlt_qm (s : State) (f : Flt → Flt) : (s.setFlt f).qm = s.qm := rfl
@[simp] theorem State.setFlt_tly (s : State) (f : Flt → Flt) : (s.setFlt f).tly = s.tly := rfl
@[simp] theorem State.setFlt_deck (s : State) (f : Flt → Flt) : (s.setFlt f).deck = s.deck := rfl
@[simp] theorem State.setFlt_ch (s : State) (f : Flt → Flt) : (s.setFlt f).ch = s.ch := rfl
@[simp] theorem State.setFlt_eng (s : State) (f : Flt → Flt) : (s.setFlt f).eng = s.eng := rfl
@[simp] theorem State.setFlt_mem (s : State) (f : Flt → Flt) : (s.setFlt f).mem = s.mem := rfl
@[simp] theorem State.setFlt_bytes (s : State) (f : Flt → Flt) : (s.setFlt f).bytes = s.bytes := rfl
@[simp] theorem State.setFlt_poison (s : State) (f : Flt → Flt) : (s.setFlt f).poison = s.poison := rfl
@[simp] theorem State.setFlt_ecc (s : State) (f : Flt → Flt) : (s.setFlt f).ecc = s.ecc := rfl
@[simp] theorem State.setFlt_lnd (s : State) (f : Flt → Flt) : (s.setFlt f).lnd = s.lnd := rfl
@[simp] theorem State.setFlt_coh (s : State) (f : Flt → Flt) : (s.setFlt f).coh = s.coh := rfl
@[simp] theorem State.setFlt_cph (s : State) (f : Flt → Flt) : (s.setFlt f).cph = s.cph := rfl
@[simp] theorem State.setFlt_gal (s : State) (f : Flt → Flt) : (s.setFlt f).gal = s.gal := rfl
@[simp] theorem State.setFlt_tru (s : State) (f : Flt → Flt) : (s.setFlt f).tru = s.tru := rfl
@[simp] theorem State.setFlt_flt (s : State) (f : Flt → Flt) : (s.setFlt f).flt = f s.flt := rfl
@[simp] theorem State.setFlt_mp (s : State) (f : Flt → Flt) : (s.setFlt f).mp = s.mp := rfl
@[simp] theorem State.setFlt_pwr (s : State) (f : Flt → Flt) : (s.setFlt f).pwr = s.pwr := rfl
@[simp] theorem State.setFlt_start (s : State) (f : Flt → Flt) : (s.setFlt f).start = s.start := rfl
@[simp] theorem State.setFlt_fresh (s : State) (f : Flt → Flt) : (s.setFlt f).fresh = s.fresh := rfl
@[simp] theorem State.setFlt_out (s : State) (f : Flt → Flt) : (s.setFlt f).out = s.out := rfl
@[simp] theorem State.setFlt_pending (s : State) (f : Flt → Flt) : (s.setFlt f).pending = s.pending := rfl
@[simp] theorem State.setFlt_port (s : State) (f : Flt → Flt) (p' : Nat) : (s.setFlt f).port p' = s.port p' := rfl
@[simp] theorem State.setFlt_fn (s : State) (f : Flt → Flt) (k' : Nat) : (s.setFlt f).fn k' = s.fn k' := rfl
@[simp] theorem State.setFlt_queue (s : State) (f : Flt → Flt) (k' q' : Nat) : (s.setFlt f).queue k' q' = s.queue k' q' := rfl
@[simp] theorem State.setFlt_win (s : State) (f : Flt → Flt) (m' w' : Nat) : (s.setFlt f).win m' w' = s.win m' w' := rfl
@[simp] theorem State.setFlt_entry (s : State) (f : Flt → Flt) (i' : Nat) : (s.setFlt f).entry i' = s.entry i' := rfl
@[simp] theorem State.setFlt_link (s : State) (f : Flt → Flt) (l' : Nat) : (s.setFlt f).link l' = s.link l' := rfl
@[simp] theorem State.setFlt_group (s : State) (f : Flt → Flt) (g' : Nat) : (s.setFlt f).group g' = s.group g' := rfl
@[simp] theorem State.setFlt_flow (s : State) (f : Flt → Flt) (i' g' : Nat) : (s.setFlt f).flow i' g' = s.flow i' g' := rfl
@[simp] theorem State.setFlt_le (s : State) (f : Flt → Flt) (e' : Nat) : (s.setFlt f).le e' = s.le e' := rfl
@[simp] theorem State.setFlt_pe (s : State) (f : Flt → Flt) (n' : Nat) : (s.setFlt f).pe n' = s.pe n' := rfl
@[simp] theorem State.setFlt_engCl (s : State) (f : Flt → Flt) (c' : Nat) : (s.setFlt f).engCl c' = s.engCl c' := rfl
@[simp] theorem State.setFlt_memCl (s : State) (f : Flt → Flt) (c' : Nat) : (s.setFlt f).memCl c' = s.memCl c' := rfl
@[simp] theorem State.setFlt_home (s : State) (f : Flt → Flt) (h' : Nat) : (s.setFlt f).home h' = s.home h' := rfl
@[simp] theorem State.setFlt_slot (s : State) (f : Flt → Flt) (i' : Nat) : (s.setFlt f).slot i' = s.slot i' := rfl
@[simp] theorem State.setFlt_grp (s : State) (f : Flt → Flt) (g' : Nat) : (s.setFlt f).grp g' = s.grp g' := rfl
@[simp] theorem State.setFlt_coder (s : State) (f : Flt → Flt) (c' : Nat) : (s.setFlt f).coder c' = s.coder c' := rfl
@[simp] theorem State.setFlt_on (s : State) (f : Flt → Flt) : (s.setFlt f).on = s.on := rfl
@[simp] theorem State.setFlt_isReady (s : State) (f : Flt → Flt) : (s.setFlt f).isReady = s.isReady := rfl

/-! ## setTly -/

@[simp] theorem State.setTly_tick (s : State) (f : Tally → Tally) : (s.setTly f).tick = s.tick := rfl
@[simp] theorem State.setTly_ports (s : State) (f : Tally → Tally) : (s.setTly f).ports = s.ports := rfl
@[simp] theorem State.setTly_qm (s : State) (f : Tally → Tally) : (s.setTly f).qm = s.qm := rfl
@[simp] theorem State.setTly_tly (s : State) (f : Tally → Tally) : (s.setTly f).tly = f s.tly := rfl
@[simp] theorem State.setTly_deck (s : State) (f : Tally → Tally) : (s.setTly f).deck = s.deck := rfl
@[simp] theorem State.setTly_ch (s : State) (f : Tally → Tally) : (s.setTly f).ch = s.ch := rfl
@[simp] theorem State.setTly_eng (s : State) (f : Tally → Tally) : (s.setTly f).eng = s.eng := rfl
@[simp] theorem State.setTly_mem (s : State) (f : Tally → Tally) : (s.setTly f).mem = s.mem := rfl
@[simp] theorem State.setTly_bytes (s : State) (f : Tally → Tally) : (s.setTly f).bytes = s.bytes := rfl
@[simp] theorem State.setTly_poison (s : State) (f : Tally → Tally) : (s.setTly f).poison = s.poison := rfl
@[simp] theorem State.setTly_ecc (s : State) (f : Tally → Tally) : (s.setTly f).ecc = s.ecc := rfl
@[simp] theorem State.setTly_lnd (s : State) (f : Tally → Tally) : (s.setTly f).lnd = s.lnd := rfl
@[simp] theorem State.setTly_coh (s : State) (f : Tally → Tally) : (s.setTly f).coh = s.coh := rfl
@[simp] theorem State.setTly_cph (s : State) (f : Tally → Tally) : (s.setTly f).cph = s.cph := rfl
@[simp] theorem State.setTly_gal (s : State) (f : Tally → Tally) : (s.setTly f).gal = s.gal := rfl
@[simp] theorem State.setTly_tru (s : State) (f : Tally → Tally) : (s.setTly f).tru = s.tru := rfl
@[simp] theorem State.setTly_flt (s : State) (f : Tally → Tally) : (s.setTly f).flt = s.flt := rfl
@[simp] theorem State.setTly_mp (s : State) (f : Tally → Tally) : (s.setTly f).mp = s.mp := rfl
@[simp] theorem State.setTly_pwr (s : State) (f : Tally → Tally) : (s.setTly f).pwr = s.pwr := rfl
@[simp] theorem State.setTly_start (s : State) (f : Tally → Tally) : (s.setTly f).start = s.start := rfl
@[simp] theorem State.setTly_fresh (s : State) (f : Tally → Tally) : (s.setTly f).fresh = s.fresh := rfl
@[simp] theorem State.setTly_out (s : State) (f : Tally → Tally) : (s.setTly f).out = s.out := rfl
@[simp] theorem State.setTly_pending (s : State) (f : Tally → Tally) : (s.setTly f).pending = s.pending := rfl
@[simp] theorem State.setTly_port (s : State) (f : Tally → Tally) (p' : Nat) : (s.setTly f).port p' = s.port p' := rfl
@[simp] theorem State.setTly_fn (s : State) (f : Tally → Tally) (k' : Nat) : (s.setTly f).fn k' = s.fn k' := rfl
@[simp] theorem State.setTly_queue (s : State) (f : Tally → Tally) (k' q' : Nat) : (s.setTly f).queue k' q' = s.queue k' q' := rfl
@[simp] theorem State.setTly_win (s : State) (f : Tally → Tally) (m' w' : Nat) : (s.setTly f).win m' w' = s.win m' w' := rfl
@[simp] theorem State.setTly_link (s : State) (f : Tally → Tally) (l' : Nat) : (s.setTly f).link l' = s.link l' := rfl
@[simp] theorem State.setTly_group (s : State) (f : Tally → Tally) (g' : Nat) : (s.setTly f).group g' = s.group g' := rfl
@[simp] theorem State.setTly_flow (s : State) (f : Tally → Tally) (i' g' : Nat) : (s.setTly f).flow i' g' = s.flow i' g' := rfl
@[simp] theorem State.setTly_le (s : State) (f : Tally → Tally) (e' : Nat) : (s.setTly f).le e' = s.le e' := rfl
@[simp] theorem State.setTly_pe (s : State) (f : Tally → Tally) (n' : Nat) : (s.setTly f).pe n' = s.pe n' := rfl
@[simp] theorem State.setTly_engCl (s : State) (f : Tally → Tally) (c' : Nat) : (s.setTly f).engCl c' = s.engCl c' := rfl
@[simp] theorem State.setTly_memCl (s : State) (f : Tally → Tally) (c' : Nat) : (s.setTly f).memCl c' = s.memCl c' := rfl
@[simp] theorem State.setTly_home (s : State) (f : Tally → Tally) (h' : Nat) : (s.setTly f).home h' = s.home h' := rfl
@[simp] theorem State.setTly_slot (s : State) (f : Tally → Tally) (i' : Nat) : (s.setTly f).slot i' = s.slot i' := rfl
@[simp] theorem State.setTly_grp (s : State) (f : Tally → Tally) (g' : Nat) : (s.setTly f).grp g' = s.grp g' := rfl
@[simp] theorem State.setTly_coder (s : State) (f : Tally → Tally) (c' : Nat) : (s.setTly f).coder c' = s.coder c' := rfl
@[simp] theorem State.setTly_live (s : State) (f : Tally → Tally) : (s.setTly f).live = s.live := rfl
@[simp] theorem State.setTly_on (s : State) (f : Tally → Tally) : (s.setTly f).on = s.on := rfl
@[simp] theorem State.setTly_isReady (s : State) (f : Tally → Tally) : (s.setTly f).isReady = s.isReady := rfl

/-! ## setPwr -/

@[simp] theorem State.setPwr_tick (s : State) (f : Pwr → Pwr) : (s.setPwr f).tick = s.tick := rfl
@[simp] theorem State.setPwr_ports (s : State) (f : Pwr → Pwr) : (s.setPwr f).ports = s.ports := rfl
@[simp] theorem State.setPwr_qm (s : State) (f : Pwr → Pwr) : (s.setPwr f).qm = s.qm := rfl
@[simp] theorem State.setPwr_tly (s : State) (f : Pwr → Pwr) : (s.setPwr f).tly = s.tly := rfl
@[simp] theorem State.setPwr_deck (s : State) (f : Pwr → Pwr) : (s.setPwr f).deck = s.deck := rfl
@[simp] theorem State.setPwr_ch (s : State) (f : Pwr → Pwr) : (s.setPwr f).ch = s.ch := rfl
@[simp] theorem State.setPwr_eng (s : State) (f : Pwr → Pwr) : (s.setPwr f).eng = s.eng := rfl
@[simp] theorem State.setPwr_mem (s : State) (f : Pwr → Pwr) : (s.setPwr f).mem = s.mem := rfl
@[simp] theorem State.setPwr_bytes (s : State) (f : Pwr → Pwr) : (s.setPwr f).bytes = s.bytes := rfl
@[simp] theorem State.setPwr_poison (s : State) (f : Pwr → Pwr) : (s.setPwr f).poison = s.poison := rfl
@[simp] theorem State.setPwr_ecc (s : State) (f : Pwr → Pwr) : (s.setPwr f).ecc = s.ecc := rfl
@[simp] theorem State.setPwr_lnd (s : State) (f : Pwr → Pwr) : (s.setPwr f).lnd = s.lnd := rfl
@[simp] theorem State.setPwr_coh (s : State) (f : Pwr → Pwr) : (s.setPwr f).coh = s.coh := rfl
@[simp] theorem State.setPwr_cph (s : State) (f : Pwr → Pwr) : (s.setPwr f).cph = s.cph := rfl
@[simp] theorem State.setPwr_gal (s : State) (f : Pwr → Pwr) : (s.setPwr f).gal = s.gal := rfl
@[simp] theorem State.setPwr_tru (s : State) (f : Pwr → Pwr) : (s.setPwr f).tru = s.tru := rfl
@[simp] theorem State.setPwr_flt (s : State) (f : Pwr → Pwr) : (s.setPwr f).flt = s.flt := rfl
@[simp] theorem State.setPwr_mp (s : State) (f : Pwr → Pwr) : (s.setPwr f).mp = s.mp := rfl
@[simp] theorem State.setPwr_pwr (s : State) (f : Pwr → Pwr) : (s.setPwr f).pwr = f s.pwr := rfl
@[simp] theorem State.setPwr_start (s : State) (f : Pwr → Pwr) : (s.setPwr f).start = s.start := rfl
@[simp] theorem State.setPwr_fresh (s : State) (f : Pwr → Pwr) : (s.setPwr f).fresh = s.fresh := rfl
@[simp] theorem State.setPwr_out (s : State) (f : Pwr → Pwr) : (s.setPwr f).out = s.out := rfl
@[simp] theorem State.setPwr_pending (s : State) (f : Pwr → Pwr) : (s.setPwr f).pending = s.pending := rfl
@[simp] theorem State.setPwr_port (s : State) (f : Pwr → Pwr) (p' : Nat) : (s.setPwr f).port p' = s.port p' := rfl
@[simp] theorem State.setPwr_fn (s : State) (f : Pwr → Pwr) (k' : Nat) : (s.setPwr f).fn k' = s.fn k' := rfl
@[simp] theorem State.setPwr_queue (s : State) (f : Pwr → Pwr) (k' q' : Nat) : (s.setPwr f).queue k' q' = s.queue k' q' := rfl
@[simp] theorem State.setPwr_win (s : State) (f : Pwr → Pwr) (m' w' : Nat) : (s.setPwr f).win m' w' = s.win m' w' := rfl
@[simp] theorem State.setPwr_entry (s : State) (f : Pwr → Pwr) (i' : Nat) : (s.setPwr f).entry i' = s.entry i' := rfl
@[simp] theorem State.setPwr_link (s : State) (f : Pwr → Pwr) (l' : Nat) : (s.setPwr f).link l' = s.link l' := rfl
@[simp] theorem State.setPwr_group (s : State) (f : Pwr → Pwr) (g' : Nat) : (s.setPwr f).group g' = s.group g' := rfl
@[simp] theorem State.setPwr_flow (s : State) (f : Pwr → Pwr) (i' g' : Nat) : (s.setPwr f).flow i' g' = s.flow i' g' := rfl
@[simp] theorem State.setPwr_le (s : State) (f : Pwr → Pwr) (e' : Nat) : (s.setPwr f).le e' = s.le e' := rfl
@[simp] theorem State.setPwr_pe (s : State) (f : Pwr → Pwr) (n' : Nat) : (s.setPwr f).pe n' = s.pe n' := rfl
@[simp] theorem State.setPwr_engCl (s : State) (f : Pwr → Pwr) (c' : Nat) : (s.setPwr f).engCl c' = s.engCl c' := rfl
@[simp] theorem State.setPwr_memCl (s : State) (f : Pwr → Pwr) (c' : Nat) : (s.setPwr f).memCl c' = s.memCl c' := rfl
@[simp] theorem State.setPwr_home (s : State) (f : Pwr → Pwr) (h' : Nat) : (s.setPwr f).home h' = s.home h' := rfl
@[simp] theorem State.setPwr_slot (s : State) (f : Pwr → Pwr) (i' : Nat) : (s.setPwr f).slot i' = s.slot i' := rfl
@[simp] theorem State.setPwr_grp (s : State) (f : Pwr → Pwr) (g' : Nat) : (s.setPwr f).grp g' = s.grp g' := rfl
@[simp] theorem State.setPwr_coder (s : State) (f : Pwr → Pwr) (c' : Nat) : (s.setPwr f).coder c' = s.coder c' := rfl
@[simp] theorem State.setPwr_isReady (s : State) (f : Pwr → Pwr) : (s.setPwr f).isReady = s.isReady := rfl

/-! ## setTru -/

@[simp] theorem State.setTru_tick (s : State) (f : Tru → Tru) : (s.setTru f).tick = s.tick := rfl
@[simp] theorem State.setTru_ports (s : State) (f : Tru → Tru) : (s.setTru f).ports = s.ports := rfl
@[simp] theorem State.setTru_qm (s : State) (f : Tru → Tru) : (s.setTru f).qm = s.qm := rfl
@[simp] theorem State.setTru_tly (s : State) (f : Tru → Tru) : (s.setTru f).tly = s.tly := rfl
@[simp] theorem State.setTru_deck (s : State) (f : Tru → Tru) : (s.setTru f).deck = s.deck := rfl
@[simp] theorem State.setTru_ch (s : State) (f : Tru → Tru) : (s.setTru f).ch = s.ch := rfl
@[simp] theorem State.setTru_eng (s : State) (f : Tru → Tru) : (s.setTru f).eng = s.eng := rfl
@[simp] theorem State.setTru_mem (s : State) (f : Tru → Tru) : (s.setTru f).mem = s.mem := rfl
@[simp] theorem State.setTru_bytes (s : State) (f : Tru → Tru) : (s.setTru f).bytes = s.bytes := rfl
@[simp] theorem State.setTru_poison (s : State) (f : Tru → Tru) : (s.setTru f).poison = s.poison := rfl
@[simp] theorem State.setTru_ecc (s : State) (f : Tru → Tru) : (s.setTru f).ecc = s.ecc := rfl
@[simp] theorem State.setTru_lnd (s : State) (f : Tru → Tru) : (s.setTru f).lnd = s.lnd := rfl
@[simp] theorem State.setTru_coh (s : State) (f : Tru → Tru) : (s.setTru f).coh = s.coh := rfl
@[simp] theorem State.setTru_cph (s : State) (f : Tru → Tru) : (s.setTru f).cph = s.cph := rfl
@[simp] theorem State.setTru_gal (s : State) (f : Tru → Tru) : (s.setTru f).gal = s.gal := rfl
@[simp] theorem State.setTru_tru (s : State) (f : Tru → Tru) : (s.setTru f).tru = f s.tru := rfl
@[simp] theorem State.setTru_flt (s : State) (f : Tru → Tru) : (s.setTru f).flt = s.flt := rfl
@[simp] theorem State.setTru_mp (s : State) (f : Tru → Tru) : (s.setTru f).mp = s.mp := rfl
@[simp] theorem State.setTru_pwr (s : State) (f : Tru → Tru) : (s.setTru f).pwr = s.pwr := rfl
@[simp] theorem State.setTru_start (s : State) (f : Tru → Tru) : (s.setTru f).start = s.start := rfl
@[simp] theorem State.setTru_fresh (s : State) (f : Tru → Tru) : (s.setTru f).fresh = s.fresh := rfl
@[simp] theorem State.setTru_out (s : State) (f : Tru → Tru) : (s.setTru f).out = s.out := rfl
@[simp] theorem State.setTru_pending (s : State) (f : Tru → Tru) : (s.setTru f).pending = s.pending := rfl
@[simp] theorem State.setTru_port (s : State) (f : Tru → Tru) (p' : Nat) : (s.setTru f).port p' = s.port p' := rfl
@[simp] theorem State.setTru_fn (s : State) (f : Tru → Tru) (k' : Nat) : (s.setTru f).fn k' = s.fn k' := rfl
@[simp] theorem State.setTru_queue (s : State) (f : Tru → Tru) (k' q' : Nat) : (s.setTru f).queue k' q' = s.queue k' q' := rfl
@[simp] theorem State.setTru_win (s : State) (f : Tru → Tru) (m' w' : Nat) : (s.setTru f).win m' w' = s.win m' w' := rfl
@[simp] theorem State.setTru_entry (s : State) (f : Tru → Tru) (i' : Nat) : (s.setTru f).entry i' = s.entry i' := rfl
@[simp] theorem State.setTru_link (s : State) (f : Tru → Tru) (l' : Nat) : (s.setTru f).link l' = s.link l' := rfl
@[simp] theorem State.setTru_group (s : State) (f : Tru → Tru) (g' : Nat) : (s.setTru f).group g' = s.group g' := rfl
@[simp] theorem State.setTru_flow (s : State) (f : Tru → Tru) (i' g' : Nat) : (s.setTru f).flow i' g' = s.flow i' g' := rfl
@[simp] theorem State.setTru_le (s : State) (f : Tru → Tru) (e' : Nat) : (s.setTru f).le e' = s.le e' := rfl
@[simp] theorem State.setTru_pe (s : State) (f : Tru → Tru) (n' : Nat) : (s.setTru f).pe n' = s.pe n' := rfl
@[simp] theorem State.setTru_engCl (s : State) (f : Tru → Tru) (c' : Nat) : (s.setTru f).engCl c' = s.engCl c' := rfl
@[simp] theorem State.setTru_memCl (s : State) (f : Tru → Tru) (c' : Nat) : (s.setTru f).memCl c' = s.memCl c' := rfl
@[simp] theorem State.setTru_home (s : State) (f : Tru → Tru) (h' : Nat) : (s.setTru f).home h' = s.home h' := rfl
@[simp] theorem State.setTru_slot (s : State) (f : Tru → Tru) (i' : Nat) : (s.setTru f).slot i' = s.slot i' := rfl
@[simp] theorem State.setTru_grp (s : State) (f : Tru → Tru) (g' : Nat) : (s.setTru f).grp g' = s.grp g' := rfl
@[simp] theorem State.setTru_coder (s : State) (f : Tru → Tru) (c' : Nat) : (s.setTru f).coder c' = s.coder c' := rfl
@[simp] theorem State.setTru_live (s : State) (f : Tru → Tru) : (s.setTru f).live = s.live := rfl
@[simp] theorem State.setTru_on (s : State) (f : Tru → Tru) : (s.setTru f).on = s.on := rfl
@[simp] theorem State.setTru_isReady (s : State) (f : Tru → Tru) : (s.setTru f).isReady = s.isReady := rfl

/-! ## setMp -/

@[simp] theorem State.setMp_tick (s : State) (f : Mp → Mp) : (s.setMp f).tick = s.tick := rfl
@[simp] theorem State.setMp_ports (s : State) (f : Mp → Mp) : (s.setMp f).ports = s.ports := rfl
@[simp] theorem State.setMp_qm (s : State) (f : Mp → Mp) : (s.setMp f).qm = s.qm := rfl
@[simp] theorem State.setMp_tly (s : State) (f : Mp → Mp) : (s.setMp f).tly = s.tly := rfl
@[simp] theorem State.setMp_deck (s : State) (f : Mp → Mp) : (s.setMp f).deck = s.deck := rfl
@[simp] theorem State.setMp_ch (s : State) (f : Mp → Mp) : (s.setMp f).ch = s.ch := rfl
@[simp] theorem State.setMp_eng (s : State) (f : Mp → Mp) : (s.setMp f).eng = s.eng := rfl
@[simp] theorem State.setMp_mem (s : State) (f : Mp → Mp) : (s.setMp f).mem = s.mem := rfl
@[simp] theorem State.setMp_bytes (s : State) (f : Mp → Mp) : (s.setMp f).bytes = s.bytes := rfl
@[simp] theorem State.setMp_poison (s : State) (f : Mp → Mp) : (s.setMp f).poison = s.poison := rfl
@[simp] theorem State.setMp_ecc (s : State) (f : Mp → Mp) : (s.setMp f).ecc = s.ecc := rfl
@[simp] theorem State.setMp_lnd (s : State) (f : Mp → Mp) : (s.setMp f).lnd = s.lnd := rfl
@[simp] theorem State.setMp_coh (s : State) (f : Mp → Mp) : (s.setMp f).coh = s.coh := rfl
@[simp] theorem State.setMp_cph (s : State) (f : Mp → Mp) : (s.setMp f).cph = s.cph := rfl
@[simp] theorem State.setMp_gal (s : State) (f : Mp → Mp) : (s.setMp f).gal = s.gal := rfl
@[simp] theorem State.setMp_tru (s : State) (f : Mp → Mp) : (s.setMp f).tru = s.tru := rfl
@[simp] theorem State.setMp_flt (s : State) (f : Mp → Mp) : (s.setMp f).flt = s.flt := rfl
@[simp] theorem State.setMp_mp (s : State) (f : Mp → Mp) : (s.setMp f).mp = f s.mp := rfl
@[simp] theorem State.setMp_pwr (s : State) (f : Mp → Mp) : (s.setMp f).pwr = s.pwr := rfl
@[simp] theorem State.setMp_start (s : State) (f : Mp → Mp) : (s.setMp f).start = s.start := rfl
@[simp] theorem State.setMp_fresh (s : State) (f : Mp → Mp) : (s.setMp f).fresh = s.fresh := rfl
@[simp] theorem State.setMp_out (s : State) (f : Mp → Mp) : (s.setMp f).out = s.out := rfl
@[simp] theorem State.setMp_pending (s : State) (f : Mp → Mp) : (s.setMp f).pending = s.pending := rfl
@[simp] theorem State.setMp_port (s : State) (f : Mp → Mp) (p' : Nat) : (s.setMp f).port p' = s.port p' := rfl
@[simp] theorem State.setMp_fn (s : State) (f : Mp → Mp) (k' : Nat) : (s.setMp f).fn k' = s.fn k' := rfl
@[simp] theorem State.setMp_queue (s : State) (f : Mp → Mp) (k' q' : Nat) : (s.setMp f).queue k' q' = s.queue k' q' := rfl
@[simp] theorem State.setMp_win (s : State) (f : Mp → Mp) (m' w' : Nat) : (s.setMp f).win m' w' = s.win m' w' := rfl
@[simp] theorem State.setMp_entry (s : State) (f : Mp → Mp) (i' : Nat) : (s.setMp f).entry i' = s.entry i' := rfl
@[simp] theorem State.setMp_link (s : State) (f : Mp → Mp) (l' : Nat) : (s.setMp f).link l' = s.link l' := rfl
@[simp] theorem State.setMp_group (s : State) (f : Mp → Mp) (g' : Nat) : (s.setMp f).group g' = s.group g' := rfl
@[simp] theorem State.setMp_flow (s : State) (f : Mp → Mp) (i' g' : Nat) : (s.setMp f).flow i' g' = s.flow i' g' := rfl
@[simp] theorem State.setMp_le (s : State) (f : Mp → Mp) (e' : Nat) : (s.setMp f).le e' = s.le e' := rfl
@[simp] theorem State.setMp_pe (s : State) (f : Mp → Mp) (n' : Nat) : (s.setMp f).pe n' = s.pe n' := rfl
@[simp] theorem State.setMp_engCl (s : State) (f : Mp → Mp) (c' : Nat) : (s.setMp f).engCl c' = s.engCl c' := rfl
@[simp] theorem State.setMp_memCl (s : State) (f : Mp → Mp) (c' : Nat) : (s.setMp f).memCl c' = s.memCl c' := rfl
@[simp] theorem State.setMp_home (s : State) (f : Mp → Mp) (h' : Nat) : (s.setMp f).home h' = s.home h' := rfl
@[simp] theorem State.setMp_slot (s : State) (f : Mp → Mp) (i' : Nat) : (s.setMp f).slot i' = s.slot i' := rfl
@[simp] theorem State.setMp_grp (s : State) (f : Mp → Mp) (g' : Nat) : (s.setMp f).grp g' = s.grp g' := rfl
@[simp] theorem State.setMp_coder (s : State) (f : Mp → Mp) (c' : Nat) : (s.setMp f).coder c' = s.coder c' := rfl
@[simp] theorem State.setMp_live (s : State) (f : Mp → Mp) : (s.setMp f).live = s.live := rfl
@[simp] theorem State.setMp_on (s : State) (f : Mp → Mp) : (s.setMp f).on = s.on := rfl
@[simp] theorem State.setMp_isReady (s : State) (f : Mp → Mp) : (s.setMp f).isReady = s.isReady := rfl

/-! ## setStart -/

@[simp] theorem State.setStart_tick (s : State) (f : Start → Start) : (s.setStart f).tick = s.tick := rfl
@[simp] theorem State.setStart_ports (s : State) (f : Start → Start) : (s.setStart f).ports = s.ports := rfl
@[simp] theorem State.setStart_qm (s : State) (f : Start → Start) : (s.setStart f).qm = s.qm := rfl
@[simp] theorem State.setStart_tly (s : State) (f : Start → Start) : (s.setStart f).tly = s.tly := rfl
@[simp] theorem State.setStart_deck (s : State) (f : Start → Start) : (s.setStart f).deck = s.deck := rfl
@[simp] theorem State.setStart_ch (s : State) (f : Start → Start) : (s.setStart f).ch = s.ch := rfl
@[simp] theorem State.setStart_eng (s : State) (f : Start → Start) : (s.setStart f).eng = s.eng := rfl
@[simp] theorem State.setStart_mem (s : State) (f : Start → Start) : (s.setStart f).mem = s.mem := rfl
@[simp] theorem State.setStart_bytes (s : State) (f : Start → Start) : (s.setStart f).bytes = s.bytes := rfl
@[simp] theorem State.setStart_poison (s : State) (f : Start → Start) : (s.setStart f).poison = s.poison := rfl
@[simp] theorem State.setStart_ecc (s : State) (f : Start → Start) : (s.setStart f).ecc = s.ecc := rfl
@[simp] theorem State.setStart_lnd (s : State) (f : Start → Start) : (s.setStart f).lnd = s.lnd := rfl
@[simp] theorem State.setStart_coh (s : State) (f : Start → Start) : (s.setStart f).coh = s.coh := rfl
@[simp] theorem State.setStart_cph (s : State) (f : Start → Start) : (s.setStart f).cph = s.cph := rfl
@[simp] theorem State.setStart_gal (s : State) (f : Start → Start) : (s.setStart f).gal = s.gal := rfl
@[simp] theorem State.setStart_tru (s : State) (f : Start → Start) : (s.setStart f).tru = s.tru := rfl
@[simp] theorem State.setStart_flt (s : State) (f : Start → Start) : (s.setStart f).flt = s.flt := rfl
@[simp] theorem State.setStart_mp (s : State) (f : Start → Start) : (s.setStart f).mp = s.mp := rfl
@[simp] theorem State.setStart_pwr (s : State) (f : Start → Start) : (s.setStart f).pwr = s.pwr := rfl
@[simp] theorem State.setStart_start (s : State) (f : Start → Start) : (s.setStart f).start = f s.start := rfl
@[simp] theorem State.setStart_fresh (s : State) (f : Start → Start) : (s.setStart f).fresh = s.fresh := rfl
@[simp] theorem State.setStart_out (s : State) (f : Start → Start) : (s.setStart f).out = s.out := rfl
@[simp] theorem State.setStart_pending (s : State) (f : Start → Start) : (s.setStart f).pending = s.pending := rfl
@[simp] theorem State.setStart_port (s : State) (f : Start → Start) (p' : Nat) : (s.setStart f).port p' = s.port p' := rfl
@[simp] theorem State.setStart_fn (s : State) (f : Start → Start) (k' : Nat) : (s.setStart f).fn k' = s.fn k' := rfl
@[simp] theorem State.setStart_queue (s : State) (f : Start → Start) (k' q' : Nat) : (s.setStart f).queue k' q' = s.queue k' q' := rfl
@[simp] theorem State.setStart_win (s : State) (f : Start → Start) (m' w' : Nat) : (s.setStart f).win m' w' = s.win m' w' := rfl
@[simp] theorem State.setStart_entry (s : State) (f : Start → Start) (i' : Nat) : (s.setStart f).entry i' = s.entry i' := rfl
@[simp] theorem State.setStart_link (s : State) (f : Start → Start) (l' : Nat) : (s.setStart f).link l' = s.link l' := rfl
@[simp] theorem State.setStart_group (s : State) (f : Start → Start) (g' : Nat) : (s.setStart f).group g' = s.group g' := rfl
@[simp] theorem State.setStart_flow (s : State) (f : Start → Start) (i' g' : Nat) : (s.setStart f).flow i' g' = s.flow i' g' := rfl
@[simp] theorem State.setStart_le (s : State) (f : Start → Start) (e' : Nat) : (s.setStart f).le e' = s.le e' := rfl
@[simp] theorem State.setStart_pe (s : State) (f : Start → Start) (n' : Nat) : (s.setStart f).pe n' = s.pe n' := rfl
@[simp] theorem State.setStart_engCl (s : State) (f : Start → Start) (c' : Nat) : (s.setStart f).engCl c' = s.engCl c' := rfl
@[simp] theorem State.setStart_memCl (s : State) (f : Start → Start) (c' : Nat) : (s.setStart f).memCl c' = s.memCl c' := rfl
@[simp] theorem State.setStart_home (s : State) (f : Start → Start) (h' : Nat) : (s.setStart f).home h' = s.home h' := rfl
@[simp] theorem State.setStart_slot (s : State) (f : Start → Start) (i' : Nat) : (s.setStart f).slot i' = s.slot i' := rfl
@[simp] theorem State.setStart_grp (s : State) (f : Start → Start) (g' : Nat) : (s.setStart f).grp g' = s.grp g' := rfl
@[simp] theorem State.setStart_coder (s : State) (f : Start → Start) (c' : Nat) : (s.setStart f).coder c' = s.coder c' := rfl

/-! ## setDeck -/

@[simp] theorem State.setDeck_tick (s : State) (f : Deck → Deck) : (s.setDeck f).tick = s.tick := rfl
@[simp] theorem State.setDeck_ports (s : State) (f : Deck → Deck) : (s.setDeck f).ports = s.ports := rfl
@[simp] theorem State.setDeck_qm (s : State) (f : Deck → Deck) : (s.setDeck f).qm = s.qm := rfl
@[simp] theorem State.setDeck_tly (s : State) (f : Deck → Deck) : (s.setDeck f).tly = s.tly := rfl
@[simp] theorem State.setDeck_deck (s : State) (f : Deck → Deck) : (s.setDeck f).deck = f s.deck := rfl
@[simp] theorem State.setDeck_ch (s : State) (f : Deck → Deck) : (s.setDeck f).ch = s.ch := rfl
@[simp] theorem State.setDeck_eng (s : State) (f : Deck → Deck) : (s.setDeck f).eng = s.eng := rfl
@[simp] theorem State.setDeck_mem (s : State) (f : Deck → Deck) : (s.setDeck f).mem = s.mem := rfl
@[simp] theorem State.setDeck_bytes (s : State) (f : Deck → Deck) : (s.setDeck f).bytes = s.bytes := rfl
@[simp] theorem State.setDeck_poison (s : State) (f : Deck → Deck) : (s.setDeck f).poison = s.poison := rfl
@[simp] theorem State.setDeck_ecc (s : State) (f : Deck → Deck) : (s.setDeck f).ecc = s.ecc := rfl
@[simp] theorem State.setDeck_lnd (s : State) (f : Deck → Deck) : (s.setDeck f).lnd = s.lnd := rfl
@[simp] theorem State.setDeck_coh (s : State) (f : Deck → Deck) : (s.setDeck f).coh = s.coh := rfl
@[simp] theorem State.setDeck_cph (s : State) (f : Deck → Deck) : (s.setDeck f).cph = s.cph := rfl
@[simp] theorem State.setDeck_gal (s : State) (f : Deck → Deck) : (s.setDeck f).gal = s.gal := rfl
@[simp] theorem State.setDeck_tru (s : State) (f : Deck → Deck) : (s.setDeck f).tru = s.tru := rfl
@[simp] theorem State.setDeck_flt (s : State) (f : Deck → Deck) : (s.setDeck f).flt = s.flt := rfl
@[simp] theorem State.setDeck_mp (s : State) (f : Deck → Deck) : (s.setDeck f).mp = s.mp := rfl
@[simp] theorem State.setDeck_pwr (s : State) (f : Deck → Deck) : (s.setDeck f).pwr = s.pwr := rfl
@[simp] theorem State.setDeck_start (s : State) (f : Deck → Deck) : (s.setDeck f).start = s.start := rfl
@[simp] theorem State.setDeck_fresh (s : State) (f : Deck → Deck) : (s.setDeck f).fresh = s.fresh := rfl
@[simp] theorem State.setDeck_out (s : State) (f : Deck → Deck) : (s.setDeck f).out = s.out := rfl
@[simp] theorem State.setDeck_pending (s : State) (f : Deck → Deck) : (s.setDeck f).pending = s.pending := rfl
@[simp] theorem State.setDeck_port (s : State) (f : Deck → Deck) (p' : Nat) : (s.setDeck f).port p' = s.port p' := rfl
@[simp] theorem State.setDeck_fn (s : State) (f : Deck → Deck) (k' : Nat) : (s.setDeck f).fn k' = s.fn k' := rfl
@[simp] theorem State.setDeck_queue (s : State) (f : Deck → Deck) (k' q' : Nat) : (s.setDeck f).queue k' q' = s.queue k' q' := rfl
@[simp] theorem State.setDeck_win (s : State) (f : Deck → Deck) (m' w' : Nat) : (s.setDeck f).win m' w' = s.win m' w' := rfl
@[simp] theorem State.setDeck_entry (s : State) (f : Deck → Deck) (i' : Nat) : (s.setDeck f).entry i' = s.entry i' := rfl
@[simp] theorem State.setDeck_link (s : State) (f : Deck → Deck) (l' : Nat) : (s.setDeck f).link l' = s.link l' := rfl
@[simp] theorem State.setDeck_group (s : State) (f : Deck → Deck) (g' : Nat) : (s.setDeck f).group g' = s.group g' := rfl
@[simp] theorem State.setDeck_flow (s : State) (f : Deck → Deck) (i' g' : Nat) : (s.setDeck f).flow i' g' = s.flow i' g' := rfl
@[simp] theorem State.setDeck_le (s : State) (f : Deck → Deck) (e' : Nat) : (s.setDeck f).le e' = s.le e' := rfl
@[simp] theorem State.setDeck_pe (s : State) (f : Deck → Deck) (n' : Nat) : (s.setDeck f).pe n' = s.pe n' := rfl
@[simp] theorem State.setDeck_engCl (s : State) (f : Deck → Deck) (c' : Nat) : (s.setDeck f).engCl c' = s.engCl c' := rfl
@[simp] theorem State.setDeck_memCl (s : State) (f : Deck → Deck) (c' : Nat) : (s.setDeck f).memCl c' = s.memCl c' := rfl
@[simp] theorem State.setDeck_home (s : State) (f : Deck → Deck) (h' : Nat) : (s.setDeck f).home h' = s.home h' := rfl
@[simp] theorem State.setDeck_slot (s : State) (f : Deck → Deck) (i' : Nat) : (s.setDeck f).slot i' = s.slot i' := rfl
@[simp] theorem State.setDeck_grp (s : State) (f : Deck → Deck) (g' : Nat) : (s.setDeck f).grp g' = s.grp g' := rfl
@[simp] theorem State.setDeck_coder (s : State) (f : Deck → Deck) (c' : Nat) : (s.setDeck f).coder c' = s.coder c' := rfl
@[simp] theorem State.setDeck_live (s : State) (f : Deck → Deck) : (s.setDeck f).live = s.live := rfl
@[simp] theorem State.setDeck_on (s : State) (f : Deck → Deck) : (s.setDeck f).on = s.on := rfl
@[simp] theorem State.setDeck_isReady (s : State) (f : Deck → Deck) : (s.setDeck f).isReady = s.isReady := rfl

/-! ## setCoh -/

@[simp] theorem State.setCoh_tick (s : State) (f : Coh → Coh) : (s.setCoh f).tick = s.tick := rfl
@[simp] theorem State.setCoh_ports (s : State) (f : Coh → Coh) : (s.setCoh f).ports = s.ports := rfl
@[simp] theorem State.setCoh_qm (s : State) (f : Coh → Coh) : (s.setCoh f).qm = s.qm := rfl
@[simp] theorem State.setCoh_tly (s : State) (f : Coh → Coh) : (s.setCoh f).tly = s.tly := rfl
@[simp] theorem State.setCoh_deck (s : State) (f : Coh → Coh) : (s.setCoh f).deck = s.deck := rfl
@[simp] theorem State.setCoh_ch (s : State) (f : Coh → Coh) : (s.setCoh f).ch = s.ch := rfl
@[simp] theorem State.setCoh_eng (s : State) (f : Coh → Coh) : (s.setCoh f).eng = s.eng := rfl
@[simp] theorem State.setCoh_mem (s : State) (f : Coh → Coh) : (s.setCoh f).mem = s.mem := rfl
@[simp] theorem State.setCoh_bytes (s : State) (f : Coh → Coh) : (s.setCoh f).bytes = s.bytes := rfl
@[simp] theorem State.setCoh_poison (s : State) (f : Coh → Coh) : (s.setCoh f).poison = s.poison := rfl
@[simp] theorem State.setCoh_ecc (s : State) (f : Coh → Coh) : (s.setCoh f).ecc = s.ecc := rfl
@[simp] theorem State.setCoh_lnd (s : State) (f : Coh → Coh) : (s.setCoh f).lnd = s.lnd := rfl
@[simp] theorem State.setCoh_coh (s : State) (f : Coh → Coh) : (s.setCoh f).coh = f s.coh := rfl
@[simp] theorem State.setCoh_cph (s : State) (f : Coh → Coh) : (s.setCoh f).cph = s.cph := rfl
@[simp] theorem State.setCoh_gal (s : State) (f : Coh → Coh) : (s.setCoh f).gal = s.gal := rfl
@[simp] theorem State.setCoh_tru (s : State) (f : Coh → Coh) : (s.setCoh f).tru = s.tru := rfl
@[simp] theorem State.setCoh_flt (s : State) (f : Coh → Coh) : (s.setCoh f).flt = s.flt := rfl
@[simp] theorem State.setCoh_mp (s : State) (f : Coh → Coh) : (s.setCoh f).mp = s.mp := rfl
@[simp] theorem State.setCoh_pwr (s : State) (f : Coh → Coh) : (s.setCoh f).pwr = s.pwr := rfl
@[simp] theorem State.setCoh_start (s : State) (f : Coh → Coh) : (s.setCoh f).start = s.start := rfl
@[simp] theorem State.setCoh_fresh (s : State) (f : Coh → Coh) : (s.setCoh f).fresh = s.fresh := rfl
@[simp] theorem State.setCoh_out (s : State) (f : Coh → Coh) : (s.setCoh f).out = s.out := rfl
@[simp] theorem State.setCoh_pending (s : State) (f : Coh → Coh) : (s.setCoh f).pending = s.pending := rfl
@[simp] theorem State.setCoh_port (s : State) (f : Coh → Coh) (p' : Nat) : (s.setCoh f).port p' = s.port p' := rfl
@[simp] theorem State.setCoh_fn (s : State) (f : Coh → Coh) (k' : Nat) : (s.setCoh f).fn k' = s.fn k' := rfl
@[simp] theorem State.setCoh_queue (s : State) (f : Coh → Coh) (k' q' : Nat) : (s.setCoh f).queue k' q' = s.queue k' q' := rfl
@[simp] theorem State.setCoh_win (s : State) (f : Coh → Coh) (m' w' : Nat) : (s.setCoh f).win m' w' = s.win m' w' := rfl
@[simp] theorem State.setCoh_entry (s : State) (f : Coh → Coh) (i' : Nat) : (s.setCoh f).entry i' = s.entry i' := rfl
@[simp] theorem State.setCoh_link (s : State) (f : Coh → Coh) (l' : Nat) : (s.setCoh f).link l' = s.link l' := rfl
@[simp] theorem State.setCoh_group (s : State) (f : Coh → Coh) (g' : Nat) : (s.setCoh f).group g' = s.group g' := rfl
@[simp] theorem State.setCoh_flow (s : State) (f : Coh → Coh) (i' g' : Nat) : (s.setCoh f).flow i' g' = s.flow i' g' := rfl
@[simp] theorem State.setCoh_le (s : State) (f : Coh → Coh) (e' : Nat) : (s.setCoh f).le e' = s.le e' := rfl
@[simp] theorem State.setCoh_pe (s : State) (f : Coh → Coh) (n' : Nat) : (s.setCoh f).pe n' = s.pe n' := rfl
@[simp] theorem State.setCoh_engCl (s : State) (f : Coh → Coh) (c' : Nat) : (s.setCoh f).engCl c' = s.engCl c' := rfl
@[simp] theorem State.setCoh_memCl (s : State) (f : Coh → Coh) (c' : Nat) : (s.setCoh f).memCl c' = s.memCl c' := rfl
@[simp] theorem State.setCoh_slot (s : State) (f : Coh → Coh) (i' : Nat) : (s.setCoh f).slot i' = s.slot i' := rfl
@[simp] theorem State.setCoh_grp (s : State) (f : Coh → Coh) (g' : Nat) : (s.setCoh f).grp g' = s.grp g' := rfl
@[simp] theorem State.setCoh_coder (s : State) (f : Coh → Coh) (c' : Nat) : (s.setCoh f).coder c' = s.coder c' := rfl
@[simp] theorem State.setCoh_live (s : State) (f : Coh → Coh) : (s.setCoh f).live = s.live := rfl
@[simp] theorem State.setCoh_on (s : State) (f : Coh → Coh) : (s.setCoh f).on = s.on := rfl
@[simp] theorem State.setCoh_isReady (s : State) (f : Coh → Coh) : (s.setCoh f).isReady = s.isReady := rfl

/-! ## setCh -/

@[simp] theorem State.setCh_tick (s : State) (f : Ch → Ch) : (s.setCh f).tick = s.tick := rfl
@[simp] theorem State.setCh_ports (s : State) (f : Ch → Ch) : (s.setCh f).ports = s.ports := rfl
@[simp] theorem State.setCh_qm (s : State) (f : Ch → Ch) : (s.setCh f).qm = s.qm := rfl
@[simp] theorem State.setCh_tly (s : State) (f : Ch → Ch) : (s.setCh f).tly = s.tly := rfl
@[simp] theorem State.setCh_deck (s : State) (f : Ch → Ch) : (s.setCh f).deck = s.deck := rfl
@[simp] theorem State.setCh_ch (s : State) (f : Ch → Ch) : (s.setCh f).ch = f s.ch := rfl
@[simp] theorem State.setCh_eng (s : State) (f : Ch → Ch) : (s.setCh f).eng = s.eng := rfl
@[simp] theorem State.setCh_mem (s : State) (f : Ch → Ch) : (s.setCh f).mem = s.mem := rfl
@[simp] theorem State.setCh_bytes (s : State) (f : Ch → Ch) : (s.setCh f).bytes = s.bytes := rfl
@[simp] theorem State.setCh_poison (s : State) (f : Ch → Ch) : (s.setCh f).poison = s.poison := rfl
@[simp] theorem State.setCh_ecc (s : State) (f : Ch → Ch) : (s.setCh f).ecc = s.ecc := rfl
@[simp] theorem State.setCh_lnd (s : State) (f : Ch → Ch) : (s.setCh f).lnd = s.lnd := rfl
@[simp] theorem State.setCh_coh (s : State) (f : Ch → Ch) : (s.setCh f).coh = s.coh := rfl
@[simp] theorem State.setCh_cph (s : State) (f : Ch → Ch) : (s.setCh f).cph = s.cph := rfl
@[simp] theorem State.setCh_gal (s : State) (f : Ch → Ch) : (s.setCh f).gal = s.gal := rfl
@[simp] theorem State.setCh_tru (s : State) (f : Ch → Ch) : (s.setCh f).tru = s.tru := rfl
@[simp] theorem State.setCh_flt (s : State) (f : Ch → Ch) : (s.setCh f).flt = s.flt := rfl
@[simp] theorem State.setCh_mp (s : State) (f : Ch → Ch) : (s.setCh f).mp = s.mp := rfl
@[simp] theorem State.setCh_pwr (s : State) (f : Ch → Ch) : (s.setCh f).pwr = s.pwr := rfl
@[simp] theorem State.setCh_start (s : State) (f : Ch → Ch) : (s.setCh f).start = s.start := rfl
@[simp] theorem State.setCh_fresh (s : State) (f : Ch → Ch) : (s.setCh f).fresh = s.fresh := rfl
@[simp] theorem State.setCh_out (s : State) (f : Ch → Ch) : (s.setCh f).out = s.out := rfl
@[simp] theorem State.setCh_pending (s : State) (f : Ch → Ch) : (s.setCh f).pending = s.pending := rfl
@[simp] theorem State.setCh_port (s : State) (f : Ch → Ch) (p' : Nat) : (s.setCh f).port p' = s.port p' := rfl
@[simp] theorem State.setCh_fn (s : State) (f : Ch → Ch) (k' : Nat) : (s.setCh f).fn k' = s.fn k' := rfl
@[simp] theorem State.setCh_queue (s : State) (f : Ch → Ch) (k' q' : Nat) : (s.setCh f).queue k' q' = s.queue k' q' := rfl
@[simp] theorem State.setCh_win (s : State) (f : Ch → Ch) (m' w' : Nat) : (s.setCh f).win m' w' = s.win m' w' := rfl
@[simp] theorem State.setCh_entry (s : State) (f : Ch → Ch) (i' : Nat) : (s.setCh f).entry i' = s.entry i' := rfl
@[simp] theorem State.setCh_le (s : State) (f : Ch → Ch) (e' : Nat) : (s.setCh f).le e' = s.le e' := rfl
@[simp] theorem State.setCh_pe (s : State) (f : Ch → Ch) (n' : Nat) : (s.setCh f).pe n' = s.pe n' := rfl
@[simp] theorem State.setCh_engCl (s : State) (f : Ch → Ch) (c' : Nat) : (s.setCh f).engCl c' = s.engCl c' := rfl
@[simp] theorem State.setCh_memCl (s : State) (f : Ch → Ch) (c' : Nat) : (s.setCh f).memCl c' = s.memCl c' := rfl
@[simp] theorem State.setCh_home (s : State) (f : Ch → Ch) (h' : Nat) : (s.setCh f).home h' = s.home h' := rfl
@[simp] theorem State.setCh_slot (s : State) (f : Ch → Ch) (i' : Nat) : (s.setCh f).slot i' = s.slot i' := rfl
@[simp] theorem State.setCh_grp (s : State) (f : Ch → Ch) (g' : Nat) : (s.setCh f).grp g' = s.grp g' := rfl
@[simp] theorem State.setCh_coder (s : State) (f : Ch → Ch) (c' : Nat) : (s.setCh f).coder c' = s.coder c' := rfl
@[simp] theorem State.setCh_live (s : State) (f : Ch → Ch) : (s.setCh f).live = s.live := rfl
@[simp] theorem State.setCh_on (s : State) (f : Ch → Ch) : (s.setCh f).on = s.on := rfl
@[simp] theorem State.setCh_isReady (s : State) (f : Ch → Ch) : (s.setCh f).isReady = s.isReady := rfl

/-! ## setQm -/

@[simp] theorem State.setQm_tick (s : State) (f : Qm → Qm) : (s.setQm f).tick = s.tick := rfl
@[simp] theorem State.setQm_ports (s : State) (f : Qm → Qm) : (s.setQm f).ports = s.ports := rfl
@[simp] theorem State.setQm_qm (s : State) (f : Qm → Qm) : (s.setQm f).qm = f s.qm := rfl
@[simp] theorem State.setQm_tly (s : State) (f : Qm → Qm) : (s.setQm f).tly = s.tly := rfl
@[simp] theorem State.setQm_deck (s : State) (f : Qm → Qm) : (s.setQm f).deck = s.deck := rfl
@[simp] theorem State.setQm_ch (s : State) (f : Qm → Qm) : (s.setQm f).ch = s.ch := rfl
@[simp] theorem State.setQm_eng (s : State) (f : Qm → Qm) : (s.setQm f).eng = s.eng := rfl
@[simp] theorem State.setQm_mem (s : State) (f : Qm → Qm) : (s.setQm f).mem = s.mem := rfl
@[simp] theorem State.setQm_bytes (s : State) (f : Qm → Qm) : (s.setQm f).bytes = s.bytes := rfl
@[simp] theorem State.setQm_poison (s : State) (f : Qm → Qm) : (s.setQm f).poison = s.poison := rfl
@[simp] theorem State.setQm_ecc (s : State) (f : Qm → Qm) : (s.setQm f).ecc = s.ecc := rfl
@[simp] theorem State.setQm_lnd (s : State) (f : Qm → Qm) : (s.setQm f).lnd = s.lnd := rfl
@[simp] theorem State.setQm_coh (s : State) (f : Qm → Qm) : (s.setQm f).coh = s.coh := rfl
@[simp] theorem State.setQm_cph (s : State) (f : Qm → Qm) : (s.setQm f).cph = s.cph := rfl
@[simp] theorem State.setQm_gal (s : State) (f : Qm → Qm) : (s.setQm f).gal = s.gal := rfl
@[simp] theorem State.setQm_tru (s : State) (f : Qm → Qm) : (s.setQm f).tru = s.tru := rfl
@[simp] theorem State.setQm_flt (s : State) (f : Qm → Qm) : (s.setQm f).flt = s.flt := rfl
@[simp] theorem State.setQm_mp (s : State) (f : Qm → Qm) : (s.setQm f).mp = s.mp := rfl
@[simp] theorem State.setQm_pwr (s : State) (f : Qm → Qm) : (s.setQm f).pwr = s.pwr := rfl
@[simp] theorem State.setQm_start (s : State) (f : Qm → Qm) : (s.setQm f).start = s.start := rfl
@[simp] theorem State.setQm_fresh (s : State) (f : Qm → Qm) : (s.setQm f).fresh = s.fresh := rfl
@[simp] theorem State.setQm_out (s : State) (f : Qm → Qm) : (s.setQm f).out = s.out := rfl
@[simp] theorem State.setQm_pending (s : State) (f : Qm → Qm) : (s.setQm f).pending = s.pending := rfl
@[simp] theorem State.setQm_port (s : State) (f : Qm → Qm) (p' : Nat) : (s.setQm f).port p' = s.port p' := rfl
@[simp] theorem State.setQm_entry (s : State) (f : Qm → Qm) (i' : Nat) : (s.setQm f).entry i' = s.entry i' := rfl
@[simp] theorem State.setQm_link (s : State) (f : Qm → Qm) (l' : Nat) : (s.setQm f).link l' = s.link l' := rfl
@[simp] theorem State.setQm_group (s : State) (f : Qm → Qm) (g' : Nat) : (s.setQm f).group g' = s.group g' := rfl
@[simp] theorem State.setQm_flow (s : State) (f : Qm → Qm) (i' g' : Nat) : (s.setQm f).flow i' g' = s.flow i' g' := rfl
@[simp] theorem State.setQm_le (s : State) (f : Qm → Qm) (e' : Nat) : (s.setQm f).le e' = s.le e' := rfl
@[simp] theorem State.setQm_pe (s : State) (f : Qm → Qm) (n' : Nat) : (s.setQm f).pe n' = s.pe n' := rfl
@[simp] theorem State.setQm_engCl (s : State) (f : Qm → Qm) (c' : Nat) : (s.setQm f).engCl c' = s.engCl c' := rfl
@[simp] theorem State.setQm_memCl (s : State) (f : Qm → Qm) (c' : Nat) : (s.setQm f).memCl c' = s.memCl c' := rfl
@[simp] theorem State.setQm_home (s : State) (f : Qm → Qm) (h' : Nat) : (s.setQm f).home h' = s.home h' := rfl
@[simp] theorem State.setQm_slot (s : State) (f : Qm → Qm) (i' : Nat) : (s.setQm f).slot i' = s.slot i' := rfl
@[simp] theorem State.setQm_grp (s : State) (f : Qm → Qm) (g' : Nat) : (s.setQm f).grp g' = s.grp g' := rfl
@[simp] theorem State.setQm_coder (s : State) (f : Qm → Qm) (c' : Nat) : (s.setQm f).coder c' = s.coder c' := rfl
@[simp] theorem State.setQm_live (s : State) (f : Qm → Qm) : (s.setQm f).live = s.live := rfl
@[simp] theorem State.setQm_on (s : State) (f : Qm → Qm) : (s.setQm f).on = s.on := rfl
@[simp] theorem State.setQm_isReady (s : State) (f : Qm → Qm) : (s.setQm f).isReady = s.isReady := rfl

/-! ## setLnd -/

@[simp] theorem State.setLnd_tick (s : State) (f : Lnd → Lnd) : (s.setLnd f).tick = s.tick := rfl
@[simp] theorem State.setLnd_ports (s : State) (f : Lnd → Lnd) : (s.setLnd f).ports = s.ports := rfl
@[simp] theorem State.setLnd_qm (s : State) (f : Lnd → Lnd) : (s.setLnd f).qm = s.qm := rfl
@[simp] theorem State.setLnd_tly (s : State) (f : Lnd → Lnd) : (s.setLnd f).tly = s.tly := rfl
@[simp] theorem State.setLnd_deck (s : State) (f : Lnd → Lnd) : (s.setLnd f).deck = s.deck := rfl
@[simp] theorem State.setLnd_ch (s : State) (f : Lnd → Lnd) : (s.setLnd f).ch = s.ch := rfl
@[simp] theorem State.setLnd_eng (s : State) (f : Lnd → Lnd) : (s.setLnd f).eng = s.eng := rfl
@[simp] theorem State.setLnd_mem (s : State) (f : Lnd → Lnd) : (s.setLnd f).mem = s.mem := rfl
@[simp] theorem State.setLnd_bytes (s : State) (f : Lnd → Lnd) : (s.setLnd f).bytes = s.bytes := rfl
@[simp] theorem State.setLnd_poison (s : State) (f : Lnd → Lnd) : (s.setLnd f).poison = s.poison := rfl
@[simp] theorem State.setLnd_ecc (s : State) (f : Lnd → Lnd) : (s.setLnd f).ecc = s.ecc := rfl
@[simp] theorem State.setLnd_lnd (s : State) (f : Lnd → Lnd) : (s.setLnd f).lnd = f s.lnd := rfl
@[simp] theorem State.setLnd_coh (s : State) (f : Lnd → Lnd) : (s.setLnd f).coh = s.coh := rfl
@[simp] theorem State.setLnd_cph (s : State) (f : Lnd → Lnd) : (s.setLnd f).cph = s.cph := rfl
@[simp] theorem State.setLnd_gal (s : State) (f : Lnd → Lnd) : (s.setLnd f).gal = s.gal := rfl
@[simp] theorem State.setLnd_tru (s : State) (f : Lnd → Lnd) : (s.setLnd f).tru = s.tru := rfl
@[simp] theorem State.setLnd_flt (s : State) (f : Lnd → Lnd) : (s.setLnd f).flt = s.flt := rfl
@[simp] theorem State.setLnd_mp (s : State) (f : Lnd → Lnd) : (s.setLnd f).mp = s.mp := rfl
@[simp] theorem State.setLnd_pwr (s : State) (f : Lnd → Lnd) : (s.setLnd f).pwr = s.pwr := rfl
@[simp] theorem State.setLnd_start (s : State) (f : Lnd → Lnd) : (s.setLnd f).start = s.start := rfl
@[simp] theorem State.setLnd_fresh (s : State) (f : Lnd → Lnd) : (s.setLnd f).fresh = s.fresh := rfl
@[simp] theorem State.setLnd_out (s : State) (f : Lnd → Lnd) : (s.setLnd f).out = s.out := rfl
@[simp] theorem State.setLnd_pending (s : State) (f : Lnd → Lnd) : (s.setLnd f).pending = s.pending := rfl
@[simp] theorem State.setLnd_port (s : State) (f : Lnd → Lnd) (p' : Nat) : (s.setLnd f).port p' = s.port p' := rfl
@[simp] theorem State.setLnd_fn (s : State) (f : Lnd → Lnd) (k' : Nat) : (s.setLnd f).fn k' = s.fn k' := rfl
@[simp] theorem State.setLnd_queue (s : State) (f : Lnd → Lnd) (k' q' : Nat) : (s.setLnd f).queue k' q' = s.queue k' q' := rfl
@[simp] theorem State.setLnd_win (s : State) (f : Lnd → Lnd) (m' w' : Nat) : (s.setLnd f).win m' w' = s.win m' w' := rfl
@[simp] theorem State.setLnd_entry (s : State) (f : Lnd → Lnd) (i' : Nat) : (s.setLnd f).entry i' = s.entry i' := rfl
@[simp] theorem State.setLnd_link (s : State) (f : Lnd → Lnd) (l' : Nat) : (s.setLnd f).link l' = s.link l' := rfl
@[simp] theorem State.setLnd_group (s : State) (f : Lnd → Lnd) (g' : Nat) : (s.setLnd f).group g' = s.group g' := rfl
@[simp] theorem State.setLnd_flow (s : State) (f : Lnd → Lnd) (i' g' : Nat) : (s.setLnd f).flow i' g' = s.flow i' g' := rfl
@[simp] theorem State.setLnd_le (s : State) (f : Lnd → Lnd) (e' : Nat) : (s.setLnd f).le e' = s.le e' := rfl
@[simp] theorem State.setLnd_pe (s : State) (f : Lnd → Lnd) (n' : Nat) : (s.setLnd f).pe n' = s.pe n' := rfl
@[simp] theorem State.setLnd_engCl (s : State) (f : Lnd → Lnd) (c' : Nat) : (s.setLnd f).engCl c' = s.engCl c' := rfl
@[simp] theorem State.setLnd_memCl (s : State) (f : Lnd → Lnd) (c' : Nat) : (s.setLnd f).memCl c' = s.memCl c' := rfl
@[simp] theorem State.setLnd_home (s : State) (f : Lnd → Lnd) (h' : Nat) : (s.setLnd f).home h' = s.home h' := rfl
@[simp] theorem State.setLnd_slot (s : State) (f : Lnd → Lnd) (i' : Nat) : (s.setLnd f).slot i' = s.slot i' := rfl
@[simp] theorem State.setLnd_grp (s : State) (f : Lnd → Lnd) (g' : Nat) : (s.setLnd f).grp g' = s.grp g' := rfl
@[simp] theorem State.setLnd_coder (s : State) (f : Lnd → Lnd) (c' : Nat) : (s.setLnd f).coder c' = s.coder c' := rfl
@[simp] theorem State.setLnd_live (s : State) (f : Lnd → Lnd) : (s.setLnd f).live = s.live := rfl
@[simp] theorem State.setLnd_on (s : State) (f : Lnd → Lnd) : (s.setLnd f).on = s.on := rfl
@[simp] theorem State.setLnd_isReady (s : State) (f : Lnd → Lnd) : (s.setLnd f).isReady = s.isReady := rfl

/-! ## setEng -/

@[simp] theorem State.setEng_tick (s : State) (f : EngArr → EngArr) : (s.setEng f).tick = s.tick := rfl
@[simp] theorem State.setEng_ports (s : State) (f : EngArr → EngArr) : (s.setEng f).ports = s.ports := rfl
@[simp] theorem State.setEng_qm (s : State) (f : EngArr → EngArr) : (s.setEng f).qm = s.qm := rfl
@[simp] theorem State.setEng_tly (s : State) (f : EngArr → EngArr) : (s.setEng f).tly = s.tly := rfl
@[simp] theorem State.setEng_deck (s : State) (f : EngArr → EngArr) : (s.setEng f).deck = s.deck := rfl
@[simp] theorem State.setEng_ch (s : State) (f : EngArr → EngArr) : (s.setEng f).ch = s.ch := rfl
@[simp] theorem State.setEng_eng (s : State) (f : EngArr → EngArr) : (s.setEng f).eng = f s.eng := rfl
@[simp] theorem State.setEng_mem (s : State) (f : EngArr → EngArr) : (s.setEng f).mem = s.mem := rfl
@[simp] theorem State.setEng_bytes (s : State) (f : EngArr → EngArr) : (s.setEng f).bytes = s.bytes := rfl
@[simp] theorem State.setEng_poison (s : State) (f : EngArr → EngArr) : (s.setEng f).poison = s.poison := rfl
@[simp] theorem State.setEng_ecc (s : State) (f : EngArr → EngArr) : (s.setEng f).ecc = s.ecc := rfl
@[simp] theorem State.setEng_lnd (s : State) (f : EngArr → EngArr) : (s.setEng f).lnd = s.lnd := rfl
@[simp] theorem State.setEng_coh (s : State) (f : EngArr → EngArr) : (s.setEng f).coh = s.coh := rfl
@[simp] theorem State.setEng_cph (s : State) (f : EngArr → EngArr) : (s.setEng f).cph = s.cph := rfl
@[simp] theorem State.setEng_gal (s : State) (f : EngArr → EngArr) : (s.setEng f).gal = s.gal := rfl
@[simp] theorem State.setEng_tru (s : State) (f : EngArr → EngArr) : (s.setEng f).tru = s.tru := rfl
@[simp] theorem State.setEng_flt (s : State) (f : EngArr → EngArr) : (s.setEng f).flt = s.flt := rfl
@[simp] theorem State.setEng_mp (s : State) (f : EngArr → EngArr) : (s.setEng f).mp = s.mp := rfl
@[simp] theorem State.setEng_pwr (s : State) (f : EngArr → EngArr) : (s.setEng f).pwr = s.pwr := rfl
@[simp] theorem State.setEng_start (s : State) (f : EngArr → EngArr) : (s.setEng f).start = s.start := rfl
@[simp] theorem State.setEng_fresh (s : State) (f : EngArr → EngArr) : (s.setEng f).fresh = s.fresh := rfl
@[simp] theorem State.setEng_out (s : State) (f : EngArr → EngArr) : (s.setEng f).out = s.out := rfl
@[simp] theorem State.setEng_pending (s : State) (f : EngArr → EngArr) : (s.setEng f).pending = s.pending := rfl
@[simp] theorem State.setEng_port (s : State) (f : EngArr → EngArr) (p' : Nat) : (s.setEng f).port p' = s.port p' := rfl
@[simp] theorem State.setEng_fn (s : State) (f : EngArr → EngArr) (k' : Nat) : (s.setEng f).fn k' = s.fn k' := rfl
@[simp] theorem State.setEng_queue (s : State) (f : EngArr → EngArr) (k' q' : Nat) : (s.setEng f).queue k' q' = s.queue k' q' := rfl
@[simp] theorem State.setEng_win (s : State) (f : EngArr → EngArr) (m' w' : Nat) : (s.setEng f).win m' w' = s.win m' w' := rfl
@[simp] theorem State.setEng_entry (s : State) (f : EngArr → EngArr) (i' : Nat) : (s.setEng f).entry i' = s.entry i' := rfl
@[simp] theorem State.setEng_link (s : State) (f : EngArr → EngArr) (l' : Nat) : (s.setEng f).link l' = s.link l' := rfl
@[simp] theorem State.setEng_group (s : State) (f : EngArr → EngArr) (g' : Nat) : (s.setEng f).group g' = s.group g' := rfl
@[simp] theorem State.setEng_flow (s : State) (f : EngArr → EngArr) (i' g' : Nat) : (s.setEng f).flow i' g' = s.flow i' g' := rfl
@[simp] theorem State.setEng_memCl (s : State) (f : EngArr → EngArr) (c' : Nat) : (s.setEng f).memCl c' = s.memCl c' := rfl
@[simp] theorem State.setEng_home (s : State) (f : EngArr → EngArr) (h' : Nat) : (s.setEng f).home h' = s.home h' := rfl
@[simp] theorem State.setEng_slot (s : State) (f : EngArr → EngArr) (i' : Nat) : (s.setEng f).slot i' = s.slot i' := rfl
@[simp] theorem State.setEng_grp (s : State) (f : EngArr → EngArr) (g' : Nat) : (s.setEng f).grp g' = s.grp g' := rfl
@[simp] theorem State.setEng_coder (s : State) (f : EngArr → EngArr) (c' : Nat) : (s.setEng f).coder c' = s.coder c' := rfl
@[simp] theorem State.setEng_live (s : State) (f : EngArr → EngArr) : (s.setEng f).live = s.live := rfl
@[simp] theorem State.setEng_on (s : State) (f : EngArr → EngArr) : (s.setEng f).on = s.on := rfl
@[simp] theorem State.setEng_isReady (s : State) (f : EngArr → EngArr) : (s.setEng f).isReady = s.isReady := rfl

end Sys2Proof.Machine
end

