-- ==== Sys2Proof/Laws/Stays.lean ====
section
/-! SUPPORT. What a change of the state leaves alone: the rules that build `Stays` along the text of an operation. A mask names the parts that may change: bit k is the k-th part of `Part`. -/

namespace Sys2Proof.Machine

/-- The parts of a mask that may change include those of another. -/
theorem Mask.of {m F g : Nat} (hm : m &&& F = F) (h : F &&& g = g) : m &&& g = g := by
  rw [← h, ← Nat.land_assoc, hm]

/-- A bit of the smaller mask is a bit of the larger one. -/
theorem Mask.bit {m g k : Nat} (hm : m &&& g = g) (hk : g.testBit k = true) : m.testBit k = true := by
  rw [← hm, Nat.testBit_land] at hk
  exact ((Bool.and_eq_true _ _).mp hk).1

/-- A part that may change is no part that stays. -/
theorem Mask.no {m g k : Nat} {P : Prop} (hm : m &&& g = g) (hk : g.testBit k = true) (h : m.testBit k = false) : P := by
  rw [Mask.bit hm hk] at h; exact absurd h (by decide)

/-- A port but for its MSI-X table, the viral mark and HP_ATTN_N, which interrupts and the grave stop change. -/
def Port.core (q : Port) : Port := { q with msix := [], viralOut := false, attn := false }

theorem State.updPort_core (x : State) (p : Nat) (f : Port → Port) (hf : ∀ q, (f q).core = q.core) (q : Nat) :
    ((x.updPort p f).port q).core = (x.port q).core := by
  unfold State.port State.updPort
  by_cases hq : q = p
  · subst hq; rw [Sp.look_upd_self]; exact hf _
  · rw [Sp.look_upd_ne _ _ _ _ _ hq]

/-- What every operation keeps, and the parts of the state outside the mask. -/
structure Stays (m : Nat) (s t : State) : Prop where
  queue : t.pending = s.pending
  memory : Memory.wf s.bytes = true → Memory.wf t.bytes = true
  fuse : s.deck.fuse = true → t.deck.fuse = true
  sent : s.out <+: t.out
  tick : m.testBit 0 = false → t.tick = s.tick
  ports : m.testBit 1 = false → t.ports = s.ports
  qm : m.testBit 2 = false → t.qm = s.qm
  tly : m.testBit 3 = false → t.tly = s.tly
  deck : m.testBit 4 = false → t.deck = s.deck
  ch : m.testBit 5 = false → t.ch = s.ch
  eng : m.testBit 6 = false → t.eng = s.eng
  mem : m.testBit 7 = false → t.mem = s.mem
  bytes : m.testBit 8 = false → t.bytes = s.bytes
  poison : m.testBit 9 = false → t.poison = s.poison
  ecc : m.testBit 10 = false → t.ecc = s.ecc
  lnd : m.testBit 11 = false → t.lnd = s.lnd
  coh : m.testBit 12 = false → t.coh = s.coh
  cph : m.testBit 13 = false → t.cph = s.cph
  gal : m.testBit 14 = false → t.gal = s.gal
  tru : m.testBit 15 = false → t.tru = s.tru
  flt : m.testBit 16 = false → t.flt = s.flt
  mp : m.testBit 17 = false → t.mp = s.mp
  pwr : m.testBit 18 = false → t.pwr = s.pwr
  start : m.testBit 19 = false → t.start = s.start
  fresh : m.testBit 20 = false → t.fresh = s.fresh
  out : m.testBit 21 = false → t.out = s.out
  core : m.testBit 22 = false → ∀ p, (t.port p).core = (s.port p).core
  entries : m.testBit 23 = false → t.tly.entries = s.tly.entries ∧ t.tly.genBase = s.tly.genBase
  deckCore : m.testBit 24 = false → { t.deck with blaze := none } = { s.deck with blaze := none }
  lc : m.testBit 25 = false → t.deck.lc = s.deck.lc

theorem Stays.kept {m : Nat} {s t : State} (h : Stays m s t) : Kept s t := ⟨h.queue, h.memory, h.fuse, h.sent⟩

theorem Stays.refl (m : Nat) (s : State) : Stays m s s :=
  ⟨rfl, id, id, List.prefix_refl _, fun _ => rfl, fun _ => rfl, fun _ => rfl, fun _ => rfl, fun _ => rfl, fun _ => rfl, fun _ => rfl, fun _ => rfl, fun _ => rfl, fun _ => rfl, fun _ => rfl, fun _ => rfl, fun _ => rfl, fun _ => rfl, fun _ => rfl, fun _ => rfl, fun _ => rfl, fun _ => rfl, fun _ => rfl, fun _ => rfl, fun _ => rfl, fun _ => rfl, fun _ _ => rfl, fun _ => ⟨rfl, rfl⟩, fun _ => rfl, fun _ => rfl⟩

theorem Stays.trans {m : Nat} {s t u : State} (h : Stays m s t) (k : Stays m t u) : Stays m s u :=
  ⟨k.queue.trans h.queue, fun w => k.memory (h.memory w), fun w => k.fuse (h.fuse w), h.sent.trans k.sent, fun b => (k.tick b).trans (h.tick b), fun b => (k.ports b).trans (h.ports b), fun b => (k.qm b).trans (h.qm b), fun b => (k.tly b).trans (h.tly b), fun b => (k.deck b).trans (h.deck b), fun b => (k.ch b).trans (h.ch b), fun b => (k.eng b).trans (h.eng b), fun b => (k.mem b).trans (h.mem b), fun b => (k.bytes b).trans (h.bytes b), fun b => (k.poison b).trans (h.poison b), fun b => (k.ecc b).trans (h.ecc b), fun b => (k.lnd b).trans (h.lnd b), fun b => (k.coh b).trans (h.coh b), fun b => (k.cph b).trans (h.cph b), fun b => (k.gal b).trans (h.gal b), fun b => (k.tru b).trans (h.tru b), fun b => (k.flt b).trans (h.flt b), fun b => (k.mp b).trans (h.mp b), fun b => (k.pwr b).trans (h.pwr b), fun b => (k.start b).trans (h.start b), fun b => (k.fresh b).trans (h.fresh b), fun b => (k.out b).trans (h.out b), fun b p => (k.core b p).trans (h.core b p), fun b => ⟨(k.entries b).1.trans (h.entries b).1, (k.entries b).2.trans (h.entries b).2⟩, fun b => (k.deckCore b).trans (h.deckCore b), fun b => (k.lc b).trans (h.lc b)⟩

/-- A larger mask claims less. -/
theorem Stays.mono {m n : Nat} {s t : State} (h : Stays n s t) (hm : m &&& n = n) : Stays m s t := by
  have key : ∀ k, m.testBit k = false → n.testBit k = false := fun k hk => by
    cases hn : n.testBit k with
    | false => rfl
    | true => exact Mask.no hm hn hk
  exact ⟨h.queue, h.memory, h.fuse, h.sent, fun b => h.tick (key _ b), fun b => h.ports (key _ b), fun b => h.qm (key _ b), fun b => h.tly (key _ b), fun b => h.deck (key _ b), fun b => h.ch (key _ b), fun b => h.eng (key _ b), fun b => h.mem (key _ b), fun b => h.bytes (key _ b), fun b => h.poison (key _ b), fun b => h.ecc (key _ b), fun b => h.lnd (key _ b), fun b => h.coh (key _ b), fun b => h.cph (key _ b), fun b => h.gal (key _ b), fun b => h.tru (key _ b), fun b => h.flt (key _ b), fun b => h.mp (key _ b), fun b => h.pwr (key _ b), fun b => h.start (key _ b), fun b => h.fresh (key _ b), fun b => h.out (key _ b), fun b => h.core (key _ b), fun b => h.entries (key _ b), fun b => h.deckCore (key _ b), fun b => h.lc (key _ b)⟩

/-- A state built anew keeps what it takes over from `x`. -/
theorem Stays.build {m : Nat} {s x : State} (h : Stays m s x) (tick' : Nat) (ports' : Sp Port) (qm' : Qm) (tly' : Tally) (deck' : Deck) (ch' : Ch) (eng' : EngArr) (mem' : Sp MemCl) (bytes' : List Host.Cell) (poison' : Sp Bool) (ecc' : Sp Nat) (lnd' : Lnd) (coh' : Coh) (cph' : Cph) (gal' : Gal) (tru' : Tru) (flt' : Flt) (mp' : Mp) (pwr' : Pwr) (start' : Start) (fresh' : Nat)
    (hb : Memory.wf x.bytes = true → Memory.wf bytes' = true) (hf : x.deck.fuse = true → deck'.fuse = true)
    (h_tick : m.testBit 0 = false → tick' = x.tick) (h_ports : m.testBit 1 = false → ports' = x.ports) (h_qm : m.testBit 2 = false → qm' = x.qm) (h_tly : m.testBit 3 = false → tly' = x.tly) (h_deck : m.testBit 4 = false → deck' = x.deck) (h_ch : m.testBit 5 = false → ch' = x.ch) (h_eng : m.testBit 6 = false → eng' = x.eng) (h_mem : m.testBit 7 = false → mem' = x.mem) (h_bytes : m.testBit 8 = false → bytes' = x.bytes) (h_poison : m.testBit 9 = false → poison' = x.poison) (h_ecc : m.testBit 10 = false → ecc' = x.ecc) (h_lnd : m.testBit 11 = false → lnd' = x.lnd) (h_coh : m.testBit 12 = false → coh' = x.coh) (h_cph : m.testBit 13 = false → cph' = x.cph) (h_gal : m.testBit 14 = false → gal' = x.gal) (h_tru : m.testBit 15 = false → tru' = x.tru) (h_flt : m.testBit 16 = false → flt' = x.flt) (h_mp : m.testBit 17 = false → mp' = x.mp) (h_pwr : m.testBit 18 = false → pwr' = x.pwr) (h_start : m.testBit 19 = false → start' = x.start) (h_fresh : m.testBit 20 = false → fresh' = x.fresh)
    (h_core : m.testBit 22 = false → ports' = x.ports) (h_ent : m.testBit 23 = false → tly'.entries = x.tly.entries ∧ tly'.genBase = x.tly.genBase)
    (h_dc : m.testBit 24 = false → { deck' with blaze := none } = { x.deck with blaze := none }) (h_lc : m.testBit 25 = false → deck'.lc = x.deck.lc) :
    Stays m s { tick := tick', ports := ports', qm := qm', tly := tly', deck := deck', ch := ch', eng := eng', mem := mem', bytes := bytes', poison := poison', ecc := ecc', lnd := lnd', coh := coh', cph := cph', gal := gal', tru := tru', flt := flt', mp := mp', pwr := pwr', start := start', fresh := fresh', out := x.out, pending := x.pending } :=
  ⟨h.queue, fun w => hb (h.memory w), fun w => hf (h.fuse w), h.sent, fun b => (h_tick b).trans (h.tick b), fun b => (h_ports b).trans (h.ports b), fun b => (h_qm b).trans (h.qm b), fun b => (h_tly b).trans (h.tly b), fun b => (h_deck b).trans (h.deck b), fun b => (h_ch b).trans (h.ch b), fun b => (h_eng b).trans (h.eng b), fun b => (h_mem b).trans (h.mem b), fun b => (h_bytes b).trans (h.bytes b), fun b => (h_poison b).trans (h.poison b), fun b => (h_ecc b).trans (h.ecc b), fun b => (h_lnd b).trans (h.lnd b), fun b => (h_coh b).trans (h.coh b), fun b => (h_cph b).trans (h.cph b), fun b => (h_gal b).trans (h.gal b), fun b => (h_tru b).trans (h.tru b), fun b => (h_flt b).trans (h.flt b), fun b => (h_mp b).trans (h.mp b), fun b => (h_pwr b).trans (h.pwr b), fun b => (h_start b).trans (h.start b), fun b => (h_fresh b).trans (h.fresh b), fun b => h.out b,
   fun b p => by
    have := h_core b
    subst this
    exact h.core b p, fun b => ⟨(h_ent b).1.trans (h.entries b).1, (h_ent b).2.trans (h.entries b).2⟩, fun b => (h_dc b).trans (h.deckCore b), fun b => (h_lc b).trans (h.lc b)⟩

theorem Stays.ite {m : Nat} {s a b : State} {c : Prop} [Decidable c] (ha : Stays m s a) (hb : Stays m s b) : Stays m s (if c then a else b) := by
  split <;> assumption

theorem Stays.foldl {m : Nat} {α : Type} {s x : State} {f : State → α → State} {l : List α} (hf : ∀ t a, Stays m s t → Stays m s (f t a)) (h : Stays m s x) :
    Stays m s (l.foldl f x) := by
  induction l generalizing x with
  | nil => exact h
  | cons a r ih => exact ih (hf x a h)

theorem Stays.foldlPair {m : Nat} {α β : Type} {s : State} {f : State × β → α → State × β} {l : List α} {z : State × β}
    (hf : ∀ t a, Stays m s t.1 → Stays m s (f t a).1) (h : Stays m s z.1) : Stays m s (l.foldl f z).1 := by
  induction l generalizing z with
  | nil => exact h
  | cons a r ih => exact ih (hf z a h)

theorem Stays.each {m : Nat} {α : Type} {s x : State} {f : State → α → State} {l : List α} (hf : ∀ t a, Stays m s t → Stays m s (f t a)) (h : Stays m s x) :
    Stays m s (x.each l f) := Stays.foldl hf h

theorem Stays.when {m : Nat} {s x : State} {f : State → State} (h : Stays m s x) (c : Bool) (hf : ∀ t, Stays m s t → Stays m s (f t)) : Stays m s (x.when c f) := by
  unfold State.when; split
  · exact hf x h
  · exact h

theorem Stays.updPort {m : Nat} {s x : State} (h : Stays m s x) (p : Nat) (f : Port → Port) (hm : m &&& 0x400002 = 0x400002) : Stays m s (x.updPort p f) :=
  ⟨h.queue, h.memory, h.fuse, h.sent, h.tick, Mask.no hm (by decide), h.qm, h.tly, h.deck, h.ch, h.eng, h.mem, h.bytes, h.poison, h.ecc, h.lnd, h.coh, h.cph, h.gal, h.tru, h.flt, h.mp, h.pwr, h.start, h.fresh, h.out, Mask.no hm (by decide), h.entries, h.deckCore, h.lc⟩
theorem Stays.updPortCore {m : Nat} {s x : State} (h : Stays m s x) (p : Nat) (f : Port → Port) (hf : ∀ q, (f q).core = q.core) (hm : m &&& 0x2 = 0x2) : Stays m s (x.updPort p f) :=
  ⟨h.queue, h.memory, h.fuse, h.sent, h.tick, Mask.no hm (by decide), h.qm, h.tly, h.deck, h.ch, h.eng, h.mem, h.bytes, h.poison, h.ecc, h.lnd, h.coh, h.cph, h.gal, h.tru, h.flt, h.mp, h.pwr, h.start, h.fresh, h.out, fun b q => (State.updPort_core x p f hf q).trans (h.core b q), h.entries, h.deckCore, h.lc⟩
theorem Stays.updFn {m : Nat} {s x : State} (h : Stays m s x) (p : Nat) (f : Fn → Fn) (hm : m &&& 0x4 = 0x4) : Stays m s (x.updFn p f) :=
  ⟨h.queue, h.memory, h.fuse, h.sent, h.tick, h.ports, Mask.no hm (by decide), h.tly, h.deck, h.ch, h.eng, h.mem, h.bytes, h.poison, h.ecc, h.lnd, h.coh, h.cph, h.gal, h.tru, h.flt, h.mp, h.pwr, h.start, h.fresh, h.out, h.core, h.entries, h.deckCore, h.lc⟩
theorem Stays.updQueue {m : Nat} {s x : State} (h : Stays m s x) (p q : Nat) (f : Queue → Queue) (hm : m &&& 0x4 = 0x4) : Stays m s (x.updQueue p q f) :=
  ⟨h.queue, h.memory, h.fuse, h.sent, h.tick, h.ports, Mask.no hm (by decide), h.tly, h.deck, h.ch, h.eng, h.mem, h.bytes, h.poison, h.ecc, h.lnd, h.coh, h.cph, h.gal, h.tru, h.flt, h.mp, h.pwr, h.start, h.fresh, h.out, h.core, h.entries, h.deckCore, h.lc⟩
theorem Stays.updWin {m : Nat} {s x : State} (h : Stays m s x) (p q : Nat) (f : HWin → HWin) (hm : m &&& 0x4 = 0x4) : Stays m s (x.updWin p q f) :=
  ⟨h.queue, h.memory, h.fuse, h.sent, h.tick, h.ports, Mask.no hm (by decide), h.tly, h.deck, h.ch, h.eng, h.mem, h.bytes, h.poison, h.ecc, h.lnd, h.coh, h.cph, h.gal, h.tru, h.flt, h.mp, h.pwr, h.start, h.fresh, h.out, h.core, h.entries, h.deckCore, h.lc⟩
theorem Stays.updLink {m : Nat} {s x : State} (h : Stays m s x) (i : Nat) (f : Link → Link) (hm : m &&& 0x20 = 0x20) : Stays m s (x.updLink i f) :=
  ⟨h.queue, h.memory, h.fuse, h.sent, h.tick, h.ports, h.qm, h.tly, h.deck, Mask.no hm (by decide), h.eng, h.mem, h.bytes, h.poison, h.ecc, h.lnd, h.coh, h.cph, h.gal, h.tru, h.flt, h.mp, h.pwr, h.start, h.fresh, h.out, h.core, h.entries, h.deckCore, h.lc⟩
theorem Stays.setGroup {m : Nat} {s x : State} (h : Stays m s x) (i : Nat) (f : Group) (hm : m &&& 0x20 = 0x20) : Stays m s (x.setGroup i f) :=
  ⟨h.queue, h.memory, h.fuse, h.sent, h.tick, h.ports, h.qm, h.tly, h.deck, Mask.no hm (by decide), h.eng, h.mem, h.bytes, h.poison, h.ecc, h.lnd, h.coh, h.cph, h.gal, h.tru, h.flt, h.mp, h.pwr, h.start, h.fresh, h.out, h.core, h.entries, h.deckCore, h.lc⟩
theorem Stays.updFlow {m : Nat} {s x : State} (h : Stays m s x) (i g : Nat) (f : Flow → Flow) (hm : m &&& 0x20 = 0x20) : Stays m s (x.updFlow i g f) :=
  ⟨h.queue, h.memory, h.fuse, h.sent, h.tick, h.ports, h.qm, h.tly, h.deck, Mask.no hm (by decide), h.eng, h.mem, h.bytes, h.poison, h.ecc, h.lnd, h.coh, h.cph, h.gal, h.tru, h.flt, h.mp, h.pwr, h.start, h.fresh, h.out, h.core, h.entries, h.deckCore, h.lc⟩
theorem Stays.updLe {m : Nat} {s x : State} (h : Stays m s x) (i : Nat) (f : Eng → Eng) (hm : m &&& 0x40 = 0x40) : Stays m s (x.updLe i f) :=
  ⟨h.queue, h.memory, h.fuse, h.sent, h.tick, h.ports, h.qm, h.tly, h.deck, h.ch, Mask.no hm (by decide), h.mem, h.bytes, h.poison, h.ecc, h.lnd, h.coh, h.cph, h.gal, h.tru, h.flt, h.mp, h.pwr, h.start, h.fresh, h.out, h.core, h.entries, h.deckCore, h.lc⟩
theorem Stays.updPe {m : Nat} {s x : State} (h : Stays m s x) (i : Nat) (f : Pe → Pe) (hm : m &&& 0x40 = 0x40) : Stays m s (x.updPe i f) :=
  ⟨h.queue, h.memory, h.fuse, h.sent, h.tick, h.ports, h.qm, h.tly, h.deck, h.ch, Mask.no hm (by decide), h.mem, h.bytes, h.poison, h.ecc, h.lnd, h.coh, h.cph, h.gal, h.tru, h.flt, h.mp, h.pwr, h.start, h.fresh, h.out, h.core, h.entries, h.deckCore, h.lc⟩
theorem Stays.updEngCl {m : Nat} {s x : State} (h : Stays m s x) (i : Nat) (f : EngCl → EngCl) (hm : m &&& 0x40 = 0x40) : Stays m s (x.updEngCl i f) :=
  ⟨h.queue, h.memory, h.fuse, h.sent, h.tick, h.ports, h.qm, h.tly, h.deck, h.ch, Mask.no hm (by decide), h.mem, h.bytes, h.poison, h.ecc, h.lnd, h.coh, h.cph, h.gal, h.tru, h.flt, h.mp, h.pwr, h.start, h.fresh, h.out, h.core, h.entries, h.deckCore, h.lc⟩
theorem Stays.updMem {m : Nat} {s x : State} (h : Stays m s x) (i : Nat) (f : MemCl → MemCl) (hm : m &&& 0x80 = 0x80) : Stays m s (x.updMem i f) :=
  ⟨h.queue, h.memory, h.fuse, h.sent, h.tick, h.ports, h.qm, h.tly, h.deck, h.ch, h.eng, Mask.no hm (by decide), h.bytes, h.poison, h.ecc, h.lnd, h.coh, h.cph, h.gal, h.tru, h.flt, h.mp, h.pwr, h.start, h.fresh, h.out, h.core, h.entries, h.deckCore, h.lc⟩
theorem Stays.updHome {m : Nat} {s x : State} (h : Stays m s x) (i : Nat) (f : Home → Home) (hm : m &&& 0x1000 = 0x1000) : Stays m s (x.updHome i f) :=
  ⟨h.queue, h.memory, h.fuse, h.sent, h.tick, h.ports, h.qm, h.tly, h.deck, h.ch, h.eng, h.mem, h.bytes, h.poison, h.ecc, h.lnd, Mask.no hm (by decide), h.cph, h.gal, h.tru, h.flt, h.mp, h.pwr, h.start, h.fresh, h.out, h.core, h.entries, h.deckCore, h.lc⟩
theorem Stays.setSlot {m : Nat} {s x : State} (h : Stays m s x) (i : Nat) (k : KeySlot) (hm : m &&& 0x2000 = 0x2000) : Stays m s (x.setSlot i k) :=
  ⟨h.queue, h.memory, h.fuse, h.sent, h.tick, h.ports, h.qm, h.tly, h.deck, h.ch, h.eng, h.mem, h.bytes, h.poison, h.ecc, h.lnd, h.coh, Mask.no hm (by decide), h.gal, h.tru, h.flt, h.mp, h.pwr, h.start, h.fresh, h.out, h.core, h.entries, h.deckCore, h.lc⟩
theorem Stays.updGrp {m : Nat} {s x : State} (h : Stays m s x) (i : Nat) (f : Svc → Svc) (hm : m &&& 0x2000 = 0x2000) : Stays m s (x.updGrp i f) :=
  ⟨h.queue, h.memory, h.fuse, h.sent, h.tick, h.ports, h.qm, h.tly, h.deck, h.ch, h.eng, h.mem, h.bytes, h.poison, h.ecc, h.lnd, h.coh, Mask.no hm (by decide), h.gal, h.tru, h.flt, h.mp, h.pwr, h.start, h.fresh, h.out, h.core, h.entries, h.deckCore, h.lc⟩
theorem Stays.updCoder {m : Nat} {s x : State} (h : Stays m s x) (i : Nat) (f : Svc → Svc) (hm : m &&& 0x4000 = 0x4000) : Stays m s (x.updCoder i f) :=
  ⟨h.queue, h.memory, h.fuse, h.sent, h.tick, h.ports, h.qm, h.tly, h.deck, h.ch, h.eng, h.mem, h.bytes, h.poison, h.ecc, h.lnd, h.coh, h.cph, Mask.no hm (by decide), h.tru, h.flt, h.mp, h.pwr, h.start, h.fresh, h.out, h.core, h.entries, h.deckCore, h.lc⟩
theorem Stays.setEntry {m : Nat} {s x : State} (h : Stays m s x) (i : Nat) (e : Entry) (hm : m &&& 0x800008 = 0x800008) : Stays m s (x.setEntry i e) :=
  ⟨h.queue, h.memory, h.fuse, h.sent, h.tick, h.ports, h.qm, Mask.no hm (by decide), h.deck, h.ch, h.eng, h.mem, h.bytes, h.poison, h.ecc, h.lnd, h.coh, h.cph, h.gal, h.tru, h.flt, h.mp, h.pwr, h.start, h.fresh, h.out, h.core, Mask.no hm (by decide), h.deckCore, h.lc⟩
theorem Stays.updEntry {m : Nat} {s x : State} (h : Stays m s x) (i : Nat) (f : Entry → Entry) (hm : m &&& 0x800008 = 0x800008) : Stays m s (x.updEntry i f) :=
  ⟨h.queue, h.memory, h.fuse, h.sent, h.tick, h.ports, h.qm, Mask.no hm (by decide), h.deck, h.ch, h.eng, h.mem, h.bytes, h.poison, h.ecc, h.lnd, h.coh, h.cph, h.gal, h.tru, h.flt, h.mp, h.pwr, h.start, h.fresh, h.out, h.core, Mask.no hm (by decide), h.deckCore, h.lc⟩
theorem Stays.setTly {m : Nat} {s x : State} (h : Stays m s x) (f : Tally → Tally) (hm : m &&& 0x800008 = 0x800008) : Stays m s (x.setTly f) :=
  ⟨h.queue, h.memory, h.fuse, h.sent, h.tick, h.ports, h.qm, Mask.no hm (by decide), h.deck, h.ch, h.eng, h.mem, h.bytes, h.poison, h.ecc, h.lnd, h.coh, h.cph, h.gal, h.tru, h.flt, h.mp, h.pwr, h.start, h.fresh, h.out, h.core, Mask.no hm (by decide), h.deckCore, h.lc⟩
theorem Stays.setTlyIn {m : Nat} {s x : State} (h : Stays m s x) (f : Tally → Tally) (hf : ∀ y, (f y).entries = y.entries ∧ (f y).genBase = y.genBase) (hm : m &&& 0x8 = 0x8) : Stays m s (x.setTly f) :=
  ⟨h.queue, h.memory, h.fuse, h.sent, h.tick, h.ports, h.qm, Mask.no hm (by decide), h.deck, h.ch, h.eng, h.mem, h.bytes, h.poison, h.ecc, h.lnd, h.coh, h.cph, h.gal, h.tru, h.flt, h.mp, h.pwr, h.start, h.fresh, h.out, h.core, fun b => ⟨(hf _).1.trans (h.entries b).1, (hf _).2.trans (h.entries b).2⟩, h.deckCore, h.lc⟩
theorem Stays.setFlt {m : Nat} {s x : State} (h : Stays m s x) (f : Flt → Flt) (hm : m &&& 0x10000 = 0x10000) : Stays m s (x.setFlt f) :=
  ⟨h.queue, h.memory, h.fuse, h.sent, h.tick, h.ports, h.qm, h.tly, h.deck, h.ch, h.eng, h.mem, h.bytes, h.poison, h.ecc, h.lnd, h.coh, h.cph, h.gal, h.tru, Mask.no hm (by decide), h.mp, h.pwr, h.start, h.fresh, h.out, h.core, h.entries, h.deckCore, h.lc⟩
theorem Stays.setPwr {m : Nat} {s x : State} (h : Stays m s x) (f : Pwr → Pwr) (hm : m &&& 0x40000 = 0x40000) : Stays m s (x.setPwr f) :=
  ⟨h.queue, h.memory, h.fuse, h.sent, h.tick, h.ports, h.qm, h.tly, h.deck, h.ch, h.eng, h.mem, h.bytes, h.poison, h.ecc, h.lnd, h.coh, h.cph, h.gal, h.tru, h.flt, h.mp, Mask.no hm (by decide), h.start, h.fresh, h.out, h.core, h.entries, h.deckCore, h.lc⟩
theorem Stays.setTru {m : Nat} {s x : State} (h : Stays m s x) (f : Tru → Tru) (hm : m &&& 0x8000 = 0x8000) : Stays m s (x.setTru f) :=
  ⟨h.queue, h.memory, h.fuse, h.sent, h.tick, h.ports, h.qm, h.tly, h.deck, h.ch, h.eng, h.mem, h.bytes, h.poison, h.ecc, h.lnd, h.coh, h.cph, h.gal, Mask.no hm (by decide), h.flt, h.mp, h.pwr, h.start, h.fresh, h.out, h.core, h.entries, h.deckCore, h.lc⟩
theorem Stays.setMp {m : Nat} {s x : State} (h : Stays m s x) (f : Mp → Mp) (hm : m &&& 0x20000 = 0x20000) : Stays m s (x.setMp f) :=
  ⟨h.queue, h.memory, h.fuse, h.sent, h.tick, h.ports, h.qm, h.tly, h.deck, h.ch, h.eng, h.mem, h.bytes, h.poison, h.ecc, h.lnd, h.coh, h.cph, h.gal, h.tru, h.flt, Mask.no hm (by decide), h.pwr, h.start, h.fresh, h.out, h.core, h.entries, h.deckCore, h.lc⟩
theorem Stays.setStart {m : Nat} {s x : State} (h : Stays m s x) (f : Start → Start) (hm : m &&& 0x80000 = 0x80000) : Stays m s (x.setStart f) :=
  ⟨h.queue, h.memory, h.fuse, h.sent, h.tick, h.ports, h.qm, h.tly, h.deck, h.ch, h.eng, h.mem, h.bytes, h.poison, h.ecc, h.lnd, h.coh, h.cph, h.gal, h.tru, h.flt, h.mp, h.pwr, Mask.no hm (by decide), h.fresh, h.out, h.core, h.entries, h.deckCore, h.lc⟩
theorem Stays.setCoh {m : Nat} {s x : State} (h : Stays m s x) (f : Coh → Coh) (hm : m &&& 0x1000 = 0x1000) : Stays m s (x.setCoh f) :=
  ⟨h.queue, h.memory, h.fuse, h.sent, h.tick, h.ports, h.qm, h.tly, h.deck, h.ch, h.eng, h.mem, h.bytes, h.poison, h.ecc, h.lnd, Mask.no hm (by decide), h.cph, h.gal, h.tru, h.flt, h.mp, h.pwr, h.start, h.fresh, h.out, h.core, h.entries, h.deckCore, h.lc⟩
theorem Stays.setCh {m : Nat} {s x : State} (h : Stays m s x) (f : Ch → Ch) (hm : m &&& 0x20 = 0x20) : Stays m s (x.setCh f) :=
  ⟨h.queue, h.memory, h.fuse, h.sent, h.tick, h.ports, h.qm, h.tly, h.deck, Mask.no hm (by decide), h.eng, h.mem, h.bytes, h.poison, h.ecc, h.lnd, h.coh, h.cph, h.gal, h.tru, h.flt, h.mp, h.pwr, h.start, h.fresh, h.out, h.core, h.entries, h.deckCore, h.lc⟩
theorem Stays.setQm {m : Nat} {s x : State} (h : Stays m s x) (f : Qm → Qm) (hm : m &&& 0x4 = 0x4) : Stays m s (x.setQm f) :=
  ⟨h.queue, h.memory, h.fuse, h.sent, h.tick, h.ports, Mask.no hm (by decide), h.tly, h.deck, h.ch, h.eng, h.mem, h.bytes, h.poison, h.ecc, h.lnd, h.coh, h.cph, h.gal, h.tru, h.flt, h.mp, h.pwr, h.start, h.fresh, h.out, h.core, h.entries, h.deckCore, h.lc⟩
theorem Stays.setLnd {m : Nat} {s x : State} (h : Stays m s x) (f : Lnd → Lnd) (hm : m &&& 0x800 = 0x800) : Stays m s (x.setLnd f) :=
  ⟨h.queue, h.memory, h.fuse, h.sent, h.tick, h.ports, h.qm, h.tly, h.deck, h.ch, h.eng, h.mem, h.bytes, h.poison, h.ecc, Mask.no hm (by decide), h.coh, h.cph, h.gal, h.tru, h.flt, h.mp, h.pwr, h.start, h.fresh, h.out, h.core, h.entries, h.deckCore, h.lc⟩
theorem Stays.setEng {m : Nat} {s x : State} (h : Stays m s x) (f : EngArr → EngArr) (hm : m &&& 0x40 = 0x40) : Stays m s (x.setEng f) :=
  ⟨h.queue, h.memory, h.fuse, h.sent, h.tick, h.ports, h.qm, h.tly, h.deck, h.ch, Mask.no hm (by decide), h.mem, h.bytes, h.poison, h.ecc, h.lnd, h.coh, h.cph, h.gal, h.tru, h.flt, h.mp, h.pwr, h.start, h.fresh, h.out, h.core, h.entries, h.deckCore, h.lc⟩
theorem Stays.setDeck {m : Nat} {s x : State} (h : Stays m s x) (f : Deck → Deck) (hf : ∀ d : Deck, d.fuse = true → (f d).fuse = true) (hm : m &&& 0x3000010 = 0x3000010) : Stays m s (x.setDeck f) :=
  ⟨h.queue, h.memory, fun w => hf _ (h.fuse w), h.sent, h.tick, h.ports, h.qm, h.tly, Mask.no hm (by decide), h.ch, h.eng, h.mem, h.bytes, h.poison, h.ecc, h.lnd, h.coh, h.cph, h.gal, h.tru, h.flt, h.mp, h.pwr, h.start, h.fresh, h.out, h.core, h.entries, Mask.no hm (by decide), Mask.no hm (by decide)⟩
theorem Stays.setDeckLc {m : Nat} {s x : State} (h : Stays m s x) (f : Deck → Deck) (hf : ∀ d : Deck, (f d).fuse = d.fuse ∧ (f d).lc = d.lc) (hm : m &&& 0x1000010 = 0x1000010) : Stays m s (x.setDeck f) :=
  ⟨h.queue, h.memory, fun w => (hf _).1.trans (h.fuse w), h.sent, h.tick, h.ports, h.qm, h.tly, Mask.no hm (by decide), h.ch, h.eng, h.mem, h.bytes, h.poison, h.ecc, h.lnd, h.coh, h.cph, h.gal, h.tru, h.flt, h.mp, h.pwr, h.start, h.fresh, h.out, h.core, h.entries, Mask.no hm (by decide), fun b => (hf _).2.trans (h.lc b)⟩
theorem Stays.setDeckBlaze {m : Nat} {s x : State} (h : Stays m s x) (f : Deck → Deck) (hf : ∀ d : Deck, { f d with blaze := none } = { d with blaze := none }) (hm : m &&& 0x10 = 0x10) : Stays m s (x.setDeck f) :=
  ⟨h.queue, h.memory, fun w => (congrArg Deck.fuse (hf x.deck)).trans (h.fuse w), h.sent, h.tick, h.ports, h.qm, h.tly, Mask.no hm (by decide), h.ch, h.eng, h.mem, h.bytes, h.poison, h.ecc, h.lnd, h.coh, h.cph, h.gal, h.tru, h.flt, h.mp, h.pwr, h.start, h.fresh, h.out, h.core, h.entries, fun b => (hf _).trans (h.deckCore b), fun b => (congrArg Deck.lc (hf x.deck)).trans (h.lc b)⟩
theorem Stays.emit {m : Nat} {s x : State} (h : Stays m s x) (o : Out) (hm : m &&& 0x200000 = 0x200000) : Stays m s (x.emit o) :=
  ⟨h.queue, h.memory, h.fuse, h.sent.trans (List.prefix_append _ _), h.tick, h.ports, h.qm, h.tly, h.deck, h.ch, h.eng, h.mem, h.bytes, h.poison, h.ecc, h.lnd, h.coh, h.cph, h.gal, h.tru, h.flt, h.mp, h.pwr, h.start, h.fresh, Mask.no hm (by decide), h.core, h.entries, h.deckCore, h.lc⟩

end Sys2Proof.Machine
end

