-- ==== Sys2Proof/Laws/StaysOps.lean ====
section
/-! SUPPORT. No operation undoes what `Kept` names: one lemma for each operation of the shared operations, the memory, the homes and the service units. -/

namespace Sys2Proof.Machine

/-! ## Grants -/

theorem Stays.serveGrants {m : Nat} {s x : State} (h : Stays m s x) (hm : m &&& 0x40000 = 0x40000) : Stays m s (State.serveGrants x) := by
  unfold State.serveGrants
  dsimp only
  repeat' (first | with_reducible assumption | exact Mask.of hm rfl | with_reducible apply Stays.setPwr)

theorem Stays.askGrant {m : Nat} {s x : State} (h : Stays m s x) (cls0 : Nat) (amps0 : Nat) (who0 : Nat) (hm : m &&& 0x40000 = 0x40000) : Stays m s (State.askGrant x cls0 amps0 who0) := by
  unfold State.askGrant
  repeat' (first | with_reducible assumption | exact Mask.of hm rfl | with_reducible apply Stays.serveGrants | with_reducible apply Stays.setPwr | with_reducible apply Stays.ite | split)

theorem Stays.releaseGrant {m : Nat} {s x : State} (h : Stays m s x) (cls0 : Nat) (who0 : Nat) (hm : m &&& 0x40000 = 0x40000) : Stays m s (State.releaseGrant x cls0 who0) := by
  unfold State.releaseGrant
  repeat' (first | with_reducible assumption | exact Mask.of hm rfl | with_reducible apply Stays.serveGrants | with_reducible apply Stays.setPwr)

/-! ## Ops -/

theorem Stays.sendMsix {m : Nat} {s x : State} (h : Stays m s x) (p0 : Nat) (f0 : Nat) (vec0 : Nat) (hm : m &&& 0x200002 = 0x200002) : Stays m s (State.sendMsix x p0 f0 vec0) := by
  unfold State.sendMsix
  dsimp only
  repeat' (first | with_reducible assumption | exact Mask.of hm rfl | with_reducible apply Stays.emit | with_reducible refine Stays.updPortCore ?_ _ _ (fun _ => rfl) (Mask.of hm rfl) | with_reducible refine Stays.updPort ?_ _ _ (Mask.of hm rfl) | with_reducible apply Stays.ite)

theorem Stays.setEvent {m : Nat} {s x : State} (h : Stays m s x) (f0 : Nat) (b0 : Nat) (hm : m &&& 0x200006 = 0x200006) : Stays m s (State.setEvent x f0 b0) := by
  unfold State.setEvent
  dsimp only
  repeat' (first | with_reducible assumption | exact Mask.of hm rfl | with_reducible apply Stays.sendMsix | with_reducible apply Stays.updFn | with_reducible refine Stays.foldl (fun t a ht => ?_) ?_ | with_reducible apply Stays.ite)

theorem Stays.clampFn {m : Nat} {s x : State} (h : Stays m s x) (f0 : Nat) (n0 : Nat) (hm : m &&& 0x4 = 0x4) : Stays m s (State.clampFn x f0 n0) := by
  unfold State.clampFn
  repeat' (first | with_reducible assumption | exact Mask.of hm rfl | with_reducible apply Stays.updFn | with_reducible apply Stays.ite)

theorem Stays.putCmd {m : Nat} {s x : State} (h : Stays m s x) (c0 : Cmd) (hm : m &&& 0x4 = 0x4) : Stays m s (State.putCmd x c0) := by
  unfold State.putCmd
  repeat' (first | with_reducible assumption | exact Mask.of hm rfl | with_reducible apply Stays.setQm)

theorem Stays.dropCmd {m : Nat} {s x : State} (h : Stays m s x) (h0 : Nat) (hm : m &&& 0x4 = 0x4) : Stays m s (State.dropCmd x h0) := by
  unfold State.dropCmd
  repeat' (first | with_reducible assumption | exact Mask.of hm rfl | with_reducible apply Stays.setQm)

theorem Stays.addDue {m : Nat} {s x : State} (h : Stays m s x) (f0 : Nat) (q0 : Nat) (d0 : Due) (hm : m &&& 0x4 = 0x4) : Stays m s (State.addDue x f0 q0 d0) := by
  unfold State.addDue
  repeat' (first | with_reducible assumption | exact Mask.of hm rfl | with_reducible apply Stays.updQueue)

theorem Stays.finish {m : Nat} {s x : State} (h : Stays m s x) (c0 : Cmd) (status0 : Nat) (tid0 : Nat) (r00 : Nat) (r10 : Nat) (hm : m &&& 0x4 = 0x4) : Stays m s (State.finish x c0 status0 tid0 r00 r10) := by
  unfold State.finish
  repeat' (first | with_reducible assumption | exact Mask.of hm rfl | with_reducible apply Stays.dropCmd | with_reducible apply Stays.addDue)

theorem Stays.finishH {m : Nat} {s x : State} (h : Stays m s x) (h0 : Nat) (status0 : Nat) (r00 : Nat) (r10 : Nat) (hm : m &&& 0x4 = 0x4) : Stays m s (State.finishH x h0 status0 r00 r10) := by
  unfold State.finishH
  repeat' (first | with_reducible assumption | exact Mask.of hm rfl | with_reducible apply Stays.finish | split)

theorem Stays.drawn {m : Nat} {s x : State} (h : Stays m s x) (hm : m &&& 0x100000 = 0x100000) : Stays m s (State.drawn x) := by
  unfold State.drawn
  all_goals with_reducible refine Stays.build ?_ _ _ _ _ _ _ _ _ _ _ _ _ _ _ _ _ _ _ _ _ _ ?_ ?_ ?_ ?_ ?_ ?_ ?_ ?_ ?_ ?_ ?_ ?_ ?_ ?_ ?_ ?_ ?_ ?_ ?_ ?_ ?_ ?_ ?_ ?_ ?_ ?_ ?_
  all_goals (first | exact fun hw => hw | exact fun _ => rfl | exact fun _ => ⟨rfl, rfl⟩ | exact Mask.no hm (by decide) | skip)
  repeat' (first | with_reducible assumption)

theorem Stays.attnDrive {m : Nat} {s x : State} (h : Stays m s x) (on0 : Bool) (hm : m &&& 0x200002 = 0x200002) : Stays m s (State.attnDrive x on0) := by
  unfold State.attnDrive
  repeat' (first | with_reducible assumption | exact Mask.of hm rfl | with_reducible apply Stays.emit | with_reducible refine Stays.updPortCore ?_ _ _ (fun _ => rfl) (Mask.of hm rfl) | with_reducible refine Stays.updPort ?_ _ _ (Mask.of hm rfl) | with_reducible refine Stays.foldl (fun t a ht => ?_) ?_ | with_reducible apply Stays.ite)

theorem Stays.quietLinks {m : Nat} {s x : State} (h : Stays m s x) (hm : m &&& 0x40020 = 0x40020) : Stays m s (State.quietLinks x) := by
  unfold State.quietLinks
  dsimp only
  repeat' (first | with_reducible assumption | exact Mask.of hm rfl | with_reducible apply Stays.setPwr | with_reducible apply Stays.updLink | with_reducible refine Stays.foldl (fun t a ht => ?_) ?_)

theorem Stays.graveStop {m : Nat} {s x : State} (h : Stays m s x) (src0 : W16) (hm : m &&& 0x2d003a = 0x2d003a) : Stays m s (State.graveStop x src0) := by
  unfold State.graveStop
  dsimp only
  repeat' (first | with_reducible assumption | exact Mask.of hm rfl | with_reducible apply Stays.attnDrive | with_reducible apply Stays.quietLinks | with_reducible apply Stays.askGrant | with_reducible apply Stays.emit | with_reducible refine Stays.updPortCore ?_ _ _ (fun _ => rfl) (Mask.of hm rfl) | with_reducible refine Stays.updPort ?_ _ _ (Mask.of hm rfl) | with_reducible apply Stays.ite | split)
  all_goals with_reducible refine Stays.build ?_ _ _ _ _ _ _ _ _ _ _ _ _ _ _ _ _ _ _ _ _ _ ?_ ?_ ?_ ?_ ?_ ?_ ?_ ?_ ?_ ?_ ?_ ?_ ?_ ?_ ?_ ?_ ?_ ?_ ?_ ?_ ?_ ?_ ?_ ?_ ?_ ?_ ?_
  all_goals (first | exact fun hw => hw | exact fun _ => rfl | exact fun _ => ⟨rfl, rfl⟩ | exact Mask.no hm (by decide) | skip)
  repeat' (first | with_reducible assumption)

theorem Stays.injEnd {m : Nat} {s x : State} (h : Stays m s x) (unit0 : W16) (status0 : Nat) (val0 : Nat) (hm : m &&& 0x10004 = 0x10004) : Stays m s (State.injEnd x unit0 status0 val0) := by
  unfold State.injEnd
  dsimp only
  repeat' (first | with_reducible assumption | exact Mask.of hm rfl | with_reducible apply Stays.finishH | with_reducible apply Stays.setFlt | with_reducible apply Stays.ite | split)

theorem Stays.injRecorded {m : Nat} {s x : State} (h : Stays m s x) (unit0 : W16) (index0 : W32) (hm : m &&& 0x10004 = 0x10004) : Stays m s (State.injRecorded x unit0 index0) := by
  unfold State.injRecorded
  repeat' (first | with_reducible assumption | exact Mask.of hm rfl | with_reducible apply Stays.injEnd | with_reducible apply Stays.setFlt | with_reducible apply Stays.ite)

theorem Stays.report {m : Nat} {s x : State} (h : Stays m s x) (r0 : Report) (hm : m &&& 0x2d003e = 0x2d003e) : Stays m s (State.report x r0) := by
  unfold State.report
  dsimp only
  repeat' (first | with_reducible assumption | exact Mask.of hm rfl | with_reducible apply Stays.setEvent | with_reducible apply Stays.graveStop | with_reducible apply Stays.injRecorded | with_reducible apply Stays.setFlt | with_reducible apply Stays.ite)

theorem Stays.rep0 {m : Nat} {s x : State} (h : Stays m s x) (source0 : Nat) (kind0 : Nat) (detail0 : Nat) (hm : m &&& 0x2d003e = 0x2d003e) : Stays m s (State.rep0 x source0 kind0 detail0) := by
  unfold State.rep0
  repeat' (first | with_reducible assumption | exact Mask.of hm rfl | with_reducible apply Stays.report)

theorem Stays.repF {m : Nat} {s x : State} (h : Stays m s x) (source0 : Nat) (kind0 : Nat) (func0 : Nat) (detail0 : Nat) (hm : m &&& 0x2d003e = 0x2d003e) : Stays m s (State.repF x source0 kind0 func0 detail0) := by
  unfold State.repF
  repeat' (first | with_reducible assumption | exact Mask.of hm rfl | with_reducible apply Stays.report)

theorem Stays.repT {m : Nat} {s x : State} (h : Stays m s x) (source0 : Nat) (kind0 : Nat) (tid0 : W32) (func0 : Nat) (detail0 : Nat) (inj0 : Bool) (sec0 : Bool) (hm : m &&& 0x2d003e = 0x2d003e) : Stays m s (State.repT x source0 kind0 tid0 func0 detail0 inj0 sec0) := by
  unfold State.repT
  repeat' (first | with_reducible assumption | exact Mask.of hm rfl | with_reducible apply Stays.report)

theorem Stays.fire {m : Nat} {s x : State} (h : Stays m s x) (u0 : Nat) (hm : m &&& 0x10000 = 0x10000) : Stays m s (State.fire x u0) := by
  unfold State.fire
  repeat' (first | with_reducible assumption | exact Mask.of hm rfl | with_reducible apply Stays.setFlt)

theorem Stays.injWithdraw {m : Nat} {s x : State} (h : Stays m s x) (u0 : Nat) (hm : m &&& 0x10004 = 0x10004) : Stays m s (State.injWithdraw x u0) := by
  unfold State.injWithdraw
  repeat' (first | with_reducible assumption | exact Mask.of hm rfl | with_reducible apply Stays.injEnd | with_reducible apply Stays.ite)

/-! ## TallyOps -/

theorem Stays.queueBuilt {m : Nat} {s x : State} (h : Stays m s x) (l0 : Nat) (q0 : Queued) (hm : m &&& 0x20 = 0x20) : Stays m s (State.queueBuilt x l0 q0) := by
  unfold State.queueBuilt
  repeat' (first | with_reducible assumption | exact Mask.of hm rfl | with_reducible apply Stays.updLink)

theorem Stays.queueFrame {m : Nat} {s x : State} (h : Stays m s x) (l0 : Nat) (f0 : Frame) (hm : m &&& 0x20 = 0x20) : Stays m s (State.queueFrame x l0 f0) := by
  unfold State.queueFrame
  repeat' (first | with_reducible assumption | exact Mask.of hm rfl | with_reducible apply Stays.queueBuilt)

theorem Stays.lateMessage {m : Nat} {s x : State} (h : Stays m s x) (t0 : W32) (hm : m &&& 0x8 = 0x8) : Stays m s (State.lateMessage x t0) := by
  unfold State.lateMessage
  repeat' (first | with_reducible assumption | exact Mask.of hm rfl | with_reducible refine Stays.setTlyIn ?_ _ (fun _ => ⟨rfl, rfl⟩) (Mask.of hm rfl) | with_reducible refine Stays.setTly ?_ _ (Mask.of hm rfl) | with_reducible apply Stays.ite)

theorem Stays.postFrom {m : Nat} {s x : State} (h : Stays m s x) (e0 : Nat) (k0 : EvSrc) (t0 : W32) (kind0 : Nat) (slot0 : Nat) (val0 : Nat) (hm : m &&& 0x48 = 0x48) : Stays m s (State.postFrom x e0 k0 t0 kind0 slot0 val0) := by
  unfold State.postFrom
  dsimp only
  repeat' (first | with_reducible assumption | exact Mask.of hm rfl | with_reducible apply Stays.lateMessage | with_reducible apply Stays.updLe | with_reducible apply Stays.ite)

theorem Stays.postTo {m : Nat} {s x : State} (h : Stays m s x) (e0 : Nat) (t0 : W32) (kind0 : Nat) (slot0 : Nat) (val0 : Nat) (hm : m &&& 0x48 = 0x48) : Stays m s (State.postTo x e0 t0 kind0 slot0 val0) := by
  unfold State.postTo
  repeat' (first | with_reducible assumption | exact Mask.of hm rfl | with_reducible apply Stays.postFrom)

theorem Stays.postEvent {m : Nat} {s x : State} (h : Stays m s x) (t0 : W32) (kind0 : Nat) (slot0 : Nat) (val0 : Nat) (hm : m &&& 0x48 = 0x48) : Stays m s (State.postEvent x t0 kind0 slot0 val0) := by
  unfold State.postEvent
  repeat' (first | with_reducible assumption | exact Mask.of hm rfl | with_reducible apply Stays.lateMessage | with_reducible apply Stays.postTo | split)

theorem Stays.dueEntry {m : Nat} {s x : State} (h : Stays m s x) (i0 : Nat) (k0 : DueKind) (hm : m &&& 0x4 = 0x4) : Stays m s (State.dueEntry x i0 k0) := by
  unfold State.dueEntry
  dsimp only
  repeat' (first | with_reducible assumption | exact Mask.of hm rfl | with_reducible apply Stays.addDue | split)

theorem Stays.dueCheck {m : Nat} {s x : State} (h : Stays m s x) (i0 : Nat) (hm : m &&& 0x4 = 0x4) : Stays m s (State.dueCheck x i0) := by
  unfold State.dueCheck
  dsimp only
  repeat' (first | with_reducible assumption | exact Mask.of hm rfl | with_reducible apply Stays.dueEntry | with_reducible apply Stays.ite)

theorem Stays.freeAbortNote {m : Nat} {s x : State} (h : Stays m s x) (t0 : W32) (hm : m &&& 0x1000010 = 0x1000010) : Stays m s (State.freeAbortNote x t0) := by
  unfold State.freeAbortNote
  dsimp only
  repeat' (first | with_reducible assumption | exact Mask.of hm rfl | with_reducible refine Stays.setDeckBlaze ?_ _ (fun _ => rfl) (Mask.of hm rfl) | with_reducible refine Stays.setDeckLc ?_ _ (fun _ => ⟨rfl, rfl⟩) (Mask.of hm rfl))

theorem Stays.freeCheck {m : Nat} {s x : State} (h : Stays m s x) (i0 : Nat) (hm : m &&& 0x180003c = 0x180003c) : Stays m s (State.freeCheck x i0) := by
  unfold State.freeCheck
  dsimp only
  repeat' (first | with_reducible assumption | exact Mask.of hm rfl | with_reducible refine Stays.setDeckBlaze ?_ _ (fun _ => rfl) (Mask.of hm rfl) | with_reducible refine Stays.setDeckLc ?_ _ (fun _ => ⟨rfl, rfl⟩) (Mask.of hm rfl) | with_reducible refine Stays.setDeck ?_ _ (fun d hd => ?_) (Mask.of hm rfl) | with_reducible apply Stays.setEntry | with_reducible apply Stays.setQm | with_reducible refine Stays.setTlyIn ?_ _ (fun _ => ⟨rfl, rfl⟩) (Mask.of hm rfl) | with_reducible refine Stays.setTly ?_ _ (Mask.of hm rfl) | with_reducible apply Stays.updFlow | with_reducible refine Stays.foldl (fun t a ht => ?_) ?_ | with_reducible apply Stays.ite)

theorem Stays.addNote {m : Nat} {s x : State} (h : Stays m s x) (i0 : Nat) (commit0 : Bool) (hm : m &&& 0x1000010 = 0x1000010) : Stays m s (State.addNote x i0 commit0) := by
  unfold State.addNote
  dsimp only
  repeat' (first | with_reducible assumption | exact Mask.of hm rfl | with_reducible refine Stays.setDeckBlaze ?_ _ (fun _ => rfl) (Mask.of hm rfl) | with_reducible refine Stays.setDeckLc ?_ _ (fun _ => ⟨rfl, rfl⟩) (Mask.of hm rfl) | with_reducible refine Stays.setDeck ?_ _ (fun d hd => ?_) (Mask.of hm rfl) | with_reducible apply Stays.ite)

theorem Stays.sendMsg {m : Nat} {s x : State} (h : Stays m s x) (m0 : OutMsg) (slot0 : Nat) (l0 : Nat) (hm : m &&& 0x28 = 0x28) : Stays m s (State.sendMsg x m0 slot0 l0) := by
  unfold State.sendMsg
  dsimp only
  repeat' (first | with_reducible assumption | exact Mask.of hm rfl | with_reducible apply Stays.queueFrame | with_reducible refine Stays.setTlyIn ?_ _ (fun _ => ⟨rfl, rfl⟩) (Mask.of hm rfl))

theorem Stays.addMsg {m : Nat} {s x : State} (h : Stays m s x) (m0 : OutMsg) (sel0 : Nat) (hm : m &&& 0x28 = 0x28) : Stays m s (State.addMsg x m0 sel0) := by
  unfold State.addMsg
  dsimp only
  repeat' (first | with_reducible assumption | exact Mask.of hm rfl | with_reducible apply Stays.sendMsg | with_reducible refine Stays.setTlyIn ?_ _ (fun _ => ⟨rfl, rfl⟩) (Mask.of hm rfl) | with_reducible refine Stays.setTly ?_ _ (Mask.of hm rfl) | split)

theorem Stays.sendOutcome {m : Nat} {s x : State} (h : Stays m s x) (i0 : Nat) (type0 : Nat) (hm : m &&& 0x28 = 0x28) : Stays m s (State.sendOutcome x i0 type0) := by
  unfold State.sendOutcome
  dsimp only
  repeat' (first | with_reducible assumption | exact Mask.of hm rfl | with_reducible apply Stays.addMsg | with_reducible refine Stays.foldl (fun t a ht => ?_) ?_ | with_reducible apply Stays.ite)

theorem Stays.abortEntry {m : Nat} {s x : State} (h : Stays m s x) (i0 : Nat) (status0 : Nat) (value0 : Nat) (own0 : Bool) (hm : m &&& 0x180007c = 0x180007c) : Stays m s (State.abortEntry x i0 status0 value0 own0) := by
  unfold State.abortEntry
  dsimp only
  repeat' (first | with_reducible assumption | exact Mask.of hm rfl | with_reducible apply Stays.postEvent | with_reducible apply Stays.dueCheck | with_reducible apply Stays.freeCheck | with_reducible apply Stays.addNote | with_reducible apply Stays.sendOutcome | with_reducible refine Stays.setTlyIn ?_ _ (fun _ => ⟨rfl, rfl⟩) (Mask.of hm rfl) | with_reducible refine Stays.setTly ?_ _ (Mask.of hm rfl) | with_reducible apply Stays.updEntry | with_reducible apply Stays.ite)

theorem Stays.commitEntry {m : Nat} {s x : State} (h : Stays m s x) (i0 : Nat) (r00 : W32) (r10 : W32) (hm : m &&& 0x180003c = 0x180003c) : Stays m s (State.commitEntry x i0 r00 r10) := by
  unfold State.commitEntry
  dsimp only
  repeat' (first | with_reducible assumption | exact Mask.of hm rfl | with_reducible apply Stays.dueCheck | with_reducible apply Stays.addNote | with_reducible apply Stays.sendOutcome | with_reducible apply Stays.updEntry | with_reducible apply Stays.ite)

theorem Stays.failEntry {m : Nat} {s x : State} (h : Stays m s x) (i0 : Nat) (index0 : W32) (hm : m &&& 0x180007c = 0x180007c) : Stays m s (State.failEntry x i0 index0) := by
  unfold State.failEntry
  repeat' (first | with_reducible assumption | exact Mask.of hm rfl | with_reducible apply Stays.abortEntry | with_reducible apply Stays.ite)

theorem Stays.loseGroup {m : Nat} {s x : State} (h : Stays m s x) (i0 : Nat) (g0 : Nat) (srcLink0 : Nat) (hm : m &&& 0xad007e = 0xad007e) : Stays m s (State.loseGroup x i0 g0 srcLink0) := by
  unfold State.loseGroup
  dsimp only
  repeat' (first | with_reducible assumption | exact Mask.of hm rfl | with_reducible apply Stays.repT | with_reducible apply Stays.postEvent | with_reducible apply Stays.dueEntry | with_reducible apply Stays.setEntry | with_reducible apply Stays.updFlow | with_reducible apply Stays.ite)

theorem Stays.takeIndex {m : Nat} {s x : State} (h : Stays m s x) (i0 : Nat) (hm : m &&& 0x8 = 0x8) : Stays m s (State.takeIndex x i0) := by
  unfold State.takeIndex
  dsimp only
  repeat' (first | with_reducible assumption | exact Mask.of hm rfl | with_reducible refine Stays.setTlyIn ?_ _ (fun _ => ⟨rfl, rfl⟩) (Mask.of hm rfl))

/-! ## Memory -/

theorem Stays.lndWrite {m : Nat} {s x : State} (h : Stays m s x) (a0 : Nat) (d0 : Sector) (poison0 : Bool) (hm : m &&& 0x10700 = 0x10700) : Stays m s (State.lndWrite x a0 d0 poison0) := by
  unfold State.lndWrite
  dsimp only
  repeat' (first | with_reducible assumption | exact Mask.of hm rfl | with_reducible apply Stays.fire | with_reducible apply Stays.ite | split)
  all_goals with_reducible refine Stays.build ?_ _ _ _ _ _ _ _ _ _ _ _ _ _ _ _ _ _ _ _ _ _ ?_ ?_ ?_ ?_ ?_ ?_ ?_ ?_ ?_ ?_ ?_ ?_ ?_ ?_ ?_ ?_ ?_ ?_ ?_ ?_ ?_ ?_ ?_ ?_ ?_ ?_ ?_
  all_goals (first | with_reducible assumption | exact fun hw => hw | exact fun _ => rfl | exact fun _ => ⟨rfl, rfl⟩ | exact Mask.no hm (by decide) | exact fun hw => Memory.wf_setN _ _ _ hw)

theorem Stays.lndCheck {m : Nat} {s x : State} (h : Stays m s x) (a0 : Nat) (sec0 : Bool) (hm : m &&& 0x2d0e3e = 0x2d0e3e) : Stays m s (State.lndCheck x a0 sec0) := by
  unfold State.lndCheck
  dsimp only
  repeat' (first | with_reducible assumption | exact Mask.of hm rfl | with_reducible apply Stays.repT | with_reducible apply Stays.setLnd | with_reducible apply Stays.ite | split)
  all_goals with_reducible refine Stays.build ?_ _ _ _ _ _ _ _ _ _ _ _ _ _ _ _ _ _ _ _ _ _ ?_ ?_ ?_ ?_ ?_ ?_ ?_ ?_ ?_ ?_ ?_ ?_ ?_ ?_ ?_ ?_ ?_ ?_ ?_ ?_ ?_ ?_ ?_ ?_ ?_ ?_ ?_
  all_goals (first | exact fun hw => hw | exact fun _ => rfl | exact fun _ => ⟨rfl, rfl⟩ | exact Mask.no hm (by decide) | skip)
  repeat' (first | with_reducible assumption)

theorem Stays.scrWrite {m : Nat} {s x : State} (h : Stays m s x) (a0 : Nat) (n0 : Nat) (v0 : Nat) (hm : m &&& 0x10700 = 0x10700) : Stays m s (State.scrWrite x a0 n0 v0) := by
  unfold State.scrWrite
  dsimp only
  repeat' (first | with_reducible assumption | exact Mask.of hm rfl | with_reducible apply Stays.fire | with_reducible apply Stays.ite | split)
  all_goals with_reducible refine Stays.build ?_ _ _ _ _ _ _ _ _ _ _ _ _ _ _ _ _ _ _ _ _ _ ?_ ?_ ?_ ?_ ?_ ?_ ?_ ?_ ?_ ?_ ?_ ?_ ?_ ?_ ?_ ?_ ?_ ?_ ?_ ?_ ?_ ?_ ?_ ?_ ?_ ?_ ?_
  all_goals (first | with_reducible assumption | exact fun hw => hw | exact fun _ => rfl | exact fun _ => ⟨rfl, rfl⟩ | exact Mask.no hm (by decide) | exact fun hw => Memory.wf_setN _ _ _ hw)

theorem Stays.memCount {m : Nat} {s x : State} (h : Stays m s x) (c0 : Nat) (j0 : Nat) (n0 : Nat) (sec0 : Bool) (hm : m &&& 0x80 = 0x80) : Stays m s (State.memCount x c0 j0 n0 sec0) := by
  unfold State.memCount
  repeat' (first | with_reducible assumption | exact Mask.of hm rfl | with_reducible apply Stays.updMem | with_reducible apply Stays.ite)

theorem Stays.scrCheck {m : Nat} {s x : State} (h : Stays m s x) (a0 : Nat) (sec0 : Bool) (hm : m &&& 0x2d06be = 0x2d06be) : Stays m s (State.scrCheck x a0 sec0) := by
  unfold State.scrCheck
  dsimp only
  repeat' (first | with_reducible assumption | exact Mask.of hm rfl | with_reducible apply Stays.repT | with_reducible apply Stays.memCount | with_reducible apply Stays.ite | split)
  all_goals with_reducible refine Stays.build ?_ _ _ _ _ _ _ _ _ _ _ _ _ _ _ _ _ _ _ _ _ _ ?_ ?_ ?_ ?_ ?_ ?_ ?_ ?_ ?_ ?_ ?_ ?_ ?_ ?_ ?_ ?_ ?_ ?_ ?_ ?_ ?_ ?_ ?_ ?_ ?_ ?_ ?_
  all_goals (first | exact fun hw => hw | exact fun _ => rfl | exact fun _ => ⟨rfl, rfl⟩ | exact Mask.no hm (by decide) | skip)
  repeat' (first | with_reducible assumption)

theorem Stays.updL1 {m : Nat} {s x : State} (h : Stays m s x) (c0 : Nat) (slot0 : Nat) (f0 : L1 → L1) (hm : m &&& 0x80 = 0x80) : Stays m s (State.updL1 x c0 slot0 f0) := by
  unfold State.updL1
  repeat' (first | with_reducible assumption | exact Mask.of hm rfl | with_reducible apply Stays.updMem)

theorem Stays.dropL1s {m : Nat} {s x : State} (h : Stays m s x) (c0 : Nat) (a0 : Nat) (hm : m &&& 0x80 = 0x80) : Stays m s (State.dropL1s x c0 a0) := by
  unfold State.dropL1s
  repeat' (first | with_reducible assumption | exact Mask.of hm rfl | with_reducible apply Stays.updL1 | with_reducible refine Stays.foldl (fun t a ht => ?_) ?_ | split)

theorem Stays.l1Count {m : Nat} {s x : State} (h : Stays m s x) (c0 : Nat) (slot0 : Nat) (j0 : Nat) (sec0 : Bool) (hm : m &&& 0x80 = 0x80) : Stays m s (State.l1Count x c0 slot0 j0 sec0) := by
  unfold State.l1Count
  repeat' (first | with_reducible assumption | exact Mask.of hm rfl | with_reducible apply Stays.updL1 | with_reducible apply Stays.ite)

theorem Stays.parityFound {m : Nat} {s x : State} (h : Stays m s x) (c0 : Nat) (slot0 : Nat) (a0 : Nat) (dirty0 : Bool) (hm : m &&& 0x2d00fe = 0x2d00fe) : Stays m s (State.parityFound x c0 slot0 a0 dirty0) := by
  unfold State.parityFound
  dsimp only
  repeat' (first | with_reducible assumption | exact Mask.of hm rfl | with_reducible apply Stays.repT | with_reducible apply Stays.updL1 | with_reducible apply Stays.l1Count | with_reducible apply Stays.dropSec | with_reducible apply Stays.updPe | with_reducible apply Stays.ite)

theorem Stays.tagFound {m : Nat} {s x : State} (h : Stays m s x) (c0 : Nat) (slot0 : Nat) (a0 : Nat) (hm : m &&& 0xc0 = 0xc0) : Stays m s (State.tagFound x c0 slot0 a0) := by
  unfold State.tagFound
  dsimp only
  repeat' (first | with_reducible assumption | exact Mask.of hm rfl | with_reducible apply Stays.updL1 | with_reducible apply Stays.l1Count | with_reducible apply Stays.dropSec | with_reducible apply Stays.updPe | with_reducible refine Stays.foldl (fun t a ht => ?_) ?_ | with_reducible apply Stays.ite | split)

theorem Stays.l2Touch {m : Nat} {s x : State} (h : Stays m s x) (c0 : Nat) (a0 : Nat) (hm : m &&& 0x80 = 0x80) : Stays m s (State.l2Touch x c0 a0) := by
  unfold State.l2Touch
  dsimp only
  repeat' (first | with_reducible assumption | exact Mask.of hm rfl | with_reducible apply Stays.updMem)

theorem Stays.l2Check {m : Nat} {s x : State} (h : Stays m s x) (c0 : Nat) (a0 : Nat) (hm : m &&& 0x2d00fe = 0x2d00fe) : Stays m s (State.l2Check x c0 a0) := by
  unfold State.l2Check
  dsimp only
  repeat' (first | with_reducible assumption | exact Mask.of hm rfl | with_reducible apply Stays.repT | with_reducible apply Stays.memCount | with_reducible apply Stays.dropL1s | with_reducible apply Stays.updMem | with_reducible apply Stays.updPe | with_reducible refine Stays.foldl (fun t a ht => ?_) ?_ | with_reducible apply Stays.ite)

theorem Stays.l2Mark {m : Nat} {s x : State} (h : Stays m s x) (c0 : Nat) (a0 : Nat) (sec0 : Bool) (hm : m &&& 0x10080 = 0x10080) : Stays m s (State.l2Mark x c0 a0 sec0) := by
  unfold State.l2Mark
  dsimp only
  repeat' (first | with_reducible assumption | exact Mask.of hm rfl | with_reducible apply Stays.fire | with_reducible apply Stays.updMem | with_reducible apply Stays.ite)

theorem Stays.l2Take {m : Nat} {s x : State} (h : Stays m s x) (c0 : Nat) (slot0 : Nat) (a0 : Nat) (x0 : L1Sec) (hm : m &&& 0x10080 = 0x10080) : Stays m s (State.l2Take x c0 slot0 a0 x0) := by
  unfold State.l2Take
  dsimp only
  repeat' (first | with_reducible assumption | exact Mask.of hm rfl | with_reducible apply Stays.l2Mark | with_reducible apply Stays.updMem)

theorem Stays.collect {m : Nat} {s x : State} (h : Stays m s x) (c0 : Nat) (a0 : Nat) (hm : m &&& 0x2d00fe = 0x2d00fe) : Stays m s (State.collect x c0 a0) := by
  unfold State.collect
  repeat' (first | with_reducible assumption | exact Mask.of hm rfl | with_reducible apply Stays.updL1 | with_reducible apply Stays.parityFound | with_reducible apply Stays.l2Take | with_reducible refine Stays.foldl (fun t a ht => ?_) ?_ | with_reducible apply Stays.ite | split)

theorem Stays.l2Clean {m : Nat} {s x : State} (h : Stays m s x) (c0 : Nat) (a0 : Nat) (hm : m &&& 0x10780 = 0x10780) : Stays m s (State.l2Clean x c0 a0) := by
  unfold State.l2Clean
  dsimp only
  repeat' (first | with_reducible assumption | exact Mask.of hm rfl | with_reducible apply Stays.lndWrite | with_reducible apply Stays.updMem | with_reducible apply Stays.ite)

theorem Stays.gather {m : Nat} {s x : State} (h : Stays m s x) (c0 : Nat) (a0 : Nat) (hm : m &&& 0x2d00fe = 0x2d00fe) : Stays m s (State.gather x c0 a0) := by
  unfold State.gather
  repeat' (first | with_reducible assumption | exact Mask.of hm rfl | with_reducible apply Stays.l2Check | with_reducible apply Stays.collect)

theorem Stays.dropSec {m : Nat} {s x : State} (h : Stays m s x) (c0 : Nat) (a0 : Nat) (hm : m &&& 0x80 = 0x80) : Stays m s (State.dropSec x c0 a0) := by
  unfold State.dropSec
  repeat' (first | with_reducible assumption | exact Mask.of hm rfl | with_reducible apply Stays.dropL1s | with_reducible apply Stays.updMem)

theorem Stays.dropAll {m : Nat} {s x : State} (h : Stays m s x) (a0 : Nat) (hm : m &&& 0x80 = 0x80) : Stays m s (State.dropAll x a0) := by
  unfold State.dropAll
  repeat' (first | with_reducible assumption | exact Mask.of hm rfl | with_reducible apply Stays.dropSec | with_reducible refine Stays.foldl (fun t a ht => ?_) ?_)

theorem Stays.evictSec {m : Nat} {s x : State} (h : Stays m s x) (c0 : Nat) (a0 : Nat) (hm : m &&& 0x2d17fe = 0x2d17fe) : Stays m s (State.evictSec x c0 a0) := by
  unfold State.evictSec
  dsimp only
  repeat' (first | with_reducible assumption | exact Mask.of hm rfl | with_reducible apply Stays.lndWrite | with_reducible apply Stays.dropL1s | with_reducible apply Stays.l2Check | with_reducible apply Stays.collect | with_reducible apply Stays.updHome | with_reducible apply Stays.updMem | with_reducible apply Stays.ite)

theorem Stays.l2Alloc {m : Nat} {s x : State} (h : Stays m s x) (c0 : Nat) (e0 : Option Nat) (a0 : Nat) (hm : m &&& 0x2d17fe = 0x2d17fe) : Stays m s (State.l2Alloc x c0 e0 a0) := by
  unfold State.l2Alloc
  dsimp only
  repeat' (first | with_reducible assumption | exact Mask.of hm rfl | with_reducible apply Stays.evictSec | with_reducible apply Stays.updMem | with_reducible apply Stays.ite | split)

theorem Stays.l2Fill {m : Nat} {s x : State} (h : Stays m s x) (c0 : Nat) (e0 : Option Nat) (a0 : Nat) (x0 : L2Sec) (hm : m &&& 0x2d17fe = 0x2d17fe) : Stays m s (State.l2Fill x c0 e0 a0 x0) := by
  unfold State.l2Fill
  repeat' (first | with_reducible assumption | exact Mask.of hm rfl | with_reducible apply Stays.l2Touch | with_reducible apply Stays.l2Mark | with_reducible apply Stays.l2Alloc | with_reducible apply Stays.updMem | with_reducible apply Stays.ite)

theorem Stays.writeBack {m : Nat} {s x : State} (h : Stays m s x) (c0 : Nat) (slot0 : Nat) (b0 : Option L1Blk) (hm : m &&& 0x2d07fe = 0x2d07fe) : Stays m s (State.writeBack x c0 slot0 b0) := by
  unfold State.writeBack
  dsimp only
  repeat' (first | with_reducible assumption | exact Mask.of hm rfl | with_reducible apply Stays.lndWrite | with_reducible apply Stays.parityFound | with_reducible apply Stays.l2Take | with_reducible refine Stays.foldl (fun t a ht => ?_) ?_ | with_reducible apply Stays.ite | split)

theorem Stays.l1Fill {m : Nat} {s x : State} (h : Stays m s x) (c0 : Nat) (slot0 : Nat) (a0 : Nat) (x0 : L1Sec) (hm : m &&& 0x2d07fe = 0x2d07fe) : Stays m s (State.l1Fill x c0 slot0 a0 x0) := by
  unfold State.l1Fill
  dsimp only
  repeat' (first | with_reducible assumption | exact Mask.of hm rfl | with_reducible apply Stays.updL1 | with_reducible apply Stays.writeBack)

theorem Stays.tallyAdvise {m : Nat} {s x : State} (h : Stays m s x) (f0 : Nat) (sec0 : Bool) (c0 : Nat) (a0 : Nat) (n0 : Nat) (hm : m &&& 0x2d003e = 0x2d003e) : Stays m s (State.tallyAdvise x f0 sec0 c0 a0 n0) := by
  unfold State.tallyAdvise
  repeat' (first | with_reducible assumption | exact Mask.of hm rfl | with_reducible apply Stays.repT | with_reducible refine Stays.foldl (fun t a ht => ?_) ?_ | with_reducible apply Stays.ite)

/-! ## Queues -/

theorem Stays.rewrite {m : Nat} {s x : State} (h : Stays m s x) (q0 : Queue) (p0 : Nat) (hm : m &&& 0x200000 = 0x200000) : Stays m s (State.rewrite x q0 p0) := by
  unfold State.rewrite
  repeat' (first | with_reducible assumption | exact Mask.of hm rfl | with_reducible refine Stays.each (fun t a ht => ?_) ?_ | with_reducible apply Stays.emit)

theorem Stays.sendVector {m : Nat} {s x : State} (h : Stays m s x) (f0 : Nat) (q0 : Nat) (hm : m &&& 0x200002 = 0x200002) : Stays m s (State.sendVector x f0 q0) := by
  unfold State.sendVector
  dsimp only
  repeat' (first | with_reducible assumption | exact Mask.of hm rfl | with_reducible apply Stays.sendMsix)

theorem Stays.rePort {m : Nat} {s x : State} (h : Stays m s x) (f0 : Nat) (q0 : Nat) (lost0 : Option Nat) (hm : m &&& 0x200006 = 0x200006) : Stays m s (State.rePort x f0 q0 lost0) := by
  unfold State.rePort
  dsimp only
  repeat' (first | with_reducible assumption | exact Mask.of hm rfl | with_reducible apply Stays.rewrite | with_reducible apply Stays.sendVector | with_reducible apply Stays.updQueue | with_reducible apply Stays.ite | split)

theorem Stays.rePortAll {m : Nat} {s x : State} (h : Stays m s x) (lost0 : Option Nat) (hm : m &&& 0x200006 = 0x200006) : Stays m s (State.rePortAll x lost0) := by
  unfold State.rePortAll
  repeat' (first | with_reducible assumption | exact Mask.of hm rfl | with_reducible apply Stays.rePort | with_reducible refine Stays.each (fun t a ht => ?_) ?_)

theorem Stays.pathEvents {m : Nat} {s x : State} (h : Stays m s x) (old0 : State) (hm : m &&& 0x200006 = 0x200006) : Stays m s (State.pathEvents x old0) := by
  unfold State.pathEvents
  repeat' (first | with_reducible assumption | exact Mask.of hm rfl | with_reducible apply Stays.setEvent | with_reducible refine Stays.each (fun t a ht => ?_) ?_ | with_reducible apply Stays.ite)

theorem Stays.consume {m : Nat} {s x : State} (h : Stays m s x) (p0 : Posted) (hm : m &&& 0x180003c = 0x180003c) : Stays m s (State.consume x p0) := by
  unfold State.consume
  repeat' (first | with_reducible assumption | exact Mask.of hm rfl | with_reducible apply Stays.freeCheck | with_reducible apply Stays.updEntry | with_reducible apply Stays.ite | split)

theorem Stays.abortsDone {m : Nat} {s x : State} (h : Stays m s x) (i0 : Nat) (hm : m &&& 0x4 = 0x4) : Stays m s (State.abortsDone x i0) := by
  unfold State.abortsDone
  repeat' (first | with_reducible assumption | exact Mask.of hm rfl | with_reducible apply Stays.finish | with_reducible apply Stays.stage | with_reducible refine Stays.foldl (fun t a ht => ?_) ?_ | with_reducible apply Stays.ite | split)

theorem Stays.postedEntry {m : Nat} {s x : State} (h : Stays m s x) (i0 : Nat) (hm : m &&& 0x180003c = 0x180003c) : Stays m s (State.postedEntry x i0) := by
  unfold State.postedEntry
  repeat' (first | with_reducible assumption | exact Mask.of hm rfl | with_reducible apply Stays.freeCheck | with_reducible apply Stays.abortsDone | with_reducible apply Stays.updEntry)

theorem Stays.coalesce {m : Nat} {s x : State} (h : Stays m s x) (f0 : Nat) (q0 : Nat) (hm : m &&& 0x200006 = 0x200006) : Stays m s (State.coalesce x f0 q0) := by
  unfold State.coalesce
  dsimp only
  repeat' (first | with_reducible assumption | exact Mask.of hm rfl | with_reducible apply Stays.sendVector | with_reducible apply Stays.updQueue | with_reducible apply Stays.ite)

theorem Stays.postDue {m : Nat} {s x : State} (h : Stays m s x) (f0 : Nat) (q0 : Nat) (d0 : Due) (hm : m &&& 0x1a0003e = 0x1a0003e) : Stays m s (State.postDue x f0 q0 d0) := by
  unfold State.postDue
  dsimp only
  repeat' (first | with_reducible assumption | exact Mask.of hm rfl | with_reducible apply Stays.dropCmd | with_reducible apply Stays.postedEntry | with_reducible apply Stays.coalesce | with_reducible apply Stays.credit | with_reducible apply Stays.emit | with_reducible apply Stays.updEntry | with_reducible apply Stays.updFn | with_reducible apply Stays.updQueue | with_reducible apply Stays.ite | split)

theorem Stays.execCompletionPost {m : Nat} {s x : State} (h : Stays m s x) (f0 : FnId) (q0 : QId) (hm : m &&& 0x1a0003e = 0x1a0003e) : Stays m s (taken x (Machine.execCompletionPost f0 q0 x)) := by
  unfold taken Machine.execCompletionPost
  dsimp only
  repeat' (first | with_reducible assumption | exact Mask.of hm rfl | with_reducible apply Stays.postDue | with_reducible refine Stays.when ?_ _ (fun t ht => ?_) | split)

theorem Stays.execCoalesceDelayExpiry {m : Nat} {s x : State} (h : Stays m s x) (f0 : FnId) (q0 : QId) (hm : m &&& 0x200006 = 0x200006) : Stays m s (taken x (Machine.execCoalesceDelayExpiry f0 q0 x)) := by
  unfold taken Machine.execCoalesceDelayExpiry
  dsimp only
  repeat' (first | with_reducible assumption | exact Mask.of hm rfl | with_reducible apply Stays.sendVector | with_reducible apply Stays.updQueue | with_reducible refine Stays.when ?_ _ (fun t ht => ?_))

theorem Stays.execMsixVectorUnmask {m : Nat} {s x : State} (h : Stays m s x) (p0 : PortId) (f0 : FnId) (vec0 : Fin 10) (hm : m &&& 0x200002 = 0x200002) : Stays m s (taken x (Machine.execMsixVectorUnmask p0 f0 vec0 x)) := by
  unfold taken Machine.execMsixVectorUnmask
  dsimp only
  repeat' (first | with_reducible assumption | exact Mask.of hm rfl | with_reducible apply Stays.emit | with_reducible refine Stays.updPortCore ?_ _ _ (fun _ => rfl) (Mask.of hm rfl) | with_reducible refine Stays.updPort ?_ _ _ (Mask.of hm rfl) | with_reducible refine Stays.when ?_ _ (fun t ht => ?_) | with_reducible apply Stays.ite)

theorem Stays.advise {m : Nat} {s x : State} (h : Stays m s x) (f0 : Nat) (detail0 : Nat) (hm : m &&& 0x2d003e = 0x2d003e) : Stays m s (State.advise x f0 detail0) := by
  unfold State.advise
  repeat' (first | with_reducible assumption | exact Mask.of hm rfl | with_reducible apply Stays.repF)

theorem Stays.tailWrite {m : Nat} {s x : State} (h : Stays m s x) (f0 : Nat) (q0 : Nat) (val0 : W32) (hm : m &&& 0x4 = 0x4) : Stays m s (State.tailWrite x f0 q0 val0) := by
  unfold State.tailWrite
  dsimp only
  repeat' (first | with_reducible assumption | exact Mask.of hm rfl | with_reducible apply Stays.clampFn | with_reducible apply Stays.updQueue)

theorem Stays.headWrite {m : Nat} {s x : State} (h : Stays m s x) (f0 : Nat) (q0 : Nat) (val0 : W32) (hm : m &&& 0x180003c = 0x180003c) : Stays m s (State.headWrite x f0 q0 val0) := by
  unfold State.headWrite
  dsimp only
  repeat' (first | with_reducible assumption | exact Mask.of hm rfl | with_reducible apply Stays.clampFn | with_reducible apply Stays.consume | with_reducible refine Stays.each (fun t a ht => ?_) ?_ | with_reducible apply Stays.updQueue)

theorem Stays.execSqTailDoorbell {m : Nat} {s x : State} (h : Stays m s x) (via0 : Via) (q0 : QId) (val0 : W32) (hm : m &&& 0x4 = 0x4) : Stays m s (taken x (Machine.execSqTailDoorbell via0 q0 val0 x)) := by
  unfold taken Machine.execSqTailDoorbell
  dsimp only
  repeat' (first | with_reducible assumption | exact Mask.of hm rfl | with_reducible apply Stays.tailWrite | with_reducible refine Stays.when ?_ _ (fun t ht => ?_))

theorem Stays.execCqHeadDoorbell {m : Nat} {s x : State} (h : Stays m s x) (via0 : Via) (q0 : QId) (val0 : W32) (hm : m &&& 0x180003c = 0x180003c) : Stays m s (taken x (Machine.execCqHeadDoorbell via0 q0 val0 x)) := by
  unfold taken Machine.execCqHeadDoorbell
  dsimp only
  repeat' (first | with_reducible assumption | exact Mask.of hm rfl | with_reducible apply Stays.headWrite | with_reducible refine Stays.when ?_ _ (fun t ht => ?_))

theorem Stays.cfgFields {m : Nat} {s x : State} (h : Stays m s x) (f0 : Nat) (q0 : Nat) (val0 : W32) (hm : m &&& 0x2d003e = 0x2d003e) : Stays m s (State.cfgFields x f0 q0 val0) := by
  unfold State.cfgFields
  dsimp only
  repeat' (first | with_reducible assumption | exact Mask.of hm rfl | with_reducible apply Stays.clampFn | with_reducible apply Stays.advise | with_reducible apply Stays.updQueue | with_reducible apply Stays.ite)

theorem Stays.enableQ {m : Nat} {s x : State} (h : Stays m s x) (f0 : Nat) (q0 : Nat) (hm : m &&& 0x4 = 0x4) : Stays m s (State.enableQ x f0 q0) := by
  unfold State.enableQ
  repeat' (first | with_reducible assumption | exact Mask.of hm rfl | with_reducible apply Stays.updQueue)

theorem Stays.disableQ {m : Nat} {s x : State} (h : Stays m s x) (f0 : Nat) (q0 : Nat) (hm : m &&& 0x4 = 0x4) : Stays m s (State.disableQ x f0 q0) := by
  unfold State.disableQ
  repeat' (first | with_reducible assumption | exact Mask.of hm rfl | with_reducible apply Stays.updQueue)

theorem Stays.closeQ {m : Nat} {s x : State} (h : Stays m s x) (f0 : Nat) (q0 : Nat) (hm : m &&& 0x180003c = 0x180003c) : Stays m s (State.closeQ x f0 q0) := by
  unfold State.closeQ
  dsimp only
  repeat' (first | with_reducible assumption | exact Mask.of hm rfl | with_reducible apply Stays.consume | with_reducible refine Stays.each (fun t a ht => ?_) ?_ | with_reducible apply Stays.updQueue)

theorem Stays.cfgWrite {m : Nat} {s x : State} (h : Stays m s x) (f0 : Nat) (q0 : Nat) (val0 : W32) (hm : m &&& 0x1ad003e = 0x1ad003e) : Stays m s (State.cfgWrite x f0 q0 val0) := by
  unfold State.cfgWrite
  dsimp only
  repeat' (first | with_reducible assumption | exact Mask.of hm rfl | with_reducible apply Stays.rePort | with_reducible apply Stays.advise | with_reducible apply Stays.cfgFields | with_reducible apply Stays.enableQ | with_reducible apply Stays.disableQ | with_reducible apply Stays.closeQ | with_reducible apply Stays.ite)

theorem Stays.execQueueEnable {m : Nat} {s x : State} (h : Stays m s x) (via0 : Via) (q0 : QId) (val0 : W32) (hm : m &&& 0x1ad003e = 0x1ad003e) : Stays m s (taken x (Machine.execQueueEnable via0 q0 val0 x)) := by
  unfold taken Machine.execQueueEnable
  dsimp only
  repeat' (first | with_reducible assumption | exact Mask.of hm rfl | with_reducible apply Stays.cfgWrite | with_reducible refine Stays.when ?_ _ (fun t ht => ?_))

theorem Stays.execQueueDisable {m : Nat} {s x : State} (h : Stays m s x) (via0 : Via) (q0 : QId) (val0 : W32) (hm : m &&& 0x1ad003e = 0x1ad003e) : Stays m s (taken x (Machine.execQueueDisable via0 q0 val0 x)) := by
  unfold taken Machine.execQueueDisable
  dsimp only
  repeat' (first | with_reducible assumption | exact Mask.of hm rfl | with_reducible apply Stays.cfgWrite | with_reducible refine Stays.when ?_ _ (fun t ht => ?_))

theorem Stays.execQueueDrained {m : Nat} {s x : State} (h : Stays m s x) (f0 : FnId) (q0 : QId) (hm : m &&& 0x180003c = 0x180003c) : Stays m s (taken x (Machine.execQueueDrained f0 q0 x)) := by
  unfold taken Machine.execQueueDrained
  dsimp only
  repeat' (first | with_reducible assumption | exact Mask.of hm rfl | with_reducible apply Stays.closeQ | with_reducible refine Stays.when ?_ _ (fun t ht => ?_))

/-! ## Homes -/

theorem Stays.resolveLoads {m : Nat} {s x : State} (h : Stays m s x) (e0 : Nat) (a0 : Nat) (d0 : Sector) (poison0 : Bool) (hm : m &&& 0x40 = 0x40) : Stays m s (State.resolveLoads x e0 a0 d0 poison0) := by
  unfold State.resolveLoads
  repeat' (first | with_reducible assumption | exact Mask.of hm rfl | with_reducible apply Stays.updLe)

theorem Stays.resolveCluster {m : Nat} {s x : State} (h : Stays m s x) (c0 : Nat) (a0 : Nat) (d0 : Sector × Bool) (hm : m &&& 0x40 = 0x40) : Stays m s (State.resolveCluster x c0 a0 d0) := by
  unfold State.resolveCluster
  repeat' (first | with_reducible assumption | exact Mask.of hm rfl | with_reducible apply Stays.resolveLoads | with_reducible refine Stays.foldl (fun t a ht => ?_) ?_)

theorem Stays.l1Dirty {m : Nat} {s x : State} (h : Stays m s x) (c0 : Nat) (slot0 : Nat) (a0 : Nat) (d0 : Sector) (poison0 : Bool) (hm : m &&& 0x2d07fe = 0x2d07fe) : Stays m s (State.l1Dirty x c0 slot0 a0 d0 poison0) := by
  unfold State.l1Dirty
  dsimp only
  repeat' (first | with_reducible assumption | exact Mask.of hm rfl | with_reducible apply Stays.fire | with_reducible apply Stays.l1Fill | with_reducible apply Stays.ite)

theorem Stays.l2Own {m : Nat} {s x : State} (h : Stays m s x) (c0 : Nat) (e0 : Nat) (a0 : Nat) (d0 : Option Sector) (hm : m &&& 0x10080 = 0x10080) : Stays m s (State.l2Own x c0 e0 a0 d0) := by
  unfold State.l2Own
  dsimp only
  repeat' (first | with_reducible assumption | exact Mask.of hm rfl | with_reducible apply Stays.l2Mark | with_reducible apply Stays.updMem | with_reducible apply Stays.ite)

theorem Stays.l1Store {m : Nat} {s x : State} (h : Stays m s x) (c0 : Nat) (e0 : Nat) (addr0 : Nat) (size0 : Nat) (v0 : W64) (hm : m &&& 0x2d07fe = 0x2d07fe) : Stays m s (State.l1Store x c0 e0 addr0 size0 v0) := by
  unfold State.l1Store
  dsimp only
  repeat' (first | with_reducible assumption | exact Mask.of hm rfl | with_reducible apply Stays.lndWrite | with_reducible apply Stays.dropL1s | with_reducible apply Stays.l2Touch | with_reducible apply Stays.collect | with_reducible apply Stays.dropAll | with_reducible apply Stays.l1Dirty | with_reducible apply Stays.l2Own | with_reducible apply Stays.ite | split)

theorem Stays.performStores {m : Nat} {s x : State} (h : Stays m s x) (c0 : Nat) (a0 : Nat) (hm : m &&& 0x2d07fe = 0x2d07fe) : Stays m s (State.performStores x c0 a0) := by
  unfold State.performStores
  dsimp only
  repeat' (first | with_reducible assumption | exact Mask.of hm rfl | with_reducible apply Stays.l1Store | with_reducible apply Stays.updLe | with_reducible refine Stays.foldl (fun t a ht => ?_) ?_)

theorem Stays.homeCount {m : Nat} {s x : State} (h : Stays m s x) (h0 : Nat) (j0 : Nat) (n0 : Nat) (sec0 : Bool) (hm : m &&& 0x1000 = 0x1000) : Stays m s (State.homeCount x h0 j0 n0 sec0) := by
  unfold State.homeCount
  repeat' (first | with_reducible assumption | exact Mask.of hm rfl | with_reducible apply Stays.updHome | with_reducible apply Stays.ite)

theorem Stays.addTxn {m : Nat} {s x : State} (h : Stays m s x) (t0 : Txn) (hm : m &&& 0x1000 = 0x1000) : Stays m s (State.addTxn x t0) := by
  unfold State.addTxn
  repeat' (first | with_reducible assumption | exact Mask.of hm rfl | with_reducible apply Stays.updHome)

theorem Stays.putTxn {m : Nat} {s x : State} (h : Stays m s x) (t0 : Txn) (hm : m &&& 0x1000 = 0x1000) : Stays m s (State.putTxn x t0) := by
  unfold State.putTxn
  repeat' (first | with_reducible assumption | exact Mask.of hm rfl | with_reducible apply Stays.updHome)

theorem Stays.dropTxn {m : Nat} {s x : State} (h : Stays m s x) (t0 : Txn) (hm : m &&& 0x1000 = 0x1000) : Stays m s (State.dropTxn x t0) := by
  unfold State.dropTxn
  repeat' (first | with_reducible assumption | exact Mask.of hm rfl | with_reducible apply Stays.updHome)

theorem Stays.askHost {m : Nat} {s x : State} (h : Stays m s x) (t0 : Txn) (hm : m &&& 0x200000 = 0x200000) : Stays m s (State.askHost x t0).1 := by
  unfold State.askHost
  dsimp only
  repeat' (first | with_reducible assumption | exact Mask.of hm rfl | with_reducible apply Stays.emit | with_reducible apply Stays.ite | split)

theorem Stays.settle {m : Nat} {s x : State} (h : Stays m s x) (t0 : Txn) (hm : m &&& 0x2d0ffe = 0x2d0ffe) : Stays m s (State.settle x t0).1 := by
  unfold State.settle
  dsimp only
  repeat' (first | with_reducible assumption | exact Mask.of hm rfl | with_reducible apply Stays.lndWrite | with_reducible apply Stays.lndCheck | with_reducible apply Stays.dropAll | with_reducible apply Stays.askHost | with_reducible apply Stays.stage | with_reducible apply Stays.updLe | with_reducible apply Stays.ite | split)

theorem Stays.evServes {m : Nat} {s x : State} (h : Stays m s x) (a0 : Nat) (e0 : Evict) (hm : m &&& 0x2d1ffe = 0x2d1ffe) : Stays m s (State.evServes x a0 e0) := by
  unfold State.evServes
  dsimp only
  repeat' (first | with_reducible assumption | exact Mask.of hm rfl | with_reducible apply Stays.settle | with_reducible apply Stays.putTxn | with_reducible apply Stays.ite | split)

theorem Stays.evTaken {m : Nat} {s x : State} (h : Stays m s x) (a0 : Nat) (e0 : Evict) (hm : m &&& 0x2d1ffe = 0x2d1ffe) : Stays m s (State.evTaken x a0 e0) := by
  unfold State.evTaken
  repeat' (first | with_reducible assumption | exact Mask.of hm rfl | with_reducible apply Stays.lndWrite | with_reducible apply Stays.evServes | with_reducible apply Stays.updHome)

theorem Stays.takeEvs {m : Nat} {s x : State} (h : Stays m s x) (a0 : Nat) (sel0 : Nat → Bool) (hm : m &&& 0x2d1ffe = 0x2d1ffe) : Stays m s (State.takeEvs x a0 sel0) := by
  unfold State.takeEvs
  repeat' (first | with_reducible assumption | exact Mask.of hm rfl | with_reducible apply Stays.evTaken | with_reducible refine Stays.foldl (fun t a ht => ?_) ?_)

theorem Stays.startTxn {m : Nat} {s x : State} (h : Stays m s x) (t00 : Txn) (hm : m &&& 0x2d1ffe = 0x2d1ffe) : Stays m s (State.startTxn x t00).1 := by
  unfold State.startTxn
  dsimp only
  repeat' (first | with_reducible assumption | exact Mask.of hm rfl | with_reducible apply Stays.lndCheck | with_reducible apply Stays.homeCount | with_reducible apply Stays.askHost | with_reducible apply Stays.settle | with_reducible apply Stays.takeEvs | with_reducible apply Stays.ite | split)

theorem Stays.sendReq {m : Nat} {s x : State} (h : Stays m s x) (q0 : CReq) (hm : m &&& 0x1000 = 0x1000) : Stays m s (State.sendReq x q0) := by
  unfold State.sendReq
  dsimp only
  repeat' (first | with_reducible assumption | exact Mask.of hm rfl | with_reducible apply Stays.setCoh | with_reducible apply Stays.ite)

theorem Stays.enterHome {m : Nat} {s x : State} (h : Stays m s x) (h0 : Nat) (q0 : CReq) (resv0 : Bool) (busy0 : Bool) (hm : m &&& 0x2d1ffe = 0x2d1ffe) : Stays m s (State.enterHome x h0 q0 resv0 busy0) := by
  unfold State.enterHome
  dsimp only
  repeat' (first | with_reducible assumption | exact Mask.of hm rfl | with_reducible apply Stays.repT | with_reducible apply Stays.l2Alloc | with_reducible apply Stays.homeCount | with_reducible apply Stays.addTxn | with_reducible apply Stays.startTxn | with_reducible apply Stays.setCoh | with_reducible apply Stays.ite | split)

theorem Stays.refuseReq {m : Nat} {s x : State} (h : Stays m s x) (h0 : Nat) (q0 : CReq) (hm : m &&& 0x1000 = 0x1000) : Stays m s (State.refuseReq x h0 q0) := by
  unfold State.refuseReq
  dsimp only
  repeat' (first | with_reducible assumption | exact Mask.of hm rfl | with_reducible apply Stays.homeCount | with_reducible apply Stays.setCoh | with_reducible apply Stays.updHome)

theorem Stays.arrive {m : Nat} {s x : State} (h : Stays m s x) (r0 : Nat) (a0 : Nat) (k0 : ReqKind) (hm : m &&& 0x2d1ffe = 0x2d1ffe) : Stays m s (State.arrive x r0 a0 k0) := by
  unfold State.arrive
  dsimp only
  repeat' (first | with_reducible assumption | exact Mask.of hm rfl | with_reducible apply Stays.enterHome | with_reducible apply Stays.refuseReq | with_reducible apply Stays.ite | split)

theorem Stays.execRdS {m : Nat} {s x : State} (h : Stays m s x) (r0 : ReqId) (a0 : BitVec 42) (hm : m &&& 0x2d1ffe = 0x2d1ffe) : Stays m s (taken x (Machine.execRdS r0 a0 x)) := by
  unfold taken Machine.execRdS
  dsimp only
  repeat' (first | with_reducible assumption | exact Mask.of hm rfl | with_reducible apply Stays.arrive | with_reducible refine Stays.when ?_ _ (fun t ht => ?_))

theorem Stays.execRdX {m : Nat} {s x : State} (h : Stays m s x) (r0 : ReqId) (a0 : BitVec 42) (hm : m &&& 0x2d1ffe = 0x2d1ffe) : Stays m s (taken x (Machine.execRdX r0 a0 x)) := by
  unfold taken Machine.execRdX
  dsimp only
  repeat' (first | with_reducible assumption | exact Mask.of hm rfl | with_reducible apply Stays.arrive | with_reducible refine Stays.when ?_ _ (fun t ht => ?_))

theorem Stays.execUpg {m : Nat} {s x : State} (h : Stays m s x) (r0 : ReqId) (a0 : BitVec 42) (hm : m &&& 0x2d1ffe = 0x2d1ffe) : Stays m s (taken x (Machine.execUpg r0 a0 x)) := by
  unfold taken Machine.execUpg
  dsimp only
  repeat' (first | with_reducible assumption | exact Mask.of hm rfl | with_reducible apply Stays.arrive | with_reducible refine Stays.when ?_ _ (fun t ht => ?_))

theorem Stays.execRdNc {m : Nat} {s x : State} (h : Stays m s x) (r0 : ReqId) (a0 : BitVec 42) (hm : m &&& 0x2d1ffe = 0x2d1ffe) : Stays m s (taken x (Machine.execRdNc r0 a0 x)) := by
  unfold taken Machine.execRdNc
  dsimp only
  repeat' (first | with_reducible assumption | exact Mask.of hm rfl | with_reducible apply Stays.arrive | with_reducible refine Stays.when ?_ _ (fun t ht => ?_))

theorem Stays.execWrInv {m : Nat} {s x : State} (h : Stays m s x) (r0 : ReqId) (a0 : BitVec 42) (hm : m &&& 0x2d1ffe = 0x2d1ffe) : Stays m s (taken x (Machine.execWrInv r0 a0 x)) := by
  unfold taken Machine.execWrInv
  dsimp only
  repeat' (first | with_reducible assumption | exact Mask.of hm rfl | with_reducible apply Stays.arrive | with_reducible refine Stays.when ?_ _ (fun t ht => ?_))

theorem Stays.activateAt {m : Nat} {s x : State} (h : Stays m s x) (h0 : Nat) (r0 : Nat) (hm : m &&& 0x2d1ffe = 0x2d1ffe) : Stays m s (State.activateAt x h0 r0) := by
  unfold State.activateAt
  dsimp only
  repeat' (first | with_reducible assumption | exact Mask.of hm rfl | with_reducible apply Stays.putTxn | with_reducible apply Stays.startTxn | split)

theorem Stays.execTicketActivate {m : Nat} {s x : State} (h : Stays m s x) (h0 : ClId) (r0 : ReqId) (hm : m &&& 0x2d1ffe = 0x2d1ffe) : Stays m s (taken x (Machine.execTicketActivate h0 r0 x)) := by
  unfold taken Machine.execTicketActivate
  dsimp only
  repeat' (first | with_reducible assumption | exact Mask.of hm rfl | with_reducible apply Stays.activateAt | with_reducible refine Stays.when ?_ _ (fun t ht => ?_))

theorem Stays.snoopL2 {m : Nat} {s x : State} (h : Stays m s x) (c0 : Nat) (a0 : Nat) (k0 : Nat) (hm : m &&& 0x2d07fe = 0x2d07fe) : Stays m s (State.snoopL2 x c0 a0 k0).1 := by
  unfold State.snoopL2
  dsimp only
  repeat' (first | with_reducible assumption | exact Mask.of hm rfl | with_reducible apply Stays.lndWrite | with_reducible apply Stays.gather | with_reducible apply Stays.dropSec | with_reducible apply Stays.updMem | with_reducible apply Stays.ite)

theorem Stays.answerSnoop {m : Nat} {s x : State} (h : Stays m s x) (c0 : Nat) (a0 : Nat) (k0 : Nat) (hm : m &&& 0x2d17fe = 0x2d17fe) : Stays m s (State.answerSnoop x c0 a0 k0) := by
  unfold State.answerSnoop
  dsimp only
  repeat' (first | with_reducible assumption | exact Mask.of hm rfl | with_reducible apply Stays.putTxn | with_reducible apply Stays.snoopL2 | with_reducible apply Stays.ite | split)

theorem Stays.execSnpS {m : Nat} {s x : State} (h : Stays m s x) (c0 : ClId) (a0 : BitVec 42) (hm : m &&& 0x2d17fe = 0x2d17fe) : Stays m s (taken x (Machine.execSnpS c0 a0 x)) := by
  unfold taken Machine.execSnpS
  dsimp only
  repeat' (first | with_reducible assumption | exact Mask.of hm rfl | with_reducible apply Stays.answerSnoop | with_reducible refine Stays.when ?_ _ (fun t ht => ?_))

theorem Stays.execSnpX {m : Nat} {s x : State} (h : Stays m s x) (c0 : ClId) (a0 : BitVec 42) (hm : m &&& 0x2d17fe = 0x2d17fe) : Stays m s (taken x (Machine.execSnpX c0 a0 x)) := by
  unfold taken Machine.execSnpX
  dsimp only
  repeat' (first | with_reducible assumption | exact Mask.of hm rfl | with_reducible apply Stays.answerSnoop | with_reducible refine Stays.when ?_ _ (fun t ht => ?_))

theorem Stays.execSnpInv {m : Nat} {s x : State} (h : Stays m s x) (c0 : ClId) (a0 : BitVec 42) (hm : m &&& 0x2d17fe = 0x2d17fe) : Stays m s (taken x (Machine.execSnpInv c0 a0 x)) := by
  unfold taken Machine.execSnpInv
  dsimp only
  repeat' (first | with_reducible assumption | exact Mask.of hm rfl | with_reducible apply Stays.answerSnoop | with_reducible refine Stays.when ?_ _ (fun t ht => ?_))

theorem Stays.execSnpCur {m : Nat} {s x : State} (h : Stays m s x) (c0 : ClId) (a0 : BitVec 42) (hm : m &&& 0x2d17fe = 0x2d17fe) : Stays m s (taken x (Machine.execSnpCur c0 a0 x)) := by
  unfold taken Machine.execSnpCur
  dsimp only
  repeat' (first | with_reducible assumption | exact Mask.of hm rfl | with_reducible apply Stays.answerSnoop | with_reducible refine Stays.when ?_ _ (fun t ht => ?_))

theorem Stays.fromLanding {m : Nat} {s x : State} (h : Stays m s x) (t0 : Txn) (hm : m &&& 0x2d0e3e = 0x2d0e3e) : Stays m s (State.fromLanding x t0).1 := by
  unfold State.fromLanding
  dsimp only
  repeat' (first | with_reducible assumption | exact Mask.of hm rfl | with_reducible apply Stays.lndCheck | with_reducible apply Stays.stage | with_reducible apply Stays.ite | split)

theorem Stays.rspAt {m : Nat} {s x : State} (h : Stays m s x) (c0 : Nat) (a0 : Nat) (hm : m &&& 0x2d1ffe = 0x2d1ffe) : Stays m s (State.rspAt x c0 a0) := by
  unfold State.rspAt
  dsimp only
  repeat' (first | with_reducible assumption | exact Mask.of hm rfl | with_reducible apply Stays.homeCount | with_reducible apply Stays.putTxn | with_reducible apply Stays.settle | with_reducible apply Stays.fromLanding | with_reducible apply Stays.stage | with_reducible apply Stays.ite | split)

theorem Stays.execRsp {m : Nat} {s x : State} (h : Stays m s x) (c0 : ClId) (a0 : BitVec 42) (hm : m &&& 0x2d1ffe = 0x2d1ffe) : Stays m s (taken x (Machine.execRsp c0 a0 x)) := by
  unfold taken Machine.execRsp
  dsimp only
  repeat' (first | with_reducible assumption | exact Mask.of hm rfl | with_reducible apply Stays.rspAt | with_reducible refine Stays.when ?_ _ (fun t ht => ?_))

theorem Stays.dataAt {m : Nat} {s x : State} (h : Stays m s x) (r0 : Nat) (a0 : Nat) (hm : m &&& 0x1000 = 0x1000) : Stays m s (State.dataAt x r0 a0) := by
  unfold State.dataAt
  repeat' (first | with_reducible assumption | exact Mask.of hm rfl | with_reducible apply Stays.putTxn | with_reducible apply Stays.ite | split)

theorem Stays.execData {m : Nat} {s x : State} (h : Stays m s x) (r0 : ReqId) (a0 : BitVec 42) (hm : m &&& 0x1000 = 0x1000) : Stays m s (taken x (Machine.execData r0 a0 x)) := by
  unfold taken Machine.execData
  dsimp only
  repeat' (first | with_reducible assumption | exact Mask.of hm rfl | with_reducible apply Stays.dataAt | with_reducible refine Stays.when ?_ _ (fun t ht => ?_))

theorem Stays.deliver {m : Nat} {s x : State} (h : Stays m s x) (t0 : Txn) (hm : m &&& 0x2d17fe = 0x2d17fe) : Stays m s (State.deliver x t0) := by
  unfold State.deliver
  dsimp only
  repeat' (first | with_reducible assumption | exact Mask.of hm rfl | with_reducible apply Stays.dropL1s | with_reducible apply Stays.l2Fill | with_reducible apply Stays.l1Fill | with_reducible apply Stays.resolveLoads | with_reducible apply Stays.resolveCluster | with_reducible apply Stays.performStores | with_reducible apply Stays.emit | with_reducible apply Stays.updLe | with_reducible apply Stays.updMem | with_reducible apply Stays.ite | split)

theorem Stays.grantAt {m : Nat} {s x : State} (h : Stays m s x) (r0 : Nat) (a0 : Nat) (hm : m &&& 0x2d17fe = 0x2d17fe) : Stays m s (State.grantAt x r0 a0) := by
  unfold State.grantAt
  repeat' (first | with_reducible assumption | exact Mask.of hm rfl | with_reducible apply Stays.putTxn | with_reducible apply Stays.deliver | with_reducible apply Stays.ite | split)

theorem Stays.execGrant {m : Nat} {s x : State} (h : Stays m s x) (r0 : ReqId) (a0 : BitVec 42) (hm : m &&& 0x2d17fe = 0x2d17fe) : Stays m s (taken x (Machine.execGrant r0 a0 x)) := by
  unfold taken Machine.execGrant
  dsimp only
  repeat' (first | with_reducible assumption | exact Mask.of hm rfl | with_reducible apply Stays.grantAt | with_reducible refine Stays.when ?_ _ (fun t ht => ?_))

theorem Stays.ackAt {m : Nat} {s x : State} (h : Stays m s x) (r0 : Nat) (a0 : Nat) (hm : m &&& 0x1000 = 0x1000) : Stays m s (State.ackAt x r0 a0) := by
  unfold State.ackAt
  repeat' (first | with_reducible assumption | exact Mask.of hm rfl | with_reducible apply Stays.dropTxn | with_reducible apply Stays.ite | split)

theorem Stays.execGrantAck {m : Nat} {s x : State} (h : Stays m s x) (r0 : ReqId) (a0 : BitVec 42) (hm : m &&& 0x1000 = 0x1000) : Stays m s (taken x (Machine.execGrantAck r0 a0 x)) := by
  unfold taken Machine.execGrantAck
  dsimp only
  repeat' (first | with_reducible assumption | exact Mask.of hm rfl | with_reducible apply Stays.ackAt | with_reducible refine Stays.when ?_ _ (fun t ht => ?_))

theorem Stays.execRetry {m : Nat} {s x : State} (h : Stays m s x) (r0 : ReqId) (a0 : BitVec 42) (hm : m &&& 0x1000 = 0x1000) : Stays m s (taken x (Machine.execRetry r0 a0 x)) := by
  unfold taken Machine.execRetry
  dsimp only
  repeat' (first | with_reducible assumption | exact Mask.of hm rfl | with_reducible apply Stays.setCoh | with_reducible refine Stays.when ?_ _ (fun t ht => ?_) | with_reducible apply Stays.ite | split)

theorem Stays.execEvData {m : Nat} {s x : State} (h : Stays m s x) (c0 : ClId) (a0 : BitVec 42) (hm : m &&& 0x2d1ffe = 0x2d1ffe) : Stays m s (taken x (Machine.execEvData c0 a0 x)) := by
  unfold taken Machine.execEvData
  dsimp only
  repeat' (first | with_reducible assumption | exact Mask.of hm rfl | with_reducible apply Stays.evTaken | with_reducible refine Stays.when ?_ _ (fun t ht => ?_) | split)

theorem Stays.execEvAck {m : Nat} {s x : State} (h : Stays m s x) (c0 : ClId) (a0 : BitVec 42) (hm : m &&& 0x1000 = 0x1000) : Stays m s (taken x (Machine.execEvAck c0 a0 x)) := by
  unfold taken Machine.execEvAck
  dsimp only
  repeat' (first | with_reducible assumption | exact Mask.of hm rfl | with_reducible apply Stays.stage | with_reducible apply Stays.updHome | with_reducible refine Stays.when ?_ _ (fun t ht => ?_) | with_reducible apply Stays.ite)

theorem Stays.execHostSnoop {m : Nat} {s x : State} (h : Stays m s x) (p0 : PortId) (k0 : HostSnp) (addr0 : BitVec 52) (hm : m &&& 0x201080 = 0x201080) : Stays m s (taken x (Machine.execHostSnoop p0 k0 addr0 x)) := by
  unfold taken Machine.execHostSnoop
  dsimp only
  repeat' (first | with_reducible assumption | exact Mask.of hm rfl | with_reducible apply Stays.dropSec | with_reducible apply Stays.homeCount | with_reducible apply Stays.emit | with_reducible refine Stays.when ?_ _ (fun t ht => ?_) | with_reducible refine Stays.foldl (fun t a ht => ?_) ?_ | with_reducible apply Stays.ite | split)

theorem Stays.execHostReadResponse {m : Nat} {s x : State} (h : Stays m s x) (p0 : PortId) (a0 : BitVec 42) (data0 : Sector) (poison0 : Bool) (hm : m &&& 0x1000 = 0x1000) : Stays m s (taken x (Machine.execHostReadResponse p0 a0 data0 poison0 x)) := by
  unfold taken Machine.execHostReadResponse
  dsimp only
  repeat' (first | with_reducible assumption | exact Mask.of hm rfl | with_reducible apply Stays.putTxn | with_reducible refine Stays.when ?_ _ (fun t ht => ?_) | with_reducible apply Stays.ite | split)

theorem Stays.execHostWriteCompletion {m : Nat} {s x : State} (h : Stays m s x) (p0 : PortId) (a0 : BitVec 42) (hm : m &&& 0x1000 = 0x1000) : Stays m s (taken x (Machine.execHostWriteCompletion p0 a0 x)) := by
  unfold taken Machine.execHostWriteCompletion
  dsimp only
  repeat' (first | with_reducible assumption | exact Mask.of hm rfl | with_reducible apply Stays.putTxn | with_reducible refine Stays.when ?_ _ (fun t ht => ?_) | with_reducible apply Stays.ite | split)

theorem Stays.hostReissue {m : Nat} {s x : State} (h : Stays m s x) (hm : m &&& 0x201000 = 0x201000) : Stays m s (State.hostReissue x) := by
  unfold State.hostReissue
  dsimp only
  repeat' (first | with_reducible assumption | exact Mask.of hm rfl | with_reducible apply Stays.askHost | with_reducible apply Stays.putTxn | with_reducible refine Stays.foldl (fun t a ht => ?_) ?_ | with_reducible apply Stays.ite)

theorem Stays.dropHostLines {m : Nat} {s x : State} (h : Stays m s x) (p0 : Nat) (hm : m &&& 0x80 = 0x80) : Stays m s (State.dropHostLines x p0) := by
  unfold State.dropHostLines
  repeat' (first | with_reducible assumption | exact Mask.of hm rfl | with_reducible apply Stays.dropSec | with_reducible refine Stays.foldl (fun t a ht => ?_) ?_ | with_reducible apply Stays.ite)

theorem Stays.timeoutLog {m : Nat} {s x : State} (h : Stays m s x) (a0 : Nat) (kind0 : Nat) (c0 : Nat) (sec0 : Bool) (hm : m &&& 0x2d103e = 0x2d103e) : Stays m s (State.timeoutLog x a0 kind0 c0 sec0) := by
  unfold State.timeoutLog
  dsimp only
  repeat' (first | with_reducible assumption | exact Mask.of hm rfl | with_reducible apply Stays.repT | with_reducible apply Stays.homeCount | with_reducible apply Stays.updHome)

theorem Stays.timeoutTxn {m : Nat} {s x : State} (h : Stays m s x) (t0 : Txn) (kind0 : Nat) (c0 : Nat) (hm : m &&& 0x2d1ffe = 0x2d1ffe) : Stays m s (State.timeoutTxn x t0 kind0 c0) := by
  unfold State.timeoutTxn
  dsimp only
  repeat' (first | with_reducible assumption | exact Mask.of hm rfl | with_reducible apply Stays.lndWrite | with_reducible apply Stays.lndCheck | with_reducible apply Stays.dropSec | with_reducible apply Stays.resolveLoads | with_reducible apply Stays.homeCount | with_reducible apply Stays.dropTxn | with_reducible apply Stays.settle | with_reducible apply Stays.deliver | with_reducible apply Stays.timeoutLog | with_reducible apply Stays.stage | with_reducible apply Stays.updHome | with_reducible refine Stays.foldl (fun t a ht => ?_) ?_ | split)

theorem Stays.execHomeTimeout {m : Nat} {s x : State} (h : Stays m s x) (a0 : BitVec 42) (hm : m &&& 0x2d1ffe = 0x2d1ffe) : Stays m s (taken x (Machine.execHomeTimeout a0 x)) := by
  unfold taken Machine.execHomeTimeout
  dsimp only
  repeat' (first | with_reducible assumption | exact Mask.of hm rfl | with_reducible apply Stays.timeoutTxn | with_reducible refine Stays.when ?_ _ (fun t ht => ?_) | with_reducible apply Stays.ite | split)

theorem Stays.memRefused {m : Nat} {s x : State} (h : Stays m s x) (p0 : Nat) (addr0 : BitVec 48) (hm : m &&& 0x2d003e = 0x2d003e) : Stays m s (State.memRefused x p0 addr0) := by
  unfold State.memRefused
  repeat' (first | with_reducible assumption | exact Mask.of hm rfl | with_reducible apply Stays.repF)

theorem Stays.execCxlMemRead {m : Nat} {s x : State} (h : Stays m s x) (p0 : PortId) (addr0 : BitVec 48) (hm : m &&& 0x2d103e = 0x2d103e) : Stays m s (taken x (Machine.execCxlMemRead p0 addr0 x)) := by
  unfold taken Machine.execCxlMemRead
  dsimp only
  repeat' (first | with_reducible assumption | exact Mask.of hm rfl | with_reducible apply Stays.memRefused | with_reducible apply Stays.emit | with_reducible apply Stays.setCoh | with_reducible refine Stays.when ?_ _ (fun t ht => ?_) | with_reducible apply Stays.ite)

theorem Stays.execCxlMemWrite {m : Nat} {s x : State} (h : Stays m s x) (p0 : PortId) (addr0 : BitVec 48) (mask0 : W64) (data0 : Sector) (poison0 : Bool) (hm : m &&& 0x2d103e = 0x2d103e) : Stays m s (taken x (Machine.execCxlMemWrite p0 addr0 mask0 data0 poison0 x)) := by
  unfold taken Machine.execCxlMemWrite
  dsimp only
  repeat' (first | with_reducible assumption | exact Mask.of hm rfl | with_reducible apply Stays.memRefused | with_reducible apply Stays.emit | with_reducible apply Stays.setCoh | with_reducible refine Stays.when ?_ _ (fun t ht => ?_) | with_reducible apply Stays.ite)

/-! ## Maint -/

theorem Stays.refuse377 {m : Nat} {s x : State} (h : Stays m s x) (f0 : Nat) (target0 : Nat) (hm : m &&& 0x2d003e = 0x2d003e) : Stays m s (State.refuse377 x f0 target0) := by
  unfold State.refuse377
  repeat' (first | with_reducible assumption | exact Mask.of hm rfl | with_reducible apply Stays.repF)

theorem Stays.memTake {m : Nat} {s x : State} (h : Stays m s x) (c0 : Nat) (hm : m &&& 0x40000 = 0x40000) : Stays m s (State.memTake x c0) := by
  unfold State.memTake
  repeat' (first | with_reducible assumption | exact Mask.of hm rfl | with_reducible apply Stays.askGrant)

theorem Stays.memGive {m : Nat} {s x : State} (h : Stays m s x) (c0 : Nat) (hm : m &&& 0x40000 = 0x40000) : Stays m s (State.memGive x c0) := by
  unfold State.memGive
  repeat' (first | with_reducible assumption | exact Mask.of hm rfl | with_reducible apply Stays.releaseGrant | with_reducible apply Stays.ite)

theorem Stays.maintResult {m : Nat} {s x : State} (h : Stays m s x) (c0 : Nat) (st0 : Nat) (val0 : Nat) (hm : m &&& 0x80 = 0x80) : Stays m s (State.maintResult x c0 st0 val0) := by
  unfold State.maintResult
  repeat' (first | with_reducible assumption | exact Mask.of hm rfl | with_reducible apply Stays.updMem)

theorem Stays.maintStart {m : Nat} {s x : State} (h : Stays m s x) (w0 : Who) (c0 : Nat) (op0 : Nat) (expert0 : Bool) (hm : m &&& 0x2d00be = 0x2d00be) : Stays m s (State.maintStart x w0 c0 op0 expert0) := by
  unfold State.maintStart
  dsimp only
  repeat' (first | with_reducible assumption | exact Mask.of hm rfl | with_reducible apply Stays.repF | with_reducible apply Stays.memTake | with_reducible apply Stays.maintResult | with_reducible apply Stays.updMem | with_reducible apply Stays.ite)

theorem Stays.execClean {m : Nat} {s x : State} (h : Stays m s x) (w0 : Who) (c0 : ClId) (expert0 : Bool) (hm : m &&& 0x2d00be = 0x2d00be) : Stays m s (taken x (Machine.execClean w0 c0 expert0 x)) := by
  unfold taken Machine.execClean
  dsimp only
  repeat' (first | with_reducible assumption | exact Mask.of hm rfl | with_reducible apply Stays.maintStart | with_reducible refine Stays.when ?_ _ (fun t ht => ?_))

theorem Stays.execInvalidate {m : Nat} {s x : State} (h : Stays m s x) (w0 : Who) (c0 : ClId) (expert0 : Bool) (hm : m &&& 0x2d00be = 0x2d00be) : Stays m s (taken x (Machine.execInvalidate w0 c0 expert0 x)) := by
  unfold taken Machine.execInvalidate
  dsimp only
  repeat' (first | with_reducible assumption | exact Mask.of hm rfl | with_reducible apply Stays.maintStart | with_reducible refine Stays.when ?_ _ (fun t ht => ?_))

theorem Stays.execDiscard {m : Nat} {s x : State} (h : Stays m s x) (w0 : Who) (c0 : ClId) (expert0 : Bool) (hm : m &&& 0x2d00be = 0x2d00be) : Stays m s (taken x (Machine.execDiscard w0 c0 expert0 x)) := by
  unfold taken Machine.execDiscard
  dsimp only
  repeat' (first | with_reducible assumption | exact Mask.of hm rfl | with_reducible apply Stays.maintStart | with_reducible refine Stays.when ?_ _ (fun t ht => ?_))

theorem Stays.maintSector {m : Nat} {s x : State} (h : Stays m s x) (c0 : Nat) (op0 : Nat) (a0 : Nat) (hm : m &&& 0x2d07fe = 0x2d07fe) : Stays m s (State.maintSector x c0 op0 a0).1 := by
  unfold State.maintSector
  dsimp only
  repeat' (first | with_reducible assumption | exact Mask.of hm rfl | with_reducible apply Stays.l2Clean | with_reducible apply Stays.gather | with_reducible apply Stays.dropSec | with_reducible apply Stays.ite | split)

theorem Stays.execMaintComplete {m : Nat} {s x : State} (h : Stays m s x) (c0 : ClId) (hm : m &&& 0x2d07fe = 0x2d07fe) : Stays m s (taken x (Machine.execMaintComplete c0 x)) := by
  rw [Machine.execMaintComplete, taken]
  split
  · exact h
  · refine Stays.maintResult (Stays.memGive (Stays.updMem (Stays.memCount ?_ _ _ _ _ (Mask.of hm rfl)) _ _ (Mask.of hm rfl)) _ (Mask.of hm rfl)) _ _ _ (Mask.of hm rfl)
    exact Stays.foldlPair (fun t a ht => Stays.maintSector ht c0.val _ a (Mask.of hm rfl)) h

theorem Stays.l1Ctrl {m : Nat} {s x : State} (h : Stays m s x) (w0 : Who) (c0 : Nat) (slot0 : Nat) (en0 : Bool) (hm : m &&& 0x2d00be = 0x2d00be) : Stays m s (State.l1Ctrl x w0 c0 slot0 en0) := by
  unfold State.l1Ctrl
  dsimp only
  repeat' (first | with_reducible assumption | exact Mask.of hm rfl | with_reducible apply Stays.updL1 | with_reducible apply Stays.refuse377 | with_reducible apply Stays.memTake | with_reducible apply Stays.ite)

theorem Stays.execL1Disable {m : Nat} {s x : State} (h : Stays m s x) (w0 : Who) (c0 : ClId) (slot0 : QId) (hm : m &&& 0x2d00be = 0x2d00be) : Stays m s (taken x (Machine.execL1Disable w0 c0 slot0 x)) := by
  unfold taken Machine.execL1Disable
  dsimp only
  repeat' (first | with_reducible assumption | exact Mask.of hm rfl | with_reducible apply Stays.l1Ctrl | with_reducible refine Stays.when ?_ _ (fun t ht => ?_))

theorem Stays.execL1Enable {m : Nat} {s x : State} (h : Stays m s x) (w0 : Who) (c0 : ClId) (slot0 : QId) (hm : m &&& 0x2d00be = 0x2d00be) : Stays m s (taken x (Machine.execL1Enable w0 c0 slot0 x)) := by
  unfold taken Machine.execL1Enable
  dsimp only
  repeat' (first | with_reducible assumption | exact Mask.of hm rfl | with_reducible apply Stays.l1Ctrl | with_reducible refine Stays.when ?_ _ (fun t ht => ?_))

theorem Stays.l2Ctrl {m : Nat} {s x : State} (h : Stays m s x) (c0 : Nat) (en0 : Bool) (hm : m &&& 0x40080 = 0x40080) : Stays m s (State.l2Ctrl x c0 en0) := by
  unfold State.l2Ctrl
  dsimp only
  repeat' (first | with_reducible assumption | exact Mask.of hm rfl | with_reducible apply Stays.updL1 | with_reducible apply Stays.memTake | with_reducible apply Stays.updMem | with_reducible refine Stays.foldl (fun t a ht => ?_) ?_ | with_reducible apply Stays.ite)

theorem Stays.execL2Disable {m : Nat} {s x : State} (h : Stays m s x) (w0 : Who) (c0 : ClId) (hm : m &&& 0x40080 = 0x40080) : Stays m s (taken x (Machine.execL2Disable w0 c0 x)) := by
  unfold taken Machine.execL2Disable
  dsimp only
  repeat' (first | with_reducible assumption | exact Mask.of hm rfl | with_reducible apply Stays.l2Ctrl | with_reducible refine Stays.when ?_ _ (fun t ht => ?_))

theorem Stays.execL2Enable {m : Nat} {s x : State} (h : Stays m s x) (w0 : Who) (c0 : ClId) (hm : m &&& 0x40080 = 0x40080) : Stays m s (taken x (Machine.execL2Enable w0 c0 x)) := by
  unfold taken Machine.execL2Enable
  dsimp only
  repeat' (first | with_reducible assumption | exact Mask.of hm rfl | with_reducible apply Stays.l2Ctrl | with_reducible refine Stays.when ?_ _ (fun t ht => ?_))

theorem Stays.flushL1 {m : Nat} {s x : State} (h : Stays m s x) (c0 : Nat) (slot0 : Nat) (hm : m &&& 0x2d07fe = 0x2d07fe) : Stays m s (State.flushL1 x c0 slot0) := by
  unfold State.flushL1
  dsimp only
  repeat' (first | with_reducible assumption | exact Mask.of hm rfl | with_reducible apply Stays.updL1 | with_reducible apply Stays.writeBack | with_reducible refine Stays.foldl (fun t a ht => ?_) ?_)

theorem Stays.dropL1All {m : Nat} {s x : State} (h : Stays m s x) (c0 : Nat) (slot0 : Nat) (hm : m &&& 0x80 = 0x80) : Stays m s (State.dropL1All x c0 slot0) := by
  unfold State.dropL1All
  repeat' (first | with_reducible assumption | exact Mask.of hm rfl | with_reducible apply Stays.updL1)

theorem Stays.flushL2 {m : Nat} {s x : State} (h : Stays m s x) (c0 : Nat) (hm : m &&& 0x2d07fe = 0x2d07fe) : Stays m s (State.flushL2 x c0) := by
  unfold State.flushL2
  dsimp only
  repeat' (first | with_reducible assumption | exact Mask.of hm rfl | with_reducible apply Stays.l2Clean | with_reducible apply Stays.gather | with_reducible apply Stays.updMem | with_reducible refine Stays.foldl (fun t a ht => ?_) ?_)

theorem Stays.endFlushL1 {m : Nat} {s x : State} (h : Stays m s x) (c0 : Nat) (k0 : Nat) (hm : m &&& 0x2d07fe = 0x2d07fe) : Stays m s (State.endFlushL1 x c0 k0) := by
  unfold State.endFlushL1
  repeat' (first | with_reducible assumption | exact Mask.of hm rfl | with_reducible apply Stays.updL1 | with_reducible apply Stays.memGive | with_reducible apply Stays.flushL1)

theorem Stays.endFlushL2 {m : Nat} {s x : State} (h : Stays m s x) (c0 : Nat) (hm : m &&& 0x2d07fe = 0x2d07fe) : Stays m s (State.endFlushL2 x c0) := by
  unfold State.endFlushL2
  dsimp only
  repeat' (first | with_reducible assumption | exact Mask.of hm rfl | with_reducible apply Stays.updL1 | with_reducible apply Stays.memGive | with_reducible apply Stays.flushL2 | with_reducible apply Stays.updMem | with_reducible refine Stays.foldl (fun t a ht => ?_) ?_ | with_reducible apply Stays.ite)

theorem Stays.execFlushComplete {m : Nat} {s x : State} (h : Stays m s x) (c0 : ClId) (slot0 : Option QId) (hm : m &&& 0x2d07fe = 0x2d07fe) : Stays m s (taken x (Machine.execFlushComplete c0 slot0 x)) := by
  unfold taken Machine.execFlushComplete
  dsimp only
  repeat' (first | with_reducible assumption | exact Mask.of hm rfl | with_reducible apply Stays.endFlushL1 | with_reducible apply Stays.endFlushL2 | with_reducible refine Stays.when ?_ _ (fun t ht => ?_) | split)

theorem Stays.execMemCntClear {m : Nat} {s x : State} (h : Stays m s x) (w0 : Who) (c0 : ClId) (val0 : W32) (hm : m &&& 0x80 = 0x80) : Stays m s (taken x (Machine.execMemCntClear w0 c0 val0 x)) := by
  unfold taken Machine.execMemCntClear
  dsimp only
  repeat' (first | with_reducible assumption | exact Mask.of hm rfl | with_reducible apply Stays.updL1 | with_reducible apply Stays.updMem | with_reducible refine Stays.when ?_ _ (fun t ht => ?_) | with_reducible refine Stays.foldl (fun t a ht => ?_) ?_)

theorem Stays.execLndCntClear {m : Nat} {s x : State} (h : Stays m s x) (w0 : Who) (val0 : W32) (hm : m &&& 0x800 = 0x800) : Stays m s (taken x (Machine.execLndCntClear w0 val0 x)) := by
  unfold taken Machine.execLndCntClear
  dsimp only
  repeat' (first | with_reducible assumption | exact Mask.of hm rfl | with_reducible apply Stays.setLnd | with_reducible refine Stays.when ?_ _ (fun t ht => ?_))

theorem Stays.execCohCntClear {m : Nat} {s x : State} (h : Stays m s x) (w0 : Who) (h0 : ClId) (val0 : W32) (hm : m &&& 0x1000 = 0x1000) : Stays m s (taken x (Machine.execCohCntClear w0 h0 val0 x)) := by
  unfold taken Machine.execCohCntClear
  dsimp only
  repeat' (first | with_reducible assumption | exact Mask.of hm rfl | with_reducible apply Stays.updHome | with_reducible refine Stays.when ?_ _ (fun t ht => ?_))

theorem Stays.zeroBank {m : Nat} {s x : State} (h : Stays m s x) (c0 : Nat) (b0 : Nat) (hm : m &&& 0x700 = 0x700) : Stays m s (State.zeroBank x c0 b0) := by
  unfold State.zeroBank
  refine Stays.build h _ _ _ _ _ _ _ _ _ _ _ _ _ _ _ _ _ _ _ _ _ (fun hw => Sp.wf_filter _ _ _ hw) ?_ ?_ ?_ ?_ ?_ ?_ ?_ ?_ ?_ ?_ ?_ ?_ ?_ ?_ ?_ ?_ ?_ ?_ ?_ ?_ ?_ ?_ ?_ ?_ ?_ ?_
  all_goals (first | exact fun hw => hw | exact fun _ => rfl | exact fun _ => ⟨rfl, rfl⟩ | exact Mask.no hm (by decide))

theorem Stays.wakeAccesses {m : Nat} {s x : State} (h : Stays m s x) (c0 : Nat) (b0 : Nat) (hm : m &&& 0x2d07fe = 0x2d07fe) : Stays m s (State.wakeAccesses x c0 b0) := by
  unfold State.wakeAccesses
  dsimp only
  repeat' (first | with_reducible assumption | exact Mask.of hm rfl | with_reducible apply Stays.scrWrite | with_reducible apply Stays.scrCheck | with_reducible apply Stays.updLe | with_reducible refine Stays.foldl (fun t a ht => ?_) ?_ | with_reducible apply Stays.ite)

theorem Stays.wakeBank {m : Nat} {s x : State} (h : Stays m s x) (c0 : Nat) (b0 : Nat) (hm : m &&& 0x2d07fe = 0x2d07fe) : Stays m s (State.wakeBank x c0 b0) := by
  unfold State.wakeBank
  repeat' (first | with_reducible assumption | exact Mask.of hm rfl | with_reducible apply Stays.wakeAccesses | with_reducible apply Stays.updMem | with_reducible apply Stays.ite)

theorem Stays.execBankWake {m : Nat} {s x : State} (h : Stays m s x) (c0 : ClId) (b0 : ClId) (hm : m &&& 0x2d07fe = 0x2d07fe) : Stays m s (taken x (Machine.execBankWake c0 b0 x)) := by
  unfold taken Machine.execBankWake
  dsimp only
  repeat' (first | with_reducible assumption | exact Mask.of hm rfl | with_reducible apply Stays.wakeBank | with_reducible refine Stays.when ?_ _ (fun t ht => ?_))

theorem Stays.execBankStateComplete {m : Nat} {s x : State} (h : Stays m s x) (c0 : ClId) (b0 : ClId) (hm : m &&& 0x40784 = 0x40784) : Stays m s (taken x (Machine.execBankStateComplete c0 b0 x)) := by
  unfold taken Machine.execBankStateComplete
  dsimp only
  repeat' (first | with_reducible assumption | exact Mask.of hm rfl | with_reducible apply Stays.finishH | with_reducible apply Stays.memGive | with_reducible apply Stays.zeroBank | with_reducible apply Stays.updMem | with_reducible apply Stays.ite | split)

theorem Stays.execPatrolScrub {m : Nat} {s x : State} (h : Stays m s x) (r0 : ScrubRead) (hm : m &&& 0x2d0e3e = 0x2d0e3e) : Stays m s (taken x (Machine.execPatrolScrub r0 x)) := by
  unfold taken Machine.execPatrolScrub
  dsimp only
  repeat' (first | with_reducible assumption | exact Mask.of hm rfl | with_reducible apply Stays.repT | with_reducible apply Stays.setLnd | with_reducible refine Stays.when ?_ _ (fun t ht => ?_) | with_reducible apply Stays.ite | split)
  all_goals with_reducible refine Stays.build ?_ _ _ _ _ _ _ _ _ _ _ _ _ _ _ _ _ _ _ _ _ _ ?_ ?_ ?_ ?_ ?_ ?_ ?_ ?_ ?_ ?_ ?_ ?_ ?_ ?_ ?_ ?_ ?_ ?_ ?_ ?_ ?_ ?_ ?_ ?_ ?_ ?_ ?_
  all_goals (first | exact fun hw => hw | exact fun _ => rfl | exact fun _ => ⟨rfl, rfl⟩ | exact Mask.no hm (by decide) | skip)
  repeat' (first | with_reducible assumption)

/-! ## Units -/

theorem Stays.drainOne {m : Nat} {s x : State} (h : Stays m s x) (a0 : Nat) (hm : m &&& 0x2d1ffe = 0x2d1ffe) : Stays m s (State.drainOne x a0) := by
  unfold State.drainOne
  dsimp only
  repeat' (first | with_reducible assumption | exact Mask.of hm rfl | with_reducible apply Stays.takeEvs | with_reducible apply Stays.activateAt | with_reducible apply Stays.answerSnoop | with_reducible apply Stays.rspAt | with_reducible apply Stays.dataAt | with_reducible apply Stays.grantAt | with_reducible apply Stays.ackAt | with_reducible refine Stays.foldl (fun t a ht => ?_) ?_ | with_reducible apply Stays.ite | split)

theorem Stays.drainSector {m : Nat} {s x : State} (h : Stays m s x) (a0 : Nat) (hm : m &&& 0x2d1ffe = 0x2d1ffe) : Stays m s (State.drainSector x a0) := by
  unfold State.drainSector
  repeat' (first | with_reducible assumption | exact Mask.of hm rfl | with_reducible apply Stays.drainOne | with_reducible refine Stays.foldl (fun t a ht => ?_) ?_)

theorem Stays.snoopAll {m : Nat} {s x : State} (h : Stays m s x) (a0 : Nat) (sn0 : List Snp) (sec0 : Bool) (hm : m &&& 0x2d17fe = 0x2d17fe) : Stays m s (State.snoopAll x a0 sn0 sec0).1 := by
  exact Stays.foldlPair (fun t y ht => Stays.snoopL2 ht _ _ _ (Mask.of hm rfl)) (Stays.homeCount h _ _ _ _ (Mask.of hm rfl))

theorem Stays.lndGet {m : Nat} {s x : State} (h : Stays m s x) (c0 : Nat) (e0 : Option Nat) (a0 : Nat) (sec0 : Bool) (hm : m &&& 0x2d1ffe = 0x2d1ffe) : Stays m s (State.lndGet x c0 e0 a0 sec0) := by
  unfold State.lndGet
  dsimp only
  repeat' (first | with_reducible assumption | exact Mask.of hm rfl | with_reducible apply Stays.lndCheck | with_reducible apply Stays.memCount | with_reducible apply Stays.l2Touch | with_reducible apply Stays.gather | with_reducible apply Stays.l2Fill | with_reducible apply Stays.drainSector | with_reducible apply Stays.snoopAll | with_reducible apply Stays.homeCount | with_reducible apply Stays.takeEvs | with_reducible apply Stays.ite)

theorem Stays.lndPut {m : Nat} {s x : State} (h : Stays m s x) (c0 : Nat) (a0 : Nat) (mask0 : W64) (d0 : Sector) (poison0 : Bool) (sec0 : Bool) (hm : m &&& 0x2d1ffe = 0x2d1ffe) : Stays m s (State.lndPut x c0 a0 mask0 d0 poison0 sec0) := by
  unfold State.lndPut
  dsimp only
  repeat' (first | with_reducible assumption | exact Mask.of hm rfl | with_reducible apply Stays.lndWrite | with_reducible apply Stays.lndCheck | with_reducible apply Stays.memCount | with_reducible apply Stays.dropL1s | with_reducible apply Stays.l2Touch | with_reducible apply Stays.l2Mark | with_reducible apply Stays.gather | with_reducible apply Stays.l2Fill | with_reducible apply Stays.drainSector | with_reducible apply Stays.snoopAll | with_reducible apply Stays.homeCount | with_reducible apply Stays.takeEvs | with_reducible apply Stays.updMem | with_reducible apply Stays.ite)

theorem Stays.hostGet {m : Nat} {s x : State} (h : Stays m s x) (h0 : HostIn) (c0 : Nat) (e0 : Option Nat) (a0 : Nat) (hpa0 : Nat) (sec0 : Bool) (hm : m &&& 0x2d17fe = 0x2d17fe) : Stays m s (State.hostGet x h0 c0 e0 a0 hpa0 sec0) := by
  unfold State.hostGet
  dsimp only
  repeat' (first | with_reducible assumption | exact Mask.of hm rfl | with_reducible apply Stays.memCount | with_reducible apply Stays.l2Touch | with_reducible apply Stays.dropSec | with_reducible apply Stays.l2Fill | with_reducible apply Stays.homeCount | with_reducible apply Stays.timeoutLog | with_reducible apply Stays.emit | with_reducible apply Stays.ite | split)

theorem Stays.hostPut {m : Nat} {s x : State} (h : Stays m s x) (a0 : Nat) (hpa0 : Nat) (mask0 : W64) (d0 : Sector) (poison0 : Bool) (sec0 : Bool) (hm : m &&& 0x2d10be = 0x2d10be) : Stays m s (State.hostPut x a0 hpa0 mask0 d0 poison0 sec0) := by
  unfold State.hostPut
  dsimp only
  repeat' (first | with_reducible assumption | exact Mask.of hm rfl | with_reducible apply Stays.dropSec | with_reducible apply Stays.homeCount | with_reducible apply Stays.timeoutLog | with_reducible apply Stays.emit | with_reducible refine Stays.foldl (fun t a ht => ?_) ?_ | with_reducible apply Stays.ite | split)

theorem Stays.scrWake {m : Nat} {s x : State} (h : Stays m s x) (a0 : Nat) (hm : m &&& 0x2d07fe = 0x2d07fe) : Stays m s (State.scrWake x a0) := by
  unfold State.scrWake
  repeat' (first | with_reducible assumption | exact Mask.of hm rfl | with_reducible apply Stays.wakeBank)

theorem Stays.unitGet {m : Nat} {s x : State} (h : Stays m s x) (h0 : HostIn) (f0 : Nat) (sec0 : Bool) (c0 : Nat) (e0 : Option Nat) (a0 : Nat) (hm : m &&& 0x2d1ffe = 0x2d1ffe) : Stays m s (State.unitGet x h0 f0 sec0 c0 e0 a0) := by
  unfold State.unitGet
  repeat' (first | with_reducible assumption | exact Mask.of hm rfl | with_reducible apply Stays.lndGet | with_reducible apply Stays.hostGet | with_reducible apply Stays.ite | split)

theorem Stays.scrFetch {m : Nat} {s x : State} (h : Stays m s x) (sec0 : Bool) (c0 : Nat) (a0 : Nat) (n0 : Nat) (hm : m &&& 0x2d07fe = 0x2d07fe) : Stays m s (State.scrFetch x sec0 c0 a0 n0) := by
  unfold State.scrFetch
  dsimp only
  repeat' (first | with_reducible assumption | exact Mask.of hm rfl | with_reducible apply Stays.scrCheck | with_reducible apply Stays.scrWake | with_reducible refine Stays.foldl (fun t a ht => ?_) ?_ | with_reducible apply Stays.ite | split)

theorem Stays.unitFetch {m : Nat} {s x : State} (h : Stays m s x) (h0 : HostIn) (f0 : Nat) (sec0 : Bool) (c0 : Nat) (e0 : Option Nat) (a0 : Nat) (n0 : Nat) (hm : m &&& 0x2d1ffe = 0x2d1ffe) : Stays m s (State.unitFetch x h0 f0 sec0 c0 e0 a0 n0) := by
  unfold State.unitFetch
  dsimp only
  repeat' (first | with_reducible assumption | exact Mask.of hm rfl | with_reducible apply Stays.tallyAdvise | with_reducible apply Stays.unitGet | with_reducible apply Stays.scrFetch | with_reducible refine Stays.foldl (fun t a ht => ?_) ?_)

theorem Stays.scrPut {m : Nat} {s x : State} (h : Stays m s x) (a00 : Nat) (bs0 : List Byte) (poison0 : Bool) (hm : m &&& 0x2d07fe = 0x2d07fe) : Stays m s (State.scrPut x a00 bs0 poison0) := by
  unfold State.scrPut
  dsimp only
  repeat' (first | with_reducible assumption | exact Mask.of hm rfl | with_reducible apply Stays.scrWrite | with_reducible apply Stays.scrWake | with_reducible refine Stays.foldl (fun t a ht => ?_) ?_ | with_reducible apply Stays.ite | split)
  all_goals with_reducible refine Stays.build ?_ _ _ _ _ _ _ _ _ _ _ _ _ _ _ _ _ _ _ _ _ _ ?_ ?_ ?_ ?_ ?_ ?_ ?_ ?_ ?_ ?_ ?_ ?_ ?_ ?_ ?_ ?_ ?_ ?_ ?_ ?_ ?_ ?_ ?_ ?_ ?_ ?_ ?_
  all_goals (first | exact fun hw => hw | exact fun _ => rfl | exact fun _ => ⟨rfl, rfl⟩ | exact Mask.no hm (by decide) | skip)
  repeat' (first | with_reducible assumption)

theorem Stays.unitPart {m : Nat} {s x : State} (h : Stays m s x) (f0 : Nat) (sec0 : Bool) (c0 : Nat) (a0 : Nat) (bs0 : List Byte) (poison0 : Bool) (hm : m &&& 0x2d1ffe = 0x2d1ffe) : Stays m s (State.unitPart x f0 sec0 c0 a0 bs0 poison0) := by
  unfold State.unitPart
  dsimp only
  repeat' (first | with_reducible assumption | exact Mask.of hm rfl | with_reducible apply Stays.lndPut | with_reducible apply Stays.hostPut | with_reducible apply Stays.scrPut | with_reducible apply Stays.ite | split)

theorem Stays.unitPut {m : Nat} {s x : State} (h : Stays m s x) (f0 : Nat) (sec0 : Bool) (c0 : Nat) (a0 : Nat) (bs0 : List Byte) (poison0 : Bool) (hm : m &&& 0x2d1ffe = 0x2d1ffe) : Stays m s (State.unitPut x f0 sec0 c0 a0 bs0 poison0) := by
  unfold State.unitPut
  dsimp only
  repeat' (first | with_reducible assumption | exact Mask.of hm rfl | with_reducible apply Stays.unitPart | with_reducible refine Stays.foldl (fun t a ht => ?_) ?_)

theorem Stays.unitStore {m : Nat} {s x : State} (h : Stays m s x) (f0 : Nat) (sec0 : Bool) (c0 : Nat) (a0 : Nat) (bs0 : List Byte) (hm : m &&& 0x2d1ffe = 0x2d1ffe) : Stays m s (State.unitStore x f0 sec0 c0 a0 bs0) := by
  unfold State.unitStore
  repeat' (first | with_reducible assumption | exact Mask.of hm rfl | with_reducible apply Stays.unitPut)

/-! ## Cipher -/

theorem Stays.cutGrp {m : Nat} {s x : State} (h : Stays m s x) (g0 : Nat) (st0 : Nat) (hm : m &&& 0x102000 = 0x102000) : Stays m s (State.cutGrp x g0 st0) := by
  unfold State.cutGrp
  repeat' (first | with_reducible assumption | exact Mask.of hm rfl | with_reducible apply Stays.drawn | with_reducible apply Stays.updGrp | with_reducible apply Stays.ite | split)

theorem Stays.eraseSlot {m : Nat} {s x : State} (h : Stays m s x) (i0 : Nat) (hm : m &&& 0x102000 = 0x102000) : Stays m s (State.eraseSlot x i0) := by
  unfold State.eraseSlot
  dsimp only
  repeat' (first | with_reducible assumption | exact Mask.of hm rfl | with_reducible apply Stays.cutGrp | with_reducible apply Stays.setSlot | with_reducible refine Stays.foldl (fun t a ht => ?_) ?_ | with_reducible apply Stays.ite | split)

theorem Stays.drawIv {m : Nat} {s x : State} (h : Stays m s x) (i0 : Nat) (hm : m &&& 0x2000 = 0x2000) : Stays m s (State.drawIv x i0).1 := by
  unfold State.drawIv
  dsimp only
  repeat' (first | with_reducible assumption | exact Mask.of hm rfl | with_reducible apply Stays.setSlot | with_reducible apply Stays.ite | split)

theorem Stays.toGrp {m : Nat} {s x : State} (h : Stays m s x) (g0 : Nat) (r0 : SvcReq) (hm : m &&& 0x2000 = 0x2000) : Stays m s (State.toGrp x g0 r0) := by
  unfold State.toGrp
  repeat' (first | with_reducible assumption | exact Mask.of hm rfl | with_reducible apply Stays.updGrp)

theorem Stays.svcDone {m : Nat} {s x : State} (h : Stays m s x) (r0 : SvcReq) (st0 : Nat) (r00 : Nat) (r10 : Nat) (hm : m &&& 0x4c = 0x4c) : Stays m s (State.svcDone x r0 st0 r00 r10) := by
  unfold State.svcDone
  repeat' (first | with_reducible assumption | exact Mask.of hm rfl | with_reducible apply Stays.finishH | with_reducible apply Stays.postFrom | with_reducible apply Stays.ite | split)

theorem Stays.grpCount {m : Nat} {s x : State} (h : Stays m s x) (g0 : Nat) (j0 : Nat) (n0 : Nat) (sec0 : Bool) (hm : m &&& 0x2000 = 0x2000) : Stays m s (State.grpCount x g0 j0 n0 sec0) := by
  unfold State.grpCount
  repeat' (first | with_reducible assumption | exact Mask.of hm rfl | with_reducible apply Stays.updGrp | with_reducible apply Stays.ite)

theorem Stays.grpIdle {m : Nat} {s x : State} (h : Stays m s x) (g0 : Nat) (hm : m &&& 0x42000 = 0x42000) : Stays m s (State.grpIdle x g0) := by
  unfold State.grpIdle
  repeat' (first | with_reducible assumption | exact Mask.of hm rfl | with_reducible apply Stays.releaseGrant | with_reducible apply Stays.updGrp)

theorem Stays.retireGrp {m : Nat} {s x : State} (h : Stays m s x) (g0 : Nat) (index0 : W32) (hm : m &&& 0x11204c = 0x11204c) : Stays m s (State.retireGrp x g0 index0) := by
  unfold State.retireGrp
  dsimp only
  repeat' (first | with_reducible assumption | exact Mask.of hm rfl | with_reducible apply Stays.injWithdraw | with_reducible apply Stays.cutGrp | with_reducible apply Stays.toGrp | with_reducible apply Stays.svcDone | with_reducible apply Stays.updGrp | with_reducible refine Stays.foldl (fun t a ht => ?_) ?_ | split)

theorem Stays.sliceFault {m : Nat} {s x : State} (h : Stays m s x) (g0 : Nat) (n0 : Nat) (sec0 : Bool) (hm : m &&& 0x3d207e = 0x3d207e) : Stays m s (State.sliceFault x g0 n0 sec0) := by
  unfold State.sliceFault
  dsimp only
  repeat' (first | with_reducible assumption | exact Mask.of hm rfl | with_reducible apply Stays.repT | with_reducible apply Stays.grpCount | with_reducible apply Stays.retireGrp | with_reducible apply Stays.updGrp | with_reducible apply Stays.ite)

theorem Stays.twinInjected {m : Nat} {s x : State} (h : Stays m s x) (g0 : Nat) (sec0 : Bool) (hm : m &&& 0x3d207e = 0x3d207e) : Stays m s (State.twinInjected x g0 sec0) := by
  unfold State.twinInjected
  dsimp only
  repeat' (first | with_reducible assumption | exact Mask.of hm rfl | with_reducible apply Stays.repT | with_reducible apply Stays.sliceFault | with_reducible apply Stays.ite)

theorem Stays.scrub {m : Nat} {s x : State} (h : Stays m s x) (r0 : RunOp) (c0 : Nat) (hm : m &&& 0x2d1ffe = 0x2d1ffe) : Stays m s (State.scrub x r0 c0) := by
  unfold State.scrub
  repeat' (first | with_reducible assumption | exact Mask.of hm rfl | with_reducible apply Stays.unitStore | with_reducible refine Stays.foldl (fun t a ht => ?_) ?_)

theorem Stays.slotLost {m : Nat} {s x : State} (h : Stays m s x) (i0 : Nat) (f0 : Nat) (inj0 : Bool) (hm : m &&& 0x3d203e = 0x3d203e) : Stays m s (State.slotLost x i0 f0 inj0) := by
  unfold State.slotLost
  repeat' (first | with_reducible assumption | exact Mask.of hm rfl | with_reducible apply Stays.repT | with_reducible apply Stays.eraseSlot)

theorem Stays.slotCheck {m : Nat} {s x : State} (h : Stays m s x) (i0 : Nat) (f0 : Nat) (hm : m &&& 0x3d203e = 0x3d203e) : Stays m s (State.slotCheck x i0 f0) := by
  unfold State.slotCheck
  dsimp only
  repeat' (first | with_reducible assumption | exact Mask.of hm rfl | with_reducible apply Stays.repT | with_reducible apply Stays.slotLost | with_reducible apply Stays.setSlot | with_reducible apply Stays.ite)

theorem Stays.takeCph1 {m : Nat} {s x : State} (h : Stays m s x) (e0 : Nat) (hm : m &&& 0x204c = 0x204c) : Stays m s (State.takeCph1 x e0) := by
  unfold State.takeCph1
  dsimp only
  repeat' (first | with_reducible assumption | exact Mask.of hm rfl | with_reducible apply Stays.toGrp | with_reducible apply Stays.svcDone | with_reducible apply Stays.updLe | with_reducible apply Stays.ite | split)

theorem Stays.takeCph {m : Nat} {s x : State} (h : Stays m s x) (e0 : Nat) (hm : m &&& 0x204c = 0x204c) : Stays m s (State.takeCph x e0) := by
  unfold State.takeCph
  repeat' (first | with_reducible assumption | exact Mask.of hm rfl | with_reducible apply Stays.takeCph1 | with_reducible refine Stays.foldl (fun t a ht => ?_) ?_)

theorem Stays.takeCphAll {m : Nat} {s x : State} (h : Stays m s x) (hm : m &&& 0x204c = 0x204c) : Stays m s (State.takeCphAll x) := by
  unfold State.takeCphAll
  repeat' (first | with_reducible assumption | exact Mask.of hm rfl | with_reducible apply Stays.takeCph | with_reducible refine Stays.foldl (fun t a ht => ?_) ?_ | with_reducible apply Stays.ite)

theorem Stays.execKeyCapture {m : Nat} {s x : State} (h : Stays m s x) (g0 : UnitId) (hm : m &&& 0x3d207e = 0x3d207e) : Stays m s (taken x (Machine.execKeyCapture g0 x)) := by
  unfold taken Machine.execKeyCapture
  dsimp only
  repeat' (first | with_reducible assumption | exact Mask.of hm rfl | with_reducible apply Stays.releaseGrant | with_reducible apply Stays.svcDone | with_reducible apply Stays.slotCheck | with_reducible apply Stays.takeCphAll | with_reducible apply Stays.updGrp | with_reducible refine Stays.when ?_ _ (fun t ht => ?_) | with_reducible apply Stays.ite | split)

theorem Stays.execCipherOperationEnd {m : Nat} {s x : State} (h : Stays m s x) (g0 : UnitId) (host0 : HostIn) (hm : m &&& 0x3d3ffe = 0x3d3ffe) : Stays m s (taken x (Machine.execCipherOperationEnd g0 host0 x)) := by
  unfold taken Machine.execCipherOperationEnd
  dsimp only
  repeat' (first | with_reducible assumption | exact Mask.of hm rfl | with_reducible apply Stays.unitFetch | with_reducible apply Stays.unitStore | with_reducible apply Stays.svcDone | with_reducible apply Stays.grpCount | with_reducible apply Stays.grpIdle | with_reducible apply Stays.twinInjected | with_reducible apply Stays.updGrp | with_reducible refine Stays.when ?_ _ (fun t ht => ?_) | with_reducible refine Stays.foldl (fun t a ht => ?_) ?_ | with_reducible apply Stays.ite | split)

theorem Stays.eraseDone {m : Nat} {s x : State} (h : Stays m s x) (i0 : Nat) (hm : m &&& 0x4 = 0x4) : Stays m s (State.eraseDone x i0) := by
  unfold State.eraseDone
  repeat' (first | with_reducible assumption | exact Mask.of hm rfl | with_reducible apply Stays.finish | with_reducible apply Stays.stage | with_reducible refine Stays.foldl (fun t a ht => ?_) ?_ | with_reducible apply Stays.ite)

theorem Stays.execCipherScrubComplete {m : Nat} {s x : State} (h : Stays m s x) (g0 : UnitId) (hm : m &&& 0x2d3ffe = 0x2d3ffe) : Stays m s (taken x (Machine.execCipherScrubComplete g0 x)) := by
  unfold taken Machine.execCipherScrubComplete
  dsimp only
  repeat' (first | with_reducible assumption | exact Mask.of hm rfl | with_reducible apply Stays.svcDone | with_reducible apply Stays.grpCount | with_reducible apply Stays.grpIdle | with_reducible apply Stays.scrub | with_reducible apply Stays.eraseDone | with_reducible refine Stays.when ?_ _ (fun t ht => ?_) | split)

theorem Stays.execCphCntClear {m : Nat} {s x : State} (h : Stays m s x) (w0 : Who) (val0 : W32) (hm : m &&& 0x2000 = 0x2000) : Stays m s (taken x (Machine.execCphCntClear w0 val0 x)) := by
  unfold taken Machine.execCphCntClear
  dsimp only
  repeat' (first | with_reducible assumption | exact Mask.of hm rfl | with_reducible apply Stays.updGrp | with_reducible refine Stays.when ?_ _ (fun t ht => ?_) | with_reducible refine Stays.foldl (fun t a ht => ?_) ?_)

/-! ## Galley -/

theorem Stays.toCoder {m : Nat} {s x : State} (h : Stays m s x) (c0 : Nat) (r0 : SvcReq) (hm : m &&& 0x4000 = 0x4000) : Stays m s (State.toCoder x c0 r0) := by
  unfold State.toCoder
  repeat' (first | with_reducible assumption | exact Mask.of hm rfl | with_reducible apply Stays.updCoder)

theorem Stays.coderCount {m : Nat} {s x : State} (h : Stays m s x) (c0 : Nat) (j0 : Nat) (n0 : Nat) (sec0 : Bool) (hm : m &&& 0x4000 = 0x4000) : Stays m s (State.coderCount x c0 j0 n0 sec0) := by
  unfold State.coderCount
  repeat' (first | with_reducible assumption | exact Mask.of hm rfl | with_reducible apply Stays.updCoder | with_reducible apply Stays.ite)

theorem Stays.coderIdle {m : Nat} {s x : State} (h : Stays m s x) (c0 : Nat) (hm : m &&& 0x44000 = 0x44000) : Stays m s (State.coderIdle x c0) := by
  unfold State.coderIdle
  repeat' (first | with_reducible assumption | exact Mask.of hm rfl | with_reducible apply Stays.releaseGrant | with_reducible apply Stays.updCoder)

theorem Stays.coderFail {m : Nat} {s x : State} (h : Stays m s x) (c0 : Nat) (o0 : RunOp) (st0 : Nat) (r00 : Nat) (r10 : Nat) (n0 : Nat) (hm : m &&& 0x4000 = 0x4000) : Stays m s (State.coderFail x c0 o0 st0 r00 r10 n0) := by
  unfold State.coderFail
  repeat' (first | with_reducible assumption | exact Mask.of hm rfl | with_reducible apply Stays.updCoder)

theorem Stays.cutCoder {m : Nat} {s x : State} (h : Stays m s x) (c0 : Nat) (sel0 : SvcReq → Bool) (st0 : Nat) (r00 : Nat) (hm : m &&& 0x104000 = 0x104000) : Stays m s (State.cutCoder x c0 sel0 st0 r00) := by
  unfold State.cutCoder
  repeat' (first | with_reducible assumption | exact Mask.of hm rfl | with_reducible apply Stays.drawn | with_reducible apply Stays.coderFail | with_reducible apply Stays.ite | split)

theorem Stays.moveRun {m : Nat} {s x : State} (h : Stays m s x) (c0 : Nat) (index0 : W32) (hm : m &&& 0x144000 = 0x144000) : Stays m s (State.moveRun x c0 index0) := by
  unfold State.moveRun
  repeat' (first | with_reducible assumption | exact Mask.of hm rfl | with_reducible apply Stays.releaseGrant | with_reducible apply Stays.toCoder | with_reducible apply Stays.cutCoder | with_reducible apply Stays.updCoder | split)

theorem Stays.retireCoder {m : Nat} {s x : State} (h : Stays m s x) (c0 : Nat) (index0 : W32) (hm : m &&& 0x15404c = 0x15404c) : Stays m s (State.retireCoder x c0 index0) := by
  unfold State.retireCoder
  dsimp only
  repeat' (first | with_reducible assumption | exact Mask.of hm rfl | with_reducible apply Stays.injWithdraw | with_reducible apply Stays.svcDone | with_reducible apply Stays.toCoder | with_reducible apply Stays.moveRun | with_reducible apply Stays.updCoder | with_reducible refine Stays.foldl (fun t a ht => ?_) ?_ | split)

theorem Stays.coderFault {m : Nat} {s x : State} (h : Stays m s x) (c0 : Nat) (sec0 : Bool) (hm : m &&& 0x3d407e = 0x3d407e) : Stays m s (State.coderFault x c0 sec0) := by
  unfold State.coderFault
  dsimp only
  repeat' (first | with_reducible assumption | exact Mask.of hm rfl | with_reducible apply Stays.repT | with_reducible apply Stays.coderCount | with_reducible apply Stays.retireCoder | with_reducible apply Stays.updCoder | with_reducible apply Stays.ite)

theorem Stays.coderInjected {m : Nat} {s x : State} (h : Stays m s x) (c0 : Nat) (sec0 : Bool) (hm : m &&& 0x3d407e = 0x3d407e) : Stays m s (State.coderInjected x c0 sec0) := by
  unfold State.coderInjected
  repeat' (first | with_reducible assumption | exact Mask.of hm rfl | with_reducible apply Stays.repT | with_reducible apply Stays.coderFault | with_reducible apply Stays.ite)

theorem Stays.takeGal1 {m : Nat} {s x : State} (h : Stays m s x) (e0 : Nat) (hm : m &&& 0x404c = 0x404c) : Stays m s (State.takeGal1 x e0) := by
  unfold State.takeGal1
  dsimp only
  repeat' (first | with_reducible assumption | exact Mask.of hm rfl | with_reducible apply Stays.svcDone | with_reducible apply Stays.toCoder | with_reducible apply Stays.updLe | with_reducible apply Stays.ite | split)

theorem Stays.takeGal {m : Nat} {s x : State} (h : Stays m s x) (e0 : Nat) (hm : m &&& 0x404c = 0x404c) : Stays m s (State.takeGal x e0) := by
  unfold State.takeGal
  repeat' (first | with_reducible assumption | exact Mask.of hm rfl | with_reducible apply Stays.takeGal1 | with_reducible refine Stays.foldl (fun t a ht => ?_) ?_)

theorem Stays.takeGalAll {m : Nat} {s x : State} (h : Stays m s x) (hm : m &&& 0x404c = 0x404c) : Stays m s (State.takeGalAll x) := by
  unfold State.takeGalAll
  repeat' (first | with_reducible assumption | exact Mask.of hm rfl | with_reducible apply Stays.takeGal | with_reducible refine Stays.foldl (fun t a ht => ?_) ?_ | with_reducible apply Stays.ite)

theorem Stays.execCoderOperationStart {m : Nat} {s x : State} (h : Stays m s x) (c0 : UnitId) (hm : m &&& 0x404c = 0x404c) : Stays m s (taken x (Machine.execCoderOperationStart c0 x)) := by
  unfold taken Machine.execCoderOperationStart
  dsimp only
  repeat' (first | with_reducible assumption | exact Mask.of hm rfl | with_reducible apply Stays.takeGalAll | with_reducible apply Stays.updCoder | with_reducible refine Stays.when ?_ _ (fun t ht => ?_) | split)

theorem Stays.execGalleyConfirmation {m : Nat} {s x : State} (h : Stays m s x) (c0 : UnitId) (block0 : Nat) (agrees0 : Bool) (hm : m &&& 0x3d407e = 0x3d407e) : Stays m s (taken x (Machine.execGalleyConfirmation c0 block0 agrees0 x)) := by
  unfold taken Machine.execGalleyConfirmation
  dsimp only
  repeat' (first | with_reducible assumption | exact Mask.of hm rfl | with_reducible apply Stays.repT | with_reducible apply Stays.coderFault | with_reducible apply Stays.updCoder | with_reducible refine Stays.when ?_ _ (fun t ht => ?_) | with_reducible apply Stays.ite | split)

theorem Stays.resRecord {m : Nat} {s x : State} (h : Stays m s x) (c0 : Nat) (r0 : SvcReq) (done0 : Nat) (index0 : Nat) (hm : m &&& 0x2d1ffe = 0x2d1ffe) : Stays m s (State.resRecord x c0 r0 done0 index0) := by
  unfold State.resRecord
  repeat' (first | with_reducible assumption | exact Mask.of hm rfl | with_reducible apply Stays.unitStore | with_reducible apply Stays.ite)

theorem Stays.coderEnd {m : Nat} {s x : State} (h : Stays m s x) (c0 : Nat) (r0 : SvcReq) (st0 : Nat) (r00 : Nat) (r10 : Nat) (done0 : Nat) (index0 : Nat) (hm : m &&& 0x2d5ffe = 0x2d5ffe) : Stays m s (State.coderEnd x c0 r0 st0 r00 r10 done0 index0) := by
  unfold State.coderEnd
  repeat' (first | with_reducible assumption | exact Mask.of hm rfl | with_reducible apply Stays.svcDone | with_reducible apply Stays.coderIdle | with_reducible apply Stays.resRecord)

theorem Stays.writeOut {m : Nat} {s x : State} (h : Stays m s x) (h0 : HostIn) (c0 : Nat) (r0 : SvcReq) (src0 : State) (n0 : Nat) (hm : m &&& 0x2d1ffe = 0x2d1ffe) : Stays m s (State.writeOut x h0 c0 r0 src0 n0) := by
  unfold State.writeOut
  repeat' (first | with_reducible assumption | exact Mask.of hm rfl | with_reducible apply Stays.unitStore | with_reducible refine Stays.foldl (fun t a ht => ?_) ?_ | split)

theorem Stays.coderStop {m : Nat} {s x : State} (h : Stays m s x) (h0 : HostIn) (c0 : Nat) (o0 : RunOp) (b0 : Nat) (hm : m &&& 0x2d5ffe = 0x2d5ffe) : Stays m s (State.coderStop x h0 c0 o0 b0) := by
  unfold State.coderStop
  dsimp only
  repeat' (first | with_reducible assumption | exact Mask.of hm rfl | with_reducible apply Stays.coderCount | with_reducible apply Stays.coderEnd | with_reducible apply Stays.writeOut | with_reducible apply Stays.coderFail | with_reducible apply Stays.ite)

theorem Stays.coderRunEnd {m : Nat} {s x : State} (h : Stays m s x) (h0 : HostIn) (c0 : Nat) (o0 : RunOp) (hm : m &&& 0x2d5ffe = 0x2d5ffe) : Stays m s (State.coderRunEnd x h0 c0 o0) := by
  unfold State.coderRunEnd
  dsimp only
  repeat' (first | with_reducible assumption | exact Mask.of hm rfl | with_reducible apply Stays.coderCount | with_reducible apply Stays.coderEnd | with_reducible apply Stays.writeOut | with_reducible apply Stays.coderFail | with_reducible apply Stays.coderStop | with_reducible apply Stays.ite | split)

theorem Stays.execCoderOperationEnd {m : Nat} {s x : State} (h : Stays m s x) (c0 : UnitId) (host0 : HostIn) (hm : m &&& 0x3d5ffe = 0x3d5ffe) : Stays m s (taken x (Machine.execCoderOperationEnd c0 host0 x)) := by
  unfold taken Machine.execCoderOperationEnd
  dsimp only
  repeat' (first | with_reducible assumption | exact Mask.of hm rfl | with_reducible apply Stays.unitFetch | with_reducible apply Stays.coderInjected | with_reducible apply Stays.coderRunEnd | with_reducible refine Stays.when ?_ _ (fun t ht => ?_) | with_reducible apply Stays.ite | split)

theorem Stays.execGalleyScrubComplete {m : Nat} {s x : State} (h : Stays m s x) (c0 : UnitId) (hm : m &&& 0x2d5ffe = 0x2d5ffe) : Stays m s (taken x (Machine.execGalleyScrubComplete c0 x)) := by
  unfold taken Machine.execGalleyScrubComplete
  dsimp only
  repeat' (first | with_reducible assumption | exact Mask.of hm rfl | with_reducible apply Stays.scrub | with_reducible apply Stays.coderCount | with_reducible apply Stays.coderEnd | with_reducible refine Stays.when ?_ _ (fun t ht => ?_) | with_reducible apply Stays.ite | split)

theorem Stays.execGalCntClear {m : Nat} {s x : State} (h : Stays m s x) (w0 : Who) (val0 : W32) (hm : m &&& 0x4000 = 0x4000) : Stays m s (taken x (Machine.execGalCntClear w0 val0 x)) := by
  unfold taken Machine.execGalCntClear
  dsimp only
  repeat' (first | with_reducible assumption | exact Mask.of hm rfl | with_reducible apply Stays.updCoder | with_reducible refine Stays.when ?_ _ (fun t ht => ?_) | with_reducible refine Stays.foldl (fun t a ht => ?_) ?_)

theorem Stays.endCoderOps {m : Nat} {s x : State} (h : Stays m s x) (sel0 : SvcReq → Bool) (st0 : Nat) (hm : m &&& 0x10404c = 0x10404c) : Stays m s (State.endCoderOps x sel0 st0) := by
  unfold State.endCoderOps
  dsimp only
  repeat' (first | with_reducible assumption | exact Mask.of hm rfl | with_reducible apply Stays.svcDone | with_reducible apply Stays.cutCoder | with_reducible apply Stays.updCoder | with_reducible refine Stays.foldl (fun t a ht => ?_) ?_)

end Sys2Proof.Machine
end

