-- ==== Sys2Proof/Laws/StaysCommands.lean ====
section
/-! SUPPORT. No operation undoes what `Kept` names: one lemma for each operation of the ports, the command path, the administration and the Tally. -/

namespace Sys2Proof.Machine

/-! ## Ports -/

theorem Stays.flrEntry {m : Nat} {s x : State} (h : Stays m s x) (i0 : Nat) (hm : m &&& 0x180007c = 0x180007c) : Stays m s (State.flrEntry x i0) := by
  unfold State.flrEntry
  dsimp only
  repeat' (first | with_reducible assumption | exact Mask.of hm rfl | with_reducible apply Stays.freeCheck | with_reducible apply Stays.abortEntry | with_reducible apply Stays.setEntry | with_reducible apply Stays.ite)

theorem Stays.flrRegs {m : Nat} {s x : State} (h : Stays m s x) (f0 : Nat) (hm : m &&& 0x6 = 0x6) : Stays m s (State.flrRegs x f0) := by
  unfold State.flrRegs
  dsimp only
  repeat' (first | with_reducible assumption | exact Mask.of hm rfl | with_reducible apply Stays.setQm | with_reducible apply Stays.updFn | with_reducible refine Stays.updPortCore ?_ _ _ (fun _ => rfl) (Mask.of hm rfl) | with_reducible refine Stays.updPort ?_ _ _ (Mask.of hm rfl) | with_reducible refine Stays.foldl (fun t a ht => ?_) ?_)

theorem Stays.flr {m : Nat} {s x : State} (h : Stays m s x) (f0 : Nat) (hm : m &&& 0x190607e = 0x190607e) : Stays m s (State.flr x f0) := by
  unfold State.flr
  dsimp only
  repeat' (first | with_reducible assumption | exact Mask.of hm rfl | with_reducible apply Stays.eraseSlot | with_reducible apply Stays.endCoderOps | with_reducible apply Stays.flrEntry | with_reducible apply Stays.flrRegs | with_reducible apply Stays.updFn | with_reducible refine Stays.foldl (fun t a ht => ?_) ?_)

theorem Stays.execFunctionLevelReset {m : Nat} {s x : State} (h : Stays m s x) (p0 : PortId) (v0 : VfId) (hm : m &&& 0x190607e = 0x190607e) : Stays m s (taken x (Machine.execFunctionLevelReset p0 v0 x)) := by
  unfold taken Machine.execFunctionLevelReset
  dsimp only
  repeat' (first | with_reducible assumption | exact Mask.of hm rfl | with_reducible apply Stays.flr | with_reducible refine Stays.when ?_ _ (fun t ht => ?_))

theorem Stays.execFlrComplete {m : Nat} {s x : State} (h : Stays m s x) (v0 : VfId) (hm : m &&& 0x4 = 0x4) : Stays m s (taken x (Machine.execFlrComplete v0 x)) := by
  unfold taken Machine.execFlrComplete
  dsimp only
  repeat' (first | with_reducible assumption | exact Mask.of hm rfl | with_reducible apply Stays.updFn | with_reducible refine Stays.when ?_ _ (fun t ht => ?_))

theorem Stays.pathsChanged {m : Nat} {s x : State} (h : Stays m s x) (old0 : State) (lost0 : Option Nat) (hm : m &&& 0x1b0607e = 0x1b0607e) : Stays m s (State.pathsChanged x old0 lost0) := by
  unfold State.pathsChanged
  dsimp only
  repeat' (first | with_reducible assumption | exact Mask.of hm rfl | with_reducible apply Stays.rePortAll | with_reducible apply Stays.pathEvents | with_reducible apply Stays.flr | with_reducible refine Stays.foldl (fun t a ht => ?_) ?_ | with_reducible apply Stays.ite)

theorem Stays.execVfEnableWrite {m : Nat} {s x : State} (h : Stays m s x) (p0 : PortId) (enable0 : Bool) (numVfs0 : W16) (hm : m &&& 0x1f0607e = 0x1f0607e) : Stays m s (taken x (Machine.execVfEnableWrite p0 enable0 numVfs0 x)) := by
  unfold taken Machine.execVfEnableWrite
  dsimp only
  repeat' (first | with_reducible assumption | exact Mask.of hm rfl | with_reducible apply Stays.pathsChanged | with_reducible refine Stays.updPortCore ?_ _ _ (fun _ => rfl) (Mask.of hm rfl) | with_reducible refine Stays.updPort ?_ _ _ (Mask.of hm rfl) | with_reducible refine Stays.when ?_ _ (fun t ht => ?_))

theorem Stays.discardAdmin {m : Nat} {s x : State} (h : Stays m s x) (f0 : Nat) (op0 : Nat) (cmdId0 : W16) (hm : m &&& 0x2d003e = 0x2d003e) : Stays m s (State.discardAdmin x f0 op0 cmdId0) := by
  unfold State.discardAdmin
  repeat' (first | with_reducible assumption | exact Mask.of hm rfl | with_reducible apply Stays.repF | with_reducible apply Stays.updFn)

theorem Stays.pfQueueReset {m : Nat} {s x : State} (h : Stays m s x) (f0 : Nat) (q0 : Nat) (hm : m &&& 0x1ad003e = 0x1ad003e) : Stays m s (State.pfQueueReset x f0 q0) := by
  unfold State.pfQueueReset
  dsimp only
  repeat' (first | with_reducible assumption | exact Mask.of hm rfl | with_reducible apply Stays.consume | with_reducible apply Stays.discardAdmin | with_reducible apply Stays.credit | with_reducible apply Stays.updQueue | with_reducible refine Stays.foldl (fun t a ht => ?_) ?_)

theorem Stays.pfAdminReset {m : Nat} {s x : State} (h : Stays m s x) (f0 : Nat) (hm : m &&& 0x1ad003e = 0x1ad003e) : Stays m s (State.pfAdminReset x f0) := by
  unfold State.pfAdminReset
  dsimp only
  repeat' (first | with_reducible assumption | exact Mask.of hm rfl | with_reducible apply Stays.dropCmd | with_reducible apply Stays.freeCheck | with_reducible apply Stays.discardAdmin | with_reducible apply Stays.stage | with_reducible apply Stays.updEntry | with_reducible refine Stays.foldl (fun t a ht => ?_) ?_ | split)

theorem Stays.portReset {m : Nat} {s x : State} (h : Stays m s x) (p0 : Nat) (hm : m &&& 0x1ed003e = 0x1ed003e) : Stays m s (State.portReset x p0) := by
  unfold State.portReset
  dsimp only
  repeat' (first | with_reducible assumption | exact Mask.of hm rfl | with_reducible apply Stays.pfQueueReset | with_reducible apply Stays.pfAdminReset | with_reducible refine Stays.updPortCore ?_ _ _ (fun _ => rfl) (Mask.of hm rfl) | with_reducible refine Stays.updPort ?_ _ _ (Mask.of hm rfl) | with_reducible refine Stays.foldl (fun t a ht => ?_) ?_)

theorem Stays.losePort {m : Nat} {s x : State} (h : Stays m s x) (p0 : Nat) (reset0 : Bool) (down0 : Bool) (hm : m &&& 0x1fd70fe = 0x1fd70fe) : Stays m s (State.losePort x p0 reset0 down0) := by
  unfold State.losePort
  dsimp only
  repeat' (first | with_reducible assumption | exact Mask.of hm rfl | with_reducible apply Stays.rep0 | with_reducible apply Stays.hostReissue | with_reducible apply Stays.dropHostLines | with_reducible apply Stays.pathsChanged | with_reducible apply Stays.portReset | with_reducible refine Stays.updPortCore ?_ _ _ (fun _ => rfl) (Mask.of hm rfl) | with_reducible refine Stays.updPort ?_ _ _ (Mask.of hm rfl) | with_reducible apply Stays.ite)

theorem Stays.execPortLoss {m : Nat} {s x : State} (h : Stays m s x) (p0 : PortId) (_cause0 : LossCause) (hm : m &&& 0x1fd70fe = 0x1fd70fe) : Stays m s (taken x (Machine.execPortLoss p0 _cause0 x)) := by
  unfold taken Machine.execPortLoss
  dsimp only
  repeat' (first | with_reducible assumption | exact Mask.of hm rfl | with_reducible apply Stays.losePort | with_reducible refine Stays.when ?_ _ (fun t ht => ?_))

theorem Stays.execViralReceived {m : Nat} {s x : State} (h : Stays m s x) (p0 : PortId) (hm : m &&& 0x1fd70fe = 0x1fd70fe) : Stays m s (taken x (Machine.execViralReceived p0 x)) := by
  unfold taken Machine.execViralReceived
  dsimp only
  repeat' (first | with_reducible assumption | exact Mask.of hm rfl | with_reducible apply Stays.losePort | with_reducible refine Stays.updPortCore ?_ _ _ (fun _ => rfl) (Mask.of hm rfl) | with_reducible refine Stays.updPort ?_ _ _ (Mask.of hm rfl) | with_reducible refine Stays.when ?_ _ (fun t ht => ?_))

theorem Stays.execPerstAssert {m : Nat} {s x : State} (h : Stays m s x) (p0 : PortId) (hm : m &&& 0x1fd70fe = 0x1fd70fe) : Stays m s (taken x (Machine.execPerstAssert p0 x)) := by
  unfold taken Machine.execPerstAssert
  dsimp only
  repeat' (first | with_reducible assumption | exact Mask.of hm rfl | with_reducible apply Stays.losePort | with_reducible refine Stays.updPortCore ?_ _ _ (fun _ => rfl) (Mask.of hm rfl) | with_reducible refine Stays.updPort ?_ _ _ (Mask.of hm rfl) | with_reducible apply Stays.ite)

theorem Stays.execPerstDeassert {m : Nat} {s x : State} (h : Stays m s x) (p0 : PortId) (hm : m &&& 0x400002 = 0x400002) : Stays m s (taken x (Machine.execPerstDeassert p0 x)) := by
  unfold taken Machine.execPerstDeassert
  dsimp only
  repeat' (first | with_reducible assumption | exact Mask.of hm rfl | with_reducible refine Stays.updPortCore ?_ _ _ (fun _ => rfl) (Mask.of hm rfl) | with_reducible refine Stays.updPort ?_ _ _ (Mask.of hm rfl))

theorem Stays.execRefclkReturn {m : Nat} {s x : State} (h : Stays m s x) (p0 : PortId) (hm : m &&& 0x400002 = 0x400002) : Stays m s (taken x (Machine.execRefclkReturn p0 x)) := by
  unfold taken Machine.execRefclkReturn
  dsimp only
  repeat' (first | with_reducible assumption | exact Mask.of hm rfl | with_reducible refine Stays.updPortCore ?_ _ _ (fun _ => rfl) (Mask.of hm rfl) | with_reducible refine Stays.updPort ?_ _ _ (Mask.of hm rfl))

theorem Stays.execPortTrainingEnd {m : Nat} {s x : State} (h : Stays m s x) (p0 : PortId) (cxl0 : Bool) (speed0 : BitVec 4) (width0 : BitVec 4) (hm : m &&& 0x6d003e = 0x6d003e) : Stays m s (taken x (Machine.execPortTrainingEnd p0 cxl0 speed0 width0 x)) := by
  unfold taken Machine.execPortTrainingEnd
  dsimp only
  repeat' (first | with_reducible assumption | exact Mask.of hm rfl | with_reducible apply Stays.rep0 | with_reducible refine Stays.updPortCore ?_ _ _ (fun _ => rfl) (Mask.of hm rfl) | with_reducible refine Stays.updPort ?_ _ _ (Mask.of hm rfl) | with_reducible refine Stays.when ?_ _ (fun t ht => ?_) | with_reducible apply Stays.ite)

theorem Stays.execPortUp {m : Nat} {s x : State} (h : Stays m s x) (p0 : PortId) (hm : m &&& 0x1f0707e = 0x1f0707e) : Stays m s (taken x (Machine.execPortUp p0 x)) := by
  unfold taken Machine.execPortUp
  dsimp only
  repeat' (first | with_reducible assumption | exact Mask.of hm rfl | with_reducible apply Stays.hostReissue | with_reducible apply Stays.pathsChanged | with_reducible refine Stays.updPortCore ?_ _ _ (fun _ => rfl) (Mask.of hm rfl) | with_reducible refine Stays.updPort ?_ _ _ (Mask.of hm rfl) | with_reducible refine Stays.when ?_ _ (fun t ht => ?_))

theorem Stays.execConfigRequest {m : Nat} {s x : State} (h : Stays m s x) (r0 : ConfigRead) (hm : m &&& 0x600002 = 0x600002) : Stays m s (taken x (Machine.execConfigRequest r0 x)) := by
  unfold taken Machine.execConfigRequest
  dsimp only
  repeat' (first | with_reducible assumption | exact Mask.of hm rfl | with_reducible apply Stays.emit | with_reducible refine Stays.updPortCore ?_ _ _ (fun _ => rfl) (Mask.of hm rfl) | with_reducible refine Stays.updPort ?_ _ _ (Mask.of hm rfl) | with_reducible refine Stays.when ?_ _ (fun t ht => ?_) | with_reducible apply Stays.ite | split)

theorem Stays.doeAns {m : Nat} {s x : State} (h : Stays m s x) (p0 : PortId) (kind0 : Nat) (bytes0 : List Byte) (hm : m &&& 0x200000 = 0x200000) : Stays m s (State.doeAns x p0 kind0 bytes0) := by
  unfold State.doeAns
  repeat' (first | with_reducible assumption | exact Mask.of hm rfl | with_reducible apply Stays.emit)

theorem Stays.execDoeDiscovery {m : Nat} {s x : State} (h : Stays m s x) (p0 : PortId) (index0 : Byte) (hm : m &&& 0x200000 = 0x200000) : Stays m s (taken x (Machine.execDoeDiscovery p0 index0 x)) := by
  unfold taken Machine.execDoeDiscovery
  dsimp only
  repeat' (first | with_reducible assumption | exact Mask.of hm rfl | with_reducible apply Stays.doeAns | with_reducible refine Stays.when ?_ _ (fun t ht => ?_))

theorem Stays.execDoeUnsupportedObject {m : Nat} {s x : State} (h : Stays m s x) (p0 : PortId) (vendor0 : W16) (type0 : Byte) (hm : m &&& 0x200000 = 0x200000) : Stays m s (taken x (Machine.execDoeUnsupportedObject p0 vendor0 type0 x)) := by
  unfold taken Machine.execDoeUnsupportedObject
  dsimp only
  repeat' (first | with_reducible assumption | exact Mask.of hm rfl | with_reducible apply Stays.doeAns | with_reducible refine Stays.when ?_ _ (fun t ht => ?_))

theorem Stays.execCdatTableAccess {m : Nat} {s x : State} (h : Stays m s x) (p0 : PortId) (_entry0 : W16) (hm : m &&& 0x200000 = 0x200000) : Stays m s (taken x (Machine.execCdatTableAccess p0 _entry0 x)) := by
  unfold taken Machine.execCdatTableAccess
  dsimp only
  repeat' (first | with_reducible assumption | exact Mask.of hm rfl | with_reducible apply Stays.doeAns | with_reducible refine Stays.when ?_ _ (fun t ht => ?_))

theorem Stays.spdmErr {m : Nat} {s x : State} (h : Stays m s x) (p0 : PortId) (code0 : Nat) (hm : m &&& 0x200000 = 0x200000) : Stays m s (State.spdmErr x p0 code0) := by
  unfold State.spdmErr
  repeat' (first | with_reducible assumption | exact Mask.of hm rfl | with_reducible apply Stays.doeAns)

theorem Stays.spdmAns {m : Nat} {s x : State} (h : Stays m s x) (p0 : PortId) (kind0 : Nat) (hm : m &&& 0x300000 = 0x300000) : Stays m s (State.spdmAns x p0 kind0) := by
  unfold State.spdmAns
  repeat' (first | with_reducible assumption | exact Mask.of hm rfl | with_reducible apply Stays.doeAns)
  all_goals with_reducible refine Stays.build ?_ _ _ _ _ _ _ _ _ _ _ _ _ _ _ _ _ _ _ _ _ _ ?_ ?_ ?_ ?_ ?_ ?_ ?_ ?_ ?_ ?_ ?_ ?_ ?_ ?_ ?_ ?_ ?_ ?_ ?_ ?_ ?_ ?_ ?_ ?_ ?_ ?_ ?_
  all_goals (first | exact fun hw => hw | exact fun _ => rfl | exact fun _ => ⟨rfl, rfl⟩ | exact Mask.no hm (by decide) | skip)
  repeat' (first | with_reducible assumption | exact Mask.of hm rfl | with_reducible apply Stays.doeAns)

theorem Stays.spdm {m : Nat} {s x : State} (h : Stays m s x) (p0 : PortId) (need0 : Nat) (f0 : State → State) (hf : ∀ t, Stays m s t → Stays m s (f0 t)) (hm : m &&& 0x200000 = 0x200000) : Stays m s (State.spdm x p0 need0 f0) := by
  unfold State.spdm
  refine Stays.when h _ (fun t ht => ?_)
  repeat' (first | with_reducible assumption | exact Mask.of hm rfl | exact hf _ ht | with_reducible apply Stays.spdmErr | with_reducible apply Stays.ite)

theorem Stays.execGetVersion {m : Nat} {s x : State} (h : Stays m s x) (p0 : PortId) (hm : m &&& 0x700002 = 0x700002) : Stays m s (taken x (Machine.execGetVersion p0 x)) := by
  unfold taken Machine.execGetVersion
  dsimp only
  repeat' (first | with_reducible assumption | exact Mask.of hm rfl | with_reducible apply Stays.spdmAns | with_reducible refine Stays.spdm ?_ _ _ _ (fun t ht => ?_) ?_ | with_reducible refine Stays.updPortCore ?_ _ _ (fun _ => rfl) (Mask.of hm rfl) | with_reducible refine Stays.updPort ?_ _ _ (Mask.of hm rfl))

theorem Stays.execGetCapabilities {m : Nat} {s x : State} (h : Stays m s x) (p0 : PortId) (hm : m &&& 0x700002 = 0x700002) : Stays m s (taken x (Machine.execGetCapabilities p0 x)) := by
  unfold taken Machine.execGetCapabilities
  dsimp only
  repeat' (first | with_reducible assumption | exact Mask.of hm rfl | with_reducible apply Stays.spdmAns | with_reducible refine Stays.spdm ?_ _ _ _ (fun t ht => ?_) ?_ | with_reducible refine Stays.updPortCore ?_ _ _ (fun _ => rfl) (Mask.of hm rfl) | with_reducible refine Stays.updPort ?_ _ _ (Mask.of hm rfl))

theorem Stays.execNegotiateAlgorithms {m : Nat} {s x : State} (h : Stays m s x) (p0 : PortId) (hash0 : Bool) (asym0 : Bool) (dhe0 : Bool) (aead0 : Bool) (hm : m &&& 0x700002 = 0x700002) : Stays m s (taken x (Machine.execNegotiateAlgorithms p0 hash0 asym0 dhe0 aead0 x)) := by
  unfold taken Machine.execNegotiateAlgorithms
  dsimp only
  repeat' (first | with_reducible assumption | exact Mask.of hm rfl | with_reducible apply Stays.spdmErr | with_reducible apply Stays.spdmAns | with_reducible refine Stays.spdm ?_ _ _ _ (fun t ht => ?_) ?_ | with_reducible refine Stays.updPortCore ?_ _ _ (fun _ => rfl) (Mask.of hm rfl) | with_reducible refine Stays.updPort ?_ _ _ (Mask.of hm rfl) | with_reducible apply Stays.ite)

theorem Stays.execGetDigests {m : Nat} {s x : State} (h : Stays m s x) (p0 : PortId) (hm : m &&& 0x300000 = 0x300000) : Stays m s (taken x (Machine.execGetDigests p0 x)) := by
  unfold taken Machine.execGetDigests
  dsimp only
  repeat' (first | with_reducible assumption | exact Mask.of hm rfl | with_reducible apply Stays.spdmAns | with_reducible refine Stays.spdm ?_ _ _ _ (fun t ht => ?_) ?_)

theorem Stays.execGetCertificate {m : Nat} {s x : State} (h : Stays m s x) (p0 : PortId) (slot0 : BitVec 4) (off0 : W16) (len0 : W16) (hm : m &&& 0x200000 = 0x200000) : Stays m s (taken x (Machine.execGetCertificate p0 slot0 off0 len0 x)) := by
  unfold taken Machine.execGetCertificate
  dsimp only
  repeat' (first | with_reducible assumption | exact Mask.of hm rfl | with_reducible apply Stays.doeAns | with_reducible apply Stays.spdmErr | with_reducible refine Stays.spdm ?_ _ _ _ (fun t ht => ?_) ?_ | with_reducible apply Stays.ite)

theorem Stays.execChallenge {m : Nat} {s x : State} (h : Stays m s x) (p0 : PortId) (slot0 : BitVec 4) (_nonce0 : BitVec 256) (hm : m &&& 0x300000 = 0x300000) : Stays m s (taken x (Machine.execChallenge p0 slot0 _nonce0 x)) := by
  unfold taken Machine.execChallenge
  dsimp only
  repeat' (first | with_reducible assumption | exact Mask.of hm rfl | with_reducible apply Stays.spdmErr | with_reducible apply Stays.spdmAns | with_reducible refine Stays.spdm ?_ _ _ _ (fun t ht => ?_) ?_ | with_reducible apply Stays.ite)

theorem Stays.execGetMeasurements {m : Nat} {s x : State} (h : Stays m s x) (p0 : PortId) (index0 : Byte) (hm : m &&& 0x200000 = 0x200000) : Stays m s (taken x (Machine.execGetMeasurements p0 index0 x)) := by
  unfold taken Machine.execGetMeasurements
  dsimp only
  repeat' (first | with_reducible assumption | exact Mask.of hm rfl | with_reducible apply Stays.doeAns | with_reducible apply Stays.spdmErr | with_reducible refine Stays.spdm ?_ _ _ _ (fun t ht => ?_) ?_ | with_reducible apply Stays.ite)

theorem Stays.execKeyExchange {m : Nat} {s x : State} (h : Stays m s x) (p0 : PortId) (slot0 : BitVec 4) (_exchange0 : BitVec 768) (hm : m &&& 0x700002 = 0x700002) : Stays m s (taken x (Machine.execKeyExchange p0 slot0 _exchange0 x)) := by
  unfold taken Machine.execKeyExchange
  dsimp only
  repeat' (first | with_reducible assumption | exact Mask.of hm rfl | with_reducible apply Stays.spdmErr | with_reducible apply Stays.spdmAns | with_reducible refine Stays.spdm ?_ _ _ _ (fun t ht => ?_) ?_ | with_reducible refine Stays.updPortCore ?_ _ _ (fun _ => rfl) (Mask.of hm rfl) | with_reducible refine Stays.updPort ?_ _ _ (Mask.of hm rfl) | with_reducible apply Stays.ite)

theorem Stays.execFinish {m : Nat} {s x : State} (h : Stays m s x) (p0 : PortId) (session0 : W32) (verify0 : Bool) (hm : m &&& 0x700002 = 0x700002) : Stays m s (taken x (Machine.execFinish p0 session0 verify0 x)) := by
  unfold taken Machine.execFinish
  dsimp only
  repeat' (first | with_reducible assumption | exact Mask.of hm rfl | with_reducible apply Stays.spdmErr | with_reducible apply Stays.spdmAns | with_reducible refine Stays.spdm ?_ _ _ _ (fun t ht => ?_) ?_ | with_reducible refine Stays.updPortCore ?_ _ _ (fun _ => rfl) (Mask.of hm rfl) | with_reducible refine Stays.updPort ?_ _ _ (Mask.of hm rfl) | with_reducible apply Stays.ite)

theorem Stays.execHeartbeat {m : Nat} {s x : State} (h : Stays m s x) (p0 : PortId) (session0 : W32) (hm : m &&& 0x700002 = 0x700002) : Stays m s (taken x (Machine.execHeartbeat p0 session0 x)) := by
  unfold taken Machine.execHeartbeat
  dsimp only
  repeat' (first | with_reducible assumption | exact Mask.of hm rfl | with_reducible apply Stays.spdmErr | with_reducible apply Stays.spdmAns | with_reducible refine Stays.spdm ?_ _ _ _ (fun t ht => ?_) ?_ | with_reducible refine Stays.updPortCore ?_ _ _ (fun _ => rfl) (Mask.of hm rfl) | with_reducible refine Stays.updPort ?_ _ _ (Mask.of hm rfl) | with_reducible apply Stays.ite)

theorem Stays.execKeyUpdate {m : Nat} {s x : State} (h : Stays m s x) (p0 : PortId) (session0 : W32) (hm : m &&& 0x700002 = 0x700002) : Stays m s (taken x (Machine.execKeyUpdate p0 session0 x)) := by
  unfold taken Machine.execKeyUpdate
  dsimp only
  repeat' (first | with_reducible assumption | exact Mask.of hm rfl | with_reducible apply Stays.spdmErr | with_reducible apply Stays.spdmAns | with_reducible refine Stays.spdm ?_ _ _ _ (fun t ht => ?_) ?_ | with_reducible refine Stays.updPortCore ?_ _ _ (fun _ => rfl) (Mask.of hm rfl) | with_reducible refine Stays.updPort ?_ _ _ (Mask.of hm rfl) | with_reducible apply Stays.ite)

theorem Stays.execEndSession {m : Nat} {s x : State} (h : Stays m s x) (p0 : PortId) (session0 : W32) (hm : m &&& 0x700002 = 0x700002) : Stays m s (taken x (Machine.execEndSession p0 session0 x)) := by
  unfold taken Machine.execEndSession
  dsimp only
  repeat' (first | with_reducible assumption | exact Mask.of hm rfl | with_reducible apply Stays.spdmErr | with_reducible apply Stays.spdmAns | with_reducible refine Stays.spdm ?_ _ _ _ (fun t ht => ?_) ?_ | with_reducible refine Stays.updPortCore ?_ _ _ (fun _ => rfl) (Mask.of hm rfl) | with_reducible refine Stays.updPort ?_ _ _ (Mask.of hm rfl) | with_reducible apply Stays.ite)

theorem Stays.execIdeKeyManagement {m : Nat} {s x : State} (h : Stays m s x) (p0 : PortId) (session0 : W32) (stream0 : IdeStream) (sub0 : BitVec 4) (key0 : BitVec 256) (hm : m &&& 0x700002 = 0x700002) : Stays m s (taken x (Machine.execIdeKeyManagement p0 session0 stream0 sub0 key0 x)) := by
  unfold taken Machine.execIdeKeyManagement
  dsimp only
  repeat' (first | with_reducible assumption | exact Mask.of hm rfl | with_reducible apply Stays.spdmErr | with_reducible apply Stays.spdmAns | with_reducible refine Stays.spdm ?_ _ _ _ (fun t ht => ?_) ?_ | with_reducible refine Stays.updPortCore ?_ _ _ (fun _ => rfl) (Mask.of hm rfl) | with_reducible refine Stays.updPort ?_ _ _ (Mask.of hm rfl) | with_reducible apply Stays.ite | split)

/-! ## Fetch -/

theorem Stays.readSq {m : Nat} {s x : State} (h : Stays m s x) (f0 : Nat) (q0 : Nat) (hm : m &&& 0x200000 = 0x200000) : Stays m s (State.readSq x f0 q0) := by
  unfold State.readSq
  dsimp only
  repeat' (first | with_reducible assumption | exact Mask.of hm rfl | with_reducible apply Stays.emit)

theorem Stays.fetch {m : Nat} {s x : State} (h : Stays m s x) (f0 : Nat) (q0 : Nat) (pkt0 : Sector) (poison0 : Bool) (hm : m &&& 0x100004 = 0x100004) : Stays m s (State.fetch x f0 q0 pkt0 poison0) := by
  unfold State.fetch
  dsimp only
  repeat' (first | with_reducible assumption | exact Mask.of hm rfl | with_reducible apply Stays.addDue | with_reducible apply Stays.setQm | with_reducible apply Stays.updFn | with_reducible apply Stays.updQueue | with_reducible apply Stays.ite | split)
  all_goals with_reducible refine Stays.build ?_ _ _ _ _ _ _ _ _ _ _ _ _ _ _ _ _ _ _ _ _ _ ?_ ?_ ?_ ?_ ?_ ?_ ?_ ?_ ?_ ?_ ?_ ?_ ?_ ?_ ?_ ?_ ?_ ?_ ?_ ?_ ?_ ?_ ?_ ?_ ?_ ?_ ?_
  all_goals (first | exact fun hw => hw | exact fun _ => rfl | exact fun _ => ⟨rfl, rfl⟩ | exact Mask.no hm (by decide) | skip)
  repeat' (first | with_reducible assumption | exact Mask.of hm rfl | with_reducible apply Stays.addDue | with_reducible apply Stays.setQm | with_reducible apply Stays.updFn | with_reducible apply Stays.updQueue)

theorem Stays.execCommandFetch {m : Nat} {s x : State} (h : Stays m s x) (pkt0 : Sector) (poison0 : Bool) (hm : m &&& 0x300004 = 0x300004) : Stays m s (taken x (Machine.execCommandFetch pkt0 poison0 x)) := by
  unfold taken Machine.execCommandFetch
  dsimp only
  repeat' (first | with_reducible assumption | exact Mask.of hm rfl | with_reducible apply Stays.readSq | with_reducible apply Stays.fetch | with_reducible refine Stays.when ?_ _ (fun t ht => ?_) | split)

theorem Stays.refuse {m : Nat} {s x : State} (h : Stays m s x) (c0 : Cmd) (st0 : Nat) (r00 : Nat) (hm : m &&& 0x4 = 0x4) : Stays m s (State.refuse x c0 st0 r00) := by
  unfold State.refuse
  repeat' (first | with_reducible assumption | exact Mask.of hm rfl | with_reducible apply Stays.finish)

theorem Stays.runCmd {m : Nat} {s x : State} (h : Stays m s x) (h0 : Nat) (op0 : Nat) (f0 : State → Cmd → State) (hf : ∀ t c, Stays m s t → Stays m s (f0 t c)) (hm : m &&& 0x4 = 0x4) : Stays m s (State.runCmd x h0 op0 f0) := by
  unfold State.runCmd
  refine Stays.when h _ (fun t ht => ?_)
  split
  · exact ht
  · exact Stays.ite (Stays.refuse ht _ _ _ (Mask.of hm rfl)) (hf _ _ ht)

theorem Stays.runAdmin {m : Nat} {s x : State} (h : Stays m s x) (h0 : Nat) (op0 : Nat) (f0 : State → Cmd → State) (hf : ∀ t c, Stays m s t → Stays m s (f0 t c)) (hm : m &&& 0x4 = 0x4) : Stays m s (State.runAdmin x h0 op0 f0) := by
  exact Stays.when h _ (fun t ht => Stays.runCmd ht _ _ _ hf (Mask.of hm rfl))

theorem Stays.checkedRun {m : Nat} {s x : State} (h : Stays m s x) (c0 : Cmd) (l0 : List Chk) (f0 : State → State) (hf : ∀ t, Stays m s t → Stays m s (f0 t)) (hm : m &&& 0x4 = 0x4) : Stays m s (State.checkedRun x c0 l0 f0) := by
  unfold State.checkedRun
  split
  · exact Stays.refuse h _ _ _ (Mask.of hm rfl)
  · exact hf _ h

theorem Stays.stage {m : Nat} {s x : State} (h : Stays m s x) (c0 : Cmd) (g0 : CmdStage) (hm : m &&& 0x4 = 0x4) : Stays m s (State.stage x c0 g0) := by
  unfold State.stage
  repeat' (first | with_reducible assumption | exact Mask.of hm rfl | with_reducible apply Stays.putCmd)

theorem Stays.okay {m : Nat} {s x : State} (h : Stays m s x) (c0 : Cmd) (r00 : Nat) (r10 : Nat) (hm : m &&& 0x4 = 0x4) : Stays m s (State.okay x c0 r00 r10) := by
  unfold State.okay
  repeat' (first | with_reducible assumption | exact Mask.of hm rfl | with_reducible apply Stays.finish)

theorem Stays.tune {m : Nat} {s x : State} (h : Stays m s x) (c0 : Cmd) (hm : m &&& 0x4 = 0x4) : Stays m s (State.tune x c0).1 := by
  unfold State.tune
  dsimp only
  repeat' (first | with_reducible assumption | exact Mask.of hm rfl | with_reducible apply Stays.clampFn | with_reducible apply Stays.ite | split)

theorem Stays.transaction {m : Nat} {s x : State} (h : Stays m s x) (c0 : Cmd) (hm : m &&& 0x4 = 0x4) : Stays m s (State.transaction x c0) := by
  unfold State.transaction
  dsimp only
  repeat' (first | with_reducible assumption | exact Mask.of hm rfl | with_reducible apply Stays.putCmd | with_reducible refine Stays.checkedRun ?_ _ _ _ (fun t ht => ?_) ?_ | with_reducible apply Stays.tune)

theorem Stays.execWrite {m : Nat} {s x : State} (h : Stays m s x) (h0 : Nat) (hm : m &&& 0x4 = 0x4) : Stays m s (taken x (Machine.execWrite h0 x)) := by
  unfold taken Machine.execWrite
  dsimp only
  repeat' (first | with_reducible assumption | exact Mask.of hm rfl | with_reducible refine Stays.runCmd ?_ _ _ _ (fun t c ht => ?_) ?_ | with_reducible apply Stays.transaction)

theorem Stays.execRead {m : Nat} {s x : State} (h : Stays m s x) (h0 : Nat) (hm : m &&& 0x4 = 0x4) : Stays m s (taken x (Machine.execRead h0 x)) := by
  unfold taken Machine.execRead
  dsimp only
  repeat' (first | with_reducible assumption | exact Mask.of hm rfl | with_reducible refine Stays.runCmd ?_ _ _ _ (fun t c ht => ?_) ?_ | with_reducible apply Stays.transaction)

theorem Stays.execMirrorWrite {m : Nat} {s x : State} (h : Stays m s x) (h0 : Nat) (hm : m &&& 0x4 = 0x4) : Stays m s (taken x (Machine.execMirrorWrite h0 x)) := by
  unfold taken Machine.execMirrorWrite
  dsimp only
  repeat' (first | with_reducible assumption | exact Mask.of hm rfl | with_reducible refine Stays.runCmd ?_ _ _ _ (fun t c ht => ?_) ?_ | with_reducible apply Stays.transaction)

theorem Stays.execSend {m : Nat} {s x : State} (h : Stays m s x) (h0 : Nat) (hm : m &&& 0x4 = 0x4) : Stays m s (taken x (Machine.execSend h0 x)) := by
  unfold taken Machine.execSend
  dsimp only
  repeat' (first | with_reducible assumption | exact Mask.of hm rfl | with_reducible refine Stays.runCmd ?_ _ _ _ (fun t c ht => ?_) ?_ | with_reducible apply Stays.transaction)

theorem Stays.execExchange {m : Nat} {s x : State} (h : Stays m s x) (h0 : Nat) (hm : m &&& 0x4 = 0x4) : Stays m s (taken x (Machine.execExchange h0 x)) := by
  unfold taken Machine.execExchange
  dsimp only
  repeat' (first | with_reducible assumption | exact Mask.of hm rfl | with_reducible refine Stays.runCmd ?_ _ _ _ (fun t c ht => ?_) ?_ | with_reducible apply Stays.transaction)

theorem Stays.execRun {m : Nat} {s x : State} (h : Stays m s x) (h0 : Nat) (hm : m &&& 0x4 = 0x4) : Stays m s (taken x (Machine.execRun h0 x)) := by
  unfold taken Machine.execRun
  dsimp only
  repeat' (first | with_reducible assumption | exact Mask.of hm rfl | with_reducible refine Stays.runCmd ?_ _ _ _ (fun t c ht => ?_) ?_ | with_reducible apply Stays.transaction)

theorem Stays.allocate {m : Nat} {s x : State} (h : Stays m s x) (c0 : Cmd) (i0 : Nat) (hm : m &&& 0x80202c = 0x80202c) : Stays m s (State.allocate x c0 i0) := by
  unfold State.allocate
  dsimp only
  repeat' (first | with_reducible assumption | exact Mask.of hm rfl | with_reducible apply Stays.takeIndex | with_reducible apply Stays.drawIv | with_reducible apply Stays.stage | with_reducible apply Stays.setEntry | with_reducible apply Stays.setQm | with_reducible refine Stays.setTlyIn ?_ _ (fun _ => ⟨rfl, rfl⟩) (Mask.of hm rfl) | with_reducible refine Stays.setTly ?_ _ (Mask.of hm rfl) | with_reducible apply Stays.updFlow | with_reducible apply Stays.updQueue | with_reducible refine Stays.foldl (fun t a ht => ?_) ?_ | with_reducible apply Stays.ite | split)

theorem Stays.execEntryAllocate {m : Nat} {s x : State} (h : Stays m s x) (h0 : Nat) (hm : m &&& 0x80202c = 0x80202c) : Stays m s (taken x (Machine.execEntryAllocate h0 x)) := by
  unfold taken Machine.execEntryAllocate
  dsimp only
  repeat' (first | with_reducible assumption | exact Mask.of hm rfl | with_reducible apply Stays.refuse | with_reducible apply Stays.stage | with_reducible apply Stays.allocate | with_reducible refine Stays.when ?_ _ (fun t ht => ?_) | with_reducible apply Stays.ite | split)

theorem Stays.abortAt {m : Nat} {s x : State} (h : Stays m s x) (c0 : Cmd) (i0 : Nat) (hm : m &&& 0x180007c = 0x180007c) : Stays m s (State.abortAt x c0 i0) := by
  unfold State.abortAt
  dsimp only
  repeat' (first | with_reducible assumption | exact Mask.of hm rfl | with_reducible apply Stays.putCmd | with_reducible apply Stays.finish | with_reducible apply Stays.abortEntry | with_reducible apply Stays.ite | split)

theorem Stays.execAbort {m : Nat} {s x : State} (h : Stays m s x) (h0 : Nat) (hm : m &&& 0x180007c = 0x180007c) : Stays m s (taken x (Machine.execAbort h0 x)) := by
  unfold taken Machine.execAbort
  dsimp only
  repeat' (first | with_reducible assumption | exact Mask.of hm rfl | with_reducible apply Stays.refuse | with_reducible refine Stays.runCmd ?_ _ _ _ (fun t c ht => ?_) ?_ | with_reducible apply Stays.abortAt | split)

theorem Stays.resumeAt {m : Nat} {s x : State} (h : Stays m s x) (c0 : Cmd) (i0 : Nat) (hm : m &&& 0x800028 = 0x800028) : Stays m s (State.resumeAt x c0 i0) := by
  unfold State.resumeAt
  dsimp only
  repeat' (first | with_reducible assumption | exact Mask.of hm rfl | with_reducible apply Stays.setEntry | with_reducible apply Stays.updFlow | with_reducible refine Stays.foldl (fun t a ht => ?_) ?_)

theorem Stays.execResume {m : Nat} {s x : State} (h : Stays m s x) (h0 : Nat) (hm : m &&& 0x80002c = 0x80002c) : Stays m s (taken x (Machine.execResume h0 x)) := by
  unfold taken Machine.execResume
  dsimp only
  repeat' (first | with_reducible assumption | exact Mask.of hm rfl | with_reducible apply Stays.finish | with_reducible apply Stays.refuse | with_reducible refine Stays.runCmd ?_ _ _ _ (fun t c ht => ?_) ?_ | with_reducible refine Stays.checkedRun ?_ _ _ _ (fun t ht => ?_) ?_ | with_reducible apply Stays.resumeAt | with_reducible apply Stays.ite)

theorem Stays.execQuery {m : Nat} {s x : State} (h : Stays m s x) (h0 : Nat) (hm : m &&& 0x4 = 0x4) : Stays m s (taken x (Machine.execQuery h0 x)) := by
  unfold taken Machine.execQuery
  dsimp only
  repeat' (first | with_reducible assumption | exact Mask.of hm rfl | with_reducible apply Stays.finish | with_reducible apply Stays.refuse | with_reducible refine Stays.runCmd ?_ _ _ _ (fun t c ht => ?_) ?_ | with_reducible apply Stays.ite)

/-! ## Services -/

theorem Stays.galCommand {m : Nat} {s x : State} (h : Stays m s x) (c0 : Cmd) (hm : m &&& 0x4004 = 0x4004) : Stays m s (State.galCommand x c0) := by
  unfold State.galCommand
  repeat' (first | with_reducible assumption | exact Mask.of hm rfl | with_reducible apply Stays.toCoder | with_reducible apply Stays.refuse | with_reducible refine Stays.checkedRun ?_ _ _ _ (fun t ht => ?_) ?_ | with_reducible apply Stays.stage | with_reducible apply Stays.ite | split)

theorem Stays.execCompress {m : Nat} {s x : State} (h : Stays m s x) (h0 : Nat) (hm : m &&& 0x4004 = 0x4004) : Stays m s (taken x (Machine.execCompress h0 x)) := by
  unfold taken Machine.execCompress
  dsimp only
  repeat' (first | with_reducible assumption | exact Mask.of hm rfl | with_reducible refine Stays.runCmd ?_ _ _ _ (fun t c ht => ?_) ?_ | with_reducible apply Stays.galCommand)

theorem Stays.execExpand {m : Nat} {s x : State} (h : Stays m s x) (h0 : Nat) (hm : m &&& 0x4004 = 0x4004) : Stays m s (taken x (Machine.execExpand h0 x)) := by
  unfold taken Machine.execExpand
  dsimp only
  repeat' (first | with_reducible assumption | exact Mask.of hm rfl | with_reducible refine Stays.runCmd ?_ _ _ _ (fun t c ht => ?_) ?_ | with_reducible apply Stays.galCommand)

theorem Stays.cphCommand {m : Nat} {s x : State} (h : Stays m s x) (c0 : Cmd) (hm : m &&& 0x2004 = 0x2004) : Stays m s (State.cphCommand x c0) := by
  unfold State.cphCommand
  dsimp only
  repeat' (first | with_reducible assumption | exact Mask.of hm rfl | with_reducible apply Stays.drawIv | with_reducible apply Stays.toGrp | with_reducible apply Stays.refuse | with_reducible refine Stays.checkedRun ?_ _ _ _ (fun t ht => ?_) ?_ | with_reducible apply Stays.stage | with_reducible apply Stays.ite | split)

theorem Stays.execSeal {m : Nat} {s x : State} (h : Stays m s x) (h0 : Nat) (hm : m &&& 0x2004 = 0x2004) : Stays m s (taken x (Machine.execSeal h0 x)) := by
  unfold taken Machine.execSeal
  dsimp only
  repeat' (first | with_reducible assumption | exact Mask.of hm rfl | with_reducible refine Stays.runCmd ?_ _ _ _ (fun t c ht => ?_) ?_ | with_reducible apply Stays.cphCommand)

theorem Stays.execUnseal {m : Nat} {s x : State} (h : Stays m s x) (h0 : Nat) (hm : m &&& 0x2004 = 0x2004) : Stays m s (taken x (Machine.execUnseal h0 x)) := by
  unfold taken Machine.execUnseal
  dsimp only
  repeat' (first | with_reducible assumption | exact Mask.of hm rfl | with_reducible refine Stays.runCmd ?_ _ _ _ (fun t c ht => ?_) ?_ | with_reducible apply Stays.cphCommand)

theorem Stays.loadSlot {m : Nat} {s x : State} (h : Stays m s x) (i0 : Nat) (mode0 : Nat) (r0 : List Byte) (hm : m &&& 0x12000 = 0x12000) : Stays m s (State.loadSlot x i0 mode0 r0) := by
  unfold State.loadSlot
  dsimp only
  repeat' (first | with_reducible assumption | exact Mask.of hm rfl | with_reducible apply Stays.fire | with_reducible apply Stays.setSlot | with_reducible apply Stays.ite)

theorem Stays.execKeyLoad {m : Nat} {s x : State} (h : Stays m s x) (h0 : Nat) (host0 : HostIn) (hm : m &&& 0x2d3ffe = 0x2d3ffe) : Stays m s (taken x (Machine.execKeyLoad h0 host0 x)) := by
  unfold taken Machine.execKeyLoad
  dsimp only
  repeat' (first | with_reducible assumption | exact Mask.of hm rfl | with_reducible apply Stays.unitFetch | with_reducible apply Stays.refuse | with_reducible refine Stays.runCmd ?_ _ _ _ (fun t c ht => ?_) ?_ | with_reducible refine Stays.checkedRun ?_ _ _ _ (fun t ht => ?_) ?_ | with_reducible apply Stays.okay | with_reducible apply Stays.loadSlot | with_reducible apply Stays.ite | split)

theorem Stays.execKeyErase {m : Nat} {s x : State} (h : Stays m s x) (h0 : Nat) (hm : m &&& 0x102004 = 0x102004) : Stays m s (taken x (Machine.execKeyErase h0 x)) := by
  unfold taken Machine.execKeyErase
  dsimp only
  repeat' (first | with_reducible assumption | exact Mask.of hm rfl | with_reducible apply Stays.eraseSlot | with_reducible refine Stays.runCmd ?_ _ _ _ (fun t c ht => ?_) ?_ | with_reducible refine Stays.checkedRun ?_ _ _ _ (fun t ht => ?_) ?_ | with_reducible apply Stays.stage | with_reducible apply Stays.okay | with_reducible apply Stays.ite)

/-! ## Admin -/

theorem Stays.cfgChanged {m : Nat} {s x : State} (h : Stays m s x) (hm : m &&& 0x20000 = 0x20000) : Stays m s (State.cfgChanged x) := by
  unfold State.cfgChanged
  repeat' (first | with_reducible assumption | exact Mask.of hm rfl | with_reducible apply Stays.setMp)

theorem Stays.execIdentify {m : Nat} {s x : State} (h : Stays m s x) (h0 : Nat) (hm : m &&& 0x4 = 0x4) : Stays m s (taken x (Machine.execIdentify h0 x)) := by
  unfold taken Machine.execIdentify
  dsimp only
  repeat' (first | with_reducible assumption | exact Mask.of hm rfl | with_reducible refine Stays.runAdmin ?_ _ _ _ (fun t c ht => ?_) ?_ | with_reducible refine Stays.checkedRun ?_ _ _ _ (fun t ht => ?_) ?_ | with_reducible apply Stays.okay | with_reducible apply Stays.ite)

theorem Stays.execGetLog {m : Nat} {s x : State} (h : Stays m s x) (h0 : Nat) (hm : m &&& 0x2d1ffe = 0x2d1ffe) : Stays m s (taken x (Machine.execGetLog h0 x)) := by
  unfold taken Machine.execGetLog
  dsimp only
  repeat' (first | with_reducible assumption | exact Mask.of hm rfl | with_reducible apply Stays.unitStore | with_reducible refine Stays.runAdmin ?_ _ _ _ (fun t c ht => ?_) ?_ | with_reducible refine Stays.checkedRun ?_ _ _ _ (fun t ht => ?_) ?_ | with_reducible apply Stays.okay)

theorem Stays.setQuotaRegs {m : Nat} {s x : State} (h : Stays m s x) (f0 : Nat) (limit0 : Nat) (qp0 : Nat) (hm : m &&& 0x220006 = 0x220006) : Stays m s (State.setQuotaRegs x f0 limit0 qp0) := by
  unfold State.setQuotaRegs
  dsimp only
  repeat' (first | with_reducible assumption | exact Mask.of hm rfl | with_reducible apply Stays.setEvent | with_reducible apply Stays.cfgChanged | with_reducible apply Stays.updFn | with_reducible apply Stays.ite)

theorem Stays.execSetQuota {m : Nat} {s x : State} (h : Stays m s x) (h0 : Nat) (hm : m &&& 0x220006 = 0x220006) : Stays m s (taken x (Machine.execSetQuota h0 x)) := by
  unfold taken Machine.execSetQuota
  dsimp only
  repeat' (first | with_reducible assumption | exact Mask.of hm rfl | with_reducible apply Stays.clampFn | with_reducible refine Stays.runAdmin ?_ _ _ _ (fun t c ht => ?_) ?_ | with_reducible refine Stays.checkedRun ?_ _ _ _ (fun t ht => ?_) ?_ | with_reducible apply Stays.okay | with_reducible apply Stays.setQuotaRegs)

theorem Stays.setExpertReg {m : Nat} {s x : State} (h : Stays m s x) (f0 : Nat) (v0 : Bool) (hm : m &&& 0x220006 = 0x220006) : Stays m s (State.setExpertReg x f0 v0) := by
  unfold State.setExpertReg
  repeat' (first | with_reducible assumption | exact Mask.of hm rfl | with_reducible apply Stays.setEvent | with_reducible apply Stays.cfgChanged | with_reducible apply Stays.updFn | with_reducible apply Stays.ite)

theorem Stays.execSetExpert {m : Nat} {s x : State} (h : Stays m s x) (h0 : Nat) (hm : m &&& 0x220006 = 0x220006) : Stays m s (taken x (Machine.execSetExpert h0 x)) := by
  unfold taken Machine.execSetExpert
  dsimp only
  repeat' (first | with_reducible assumption | exact Mask.of hm rfl | with_reducible refine Stays.runAdmin ?_ _ _ _ (fun t c ht => ?_) ?_ | with_reducible refine Stays.checkedRun ?_ _ _ _ (fun t ht => ?_) ?_ | with_reducible apply Stays.okay | with_reducible apply Stays.setExpertReg)

theorem Stays.dropWords {m : Nat} {s x : State} (h : Stays m s x) (x0 : Img) (hm : m &&& 0x40 = 0x40) : Stays m s (State.dropWords x x0) := by
  unfold State.dropWords
  repeat' (first | with_reducible assumption | exact Mask.of hm rfl | with_reducible apply Stays.setEng)

theorem Stays.emptyHandles {m : Nat} {s x : State} (h : Stays m s x) (l0 : List Nat) (hm : m &&& 0x1020050 = 0x1020050) : Stays m s (State.emptyHandles x l0) := by
  unfold State.emptyHandles
  dsimp only
  repeat' (first | with_reducible assumption | exact Mask.of hm rfl | with_reducible apply Stays.dropWords | with_reducible refine Stays.setDeckBlaze ?_ _ (fun _ => rfl) (Mask.of hm rfl) | with_reducible refine Stays.setDeckLc ?_ _ (fun _ => ⟨rfl, rfl⟩) (Mask.of hm rfl) | with_reducible refine Stays.setDeck ?_ _ (fun d hd => ?_) (Mask.of hm rfl) | with_reducible apply Stays.setMp | with_reducible refine Stays.foldl (fun t a ht => ?_) ?_ | split)

theorem Stays.imageLoad {m : Nat} {s x : State} (h : Stays m s x) (c0 : Cmd) (host0 : HostIn) (hm : m &&& 0x12f1ffe = 0x12f1ffe) : Stays m s (State.imageLoad x c0 host0) := by
  unfold State.imageLoad
  dsimp only
  repeat' (first | with_reducible assumption | exact Mask.of hm rfl | with_reducible apply Stays.unitFetch | with_reducible apply Stays.refuse | with_reducible refine Stays.checkedRun ?_ _ _ _ (fun t ht => ?_) ?_ | with_reducible apply Stays.stage | with_reducible apply Stays.cfgChanged | with_reducible apply Stays.emptyHandles | with_reducible apply Stays.load | with_reducible apply Stays.setMp | with_reducible apply Stays.ite | split)

theorem Stays.execImageLoad {m : Nat} {s x : State} (h : Stays m s x) (h0 : Nat) (host0 : HostIn) (hm : m &&& 0x12f1ffe = 0x12f1ffe) : Stays m s (taken x (Machine.execImageLoad h0 host0 x)) := by
  unfold taken Machine.execImageLoad
  dsimp only
  repeat' (first | with_reducible assumption | exact Mask.of hm rfl | with_reducible refine Stays.runAdmin ?_ _ _ _ (fun t c ht => ?_) ?_ | with_reducible apply Stays.imageLoad | with_reducible apply Stays.load | with_reducible apply Stays.ite)

theorem Stays.putWords {m : Nat} {s x : State} (h : Stays m s x) (x0 : Img) (hm : m &&& 0x40 = 0x40) : Stays m s (State.putWords x x0) := by
  unfold State.putWords
  dsimp only
  repeat' (first | with_reducible assumption | exact Mask.of hm rfl | with_reducible apply Stays.setEng)

theorem Stays.loadUndo {m : Nat} {s x : State} (h : Stays m s x) (hm : m &&& 0x1020050 = 0x1020050) : Stays m s (State.loadUndo x) := by
  unfold State.loadUndo
  dsimp only
  repeat' (first | with_reducible assumption | exact Mask.of hm rfl | with_reducible apply Stays.putWords | with_reducible refine Stays.setDeckBlaze ?_ _ (fun _ => rfl) (Mask.of hm rfl) | with_reducible refine Stays.setDeckLc ?_ _ (fun _ => ⟨rfl, rfl⟩) (Mask.of hm rfl) | with_reducible refine Stays.setDeck ?_ _ (fun d hd => ?_) (Mask.of hm rfl) | with_reducible apply Stays.setMp | with_reducible refine Stays.foldl (fun t a ht => ?_) ?_)

theorem Stays.extend {m : Nat} {s x : State} (h : Stays m s x) (i0 : Nat) (data0 : List Byte) (hm : m &&& 0x8000 = 0x8000) : Stays m s (State.extend x i0 data0) := by
  unfold State.extend
  dsimp only
  repeat' (first | with_reducible assumption | exact Mask.of hm rfl | with_reducible apply Stays.setTru)

theorem Stays.execImageLoadComplete {m : Nat} {s x : State} (h : Stays m s x) (hm : m &&& 0x1028054 = 0x1028054) : Stays m s (taken x (Machine.execImageLoadComplete x)) := by
  unfold taken Machine.execImageLoadComplete
  dsimp only
  repeat' (first | with_reducible assumption | exact Mask.of hm rfl | with_reducible apply Stays.finishH | with_reducible apply Stays.putWords | with_reducible apply Stays.extend | with_reducible apply Stays.load | with_reducible refine Stays.setDeckBlaze ?_ _ (fun _ => rfl) (Mask.of hm rfl) | with_reducible refine Stays.setDeckLc ?_ _ (fun _ => ⟨rfl, rfl⟩) (Mask.of hm rfl) | with_reducible refine Stays.setDeck ?_ _ (fun d hd => ?_) (Mask.of hm rfl) | with_reducible apply Stays.setMp | with_reducible refine Stays.when ?_ _ (fun t ht => ?_) | with_reducible apply Stays.ite | split)

theorem Stays.execImageBind {m : Nat} {s x : State} (h : Stays m s x) (h0 : Nat) (hm : m &&& 0x20004 = 0x20004) : Stays m s (taken x (Machine.execImageBind h0 x)) := by
  unfold taken Machine.execImageBind
  dsimp only
  repeat' (first | with_reducible assumption | exact Mask.of hm rfl | with_reducible refine Stays.runAdmin ?_ _ _ _ (fun t c ht => ?_) ?_ | with_reducible refine Stays.checkedRun ?_ _ _ _ (fun t ht => ?_) ?_ | with_reducible apply Stays.okay | with_reducible apply Stays.cfgChanged | with_reducible apply Stays.setMp)

theorem Stays.execImageInfo {m : Nat} {s x : State} (h : Stays m s x) (h0 : Nat) (hm : m &&& 0x4 = 0x4) : Stays m s (taken x (Machine.execImageInfo h0 x)) := by
  unfold taken Machine.execImageInfo
  dsimp only
  repeat' (first | with_reducible assumption | exact Mask.of hm rfl | with_reducible apply Stays.refuse | with_reducible refine Stays.runAdmin ?_ _ _ _ (fun t c ht => ?_) ?_ | with_reducible apply Stays.okay | with_reducible apply Stays.ite | split)

theorem Stays.execPowerStatus {m : Nat} {s x : State} (h : Stays m s x) (h0 : Nat) (hm : m &&& 0x4 = 0x4) : Stays m s (taken x (Machine.execPowerStatus h0 x)) := by
  unfold taken Machine.execPowerStatus
  dsimp only
  repeat' (first | with_reducible assumption | exact Mask.of hm rfl | with_reducible refine Stays.runAdmin ?_ _ _ _ (fun t c ht => ?_) ?_ | with_reducible apply Stays.okay)

theorem Stays.execSetEnvelope {m : Nat} {s x : State} (h : Stays m s x) (h0 : Nat) (hm : m &&& 0x60004 = 0x60004) : Stays m s (taken x (Machine.execSetEnvelope h0 x)) := by
  unfold taken Machine.execSetEnvelope
  dsimp only
  repeat' (first | with_reducible assumption | exact Mask.of hm rfl | with_reducible apply Stays.clampFn | with_reducible refine Stays.runAdmin ?_ _ _ _ (fun t c ht => ?_) ?_ | with_reducible apply Stays.okay | with_reducible apply Stays.cfgChanged | with_reducible apply Stays.setPwr)

theorem Stays.abandonBankTest {m : Nat} {s x : State} (h : Stays m s x) (c0 : Nat) (b0 : Nat) (hm : m &&& 0x40780 = 0x40780) : Stays m s (State.abandonBankTest x c0 b0) := by
  unfold State.abandonBankTest
  dsimp only
  repeat' (first | with_reducible assumption | exact Mask.of hm rfl | with_reducible apply Stays.releaseGrant | with_reducible apply Stays.zeroBank | with_reducible apply Stays.updMem | with_reducible apply Stays.ite | split)

theorem Stays.bankRequest {m : Nat} {s x : State} (h : Stays m s x) (c0 : Cmd) (k0 : Nat) (b0 : Nat) (v0 : Nat) (hm : m &&& 0x40784 = 0x40784) : Stays m s (State.bankRequest x c0 k0 b0 v0) := by
  unfold State.bankRequest
  repeat' (first | with_reducible assumption | exact Mask.of hm rfl | with_reducible apply Stays.memTake | with_reducible apply Stays.stage | with_reducible apply Stays.abandonBankTest | with_reducible apply Stays.updMem)

theorem Stays.execBankState {m : Nat} {s x : State} (h : Stays m s x) (h0 : Nat) (hm : m &&& 0x2d07be = 0x2d07be) : Stays m s (taken x (Machine.execBankState h0 x)) := by
  unfold taken Machine.execBankState
  dsimp only
  repeat' (first | with_reducible assumption | exact Mask.of hm rfl | with_reducible apply Stays.refuse377 | with_reducible apply Stays.refuse | with_reducible refine Stays.runAdmin ?_ _ _ _ (fun t c ht => ?_) ?_ | with_reducible refine Stays.checkedRun ?_ _ _ _ (fun t ht => ?_) ?_ | with_reducible apply Stays.bankRequest | with_reducible apply Stays.ite)

theorem Stays.execFaultRead {m : Nat} {s x : State} (h : Stays m s x) (h0 : Nat) (hm : m &&& 0x2d1ffe = 0x2d1ffe) : Stays m s (taken x (Machine.execFaultRead h0 x)) := by
  unfold taken Machine.execFaultRead
  dsimp only
  repeat' (first | with_reducible assumption | exact Mask.of hm rfl | with_reducible apply Stays.unitStore | with_reducible refine Stays.runAdmin ?_ _ _ _ (fun t c ht => ?_) ?_ | with_reducible refine Stays.checkedRun ?_ _ _ _ (fun t ht => ?_) ?_ | with_reducible apply Stays.okay | with_reducible apply Stays.ite | split)

theorem Stays.setExit {m : Nat} {s x : State} (h : Stays m s x) (k0 : Nat) (hold0 : Bool) (q0 : Nat) (hm : m &&& 0x30000 = 0x30000) : Stays m s (State.setExit x k0 hold0 q0) := by
  unfold State.setExit
  repeat' (first | with_reducible assumption | exact Mask.of hm rfl | with_reducible apply Stays.cfgChanged | with_reducible apply Stays.setFlt)

theorem Stays.execFaultMode {m : Nat} {s x : State} (h : Stays m s x) (h0 : Nat) (hm : m &&& 0x30004 = 0x30004) : Stays m s (taken x (Machine.execFaultMode h0 x)) := by
  unfold taken Machine.execFaultMode
  dsimp only
  repeat' (first | with_reducible assumption | exact Mask.of hm rfl | with_reducible apply Stays.clampFn | with_reducible refine Stays.runAdmin ?_ _ _ _ (fun t c ht => ?_) ?_ | with_reducible refine Stays.checkedRun ?_ _ _ _ (fun t ht => ?_) ?_ | with_reducible apply Stays.okay | with_reducible apply Stays.setExit)

theorem Stays.arm {m : Nat} {s x : State} (h : Stays m s x) (u0 : Nat) (m0 : Nat) (h0 : Option Nat) (hm : m &&& 0x10000 = 0x10000) : Stays m s (State.arm x u0 m0 h0) := by
  unfold State.arm
  repeat' (first | with_reducible assumption | exact Mask.of hm rfl | with_reducible apply Stays.setFlt)

theorem Stays.execInject {m : Nat} {s x : State} (h : Stays m s x) (h0 : Nat) (hm : m &&& 0x2d003e = 0x2d003e) : Stays m s (taken x (Machine.execInject h0 x)) := by
  unfold taken Machine.execInject
  dsimp only
  repeat' (first | with_reducible assumption | exact Mask.of hm rfl | with_reducible apply Stays.refuse377 | with_reducible apply Stays.refuse | with_reducible refine Stays.runAdmin ?_ _ _ _ (fun t c ht => ?_) ?_ | with_reducible refine Stays.checkedRun ?_ _ _ _ (fun t ht => ?_) ?_ | with_reducible apply Stays.stage | with_reducible apply Stays.arm | with_reducible apply Stays.ite)

theorem Stays.startBankTest {m : Nat} {s x : State} (h : Stays m s x) (c0 : Nat) (b0 : Nat) (p0 : Option Nat) (h0 : Option Nat) (hm : m &&& 0x40080 = 0x40080) : Stays m s (State.startBankTest x c0 b0 p0 h0) := by
  unfold State.startBankTest
  dsimp only
  repeat' (first | with_reducible assumption | exact Mask.of hm rfl | with_reducible apply Stays.memTake | with_reducible apply Stays.updMem | with_reducible apply Stays.ite | split)

theorem Stays.bgSelftest {m : Nat} {s x : State} (h : Stays m s x) (c0 : Cmd) (u0 : Nat) (hm : m &&& 0x40084 = 0x40084) : Stays m s (State.bgSelftest x c0 u0) := by
  unfold State.bgSelftest
  dsimp only
  repeat' (first | with_reducible assumption | exact Mask.of hm rfl | with_reducible apply Stays.askGrant | with_reducible apply Stays.stage | with_reducible apply Stays.startBankTest | with_reducible apply Stays.updMem | with_reducible apply Stays.ite | split)

theorem Stays.execSelftest {m : Nat} {s x : State} (h : Stays m s x) (h0 : Nat) (hm : m &&& 0x2d00be = 0x2d00be) : Stays m s (taken x (Machine.execSelftest h0 x)) := by
  unfold taken Machine.execSelftest
  dsimp only
  repeat' (first | with_reducible assumption | exact Mask.of hm rfl | with_reducible apply Stays.refuse377 | with_reducible apply Stays.refuse | with_reducible refine Stays.runAdmin ?_ _ _ _ (fun t c ht => ?_) ?_ | with_reducible refine Stays.checkedRun ?_ _ _ _ (fun t ht => ?_) ?_ | with_reducible apply Stays.stage | with_reducible apply Stays.bgSelftest | with_reducible apply Stays.setFlt | with_reducible apply Stays.ite)

theorem Stays.execGatewayCall {m : Nat} {s x : State} (h : Stays m s x) (h0 : Nat) (hm : m &&& 0x4 = 0x4) : Stays m s (taken x (Machine.execGatewayCall h0 x)) := by
  unfold taken Machine.execGatewayCall
  dsimp only
  repeat' (first | with_reducible assumption | exact Mask.of hm rfl | with_reducible refine Stays.runAdmin ?_ _ _ _ (fun t c ht => ?_) ?_ | with_reducible refine Stays.checkedRun ?_ _ _ _ (fun t ht => ?_) ?_ | with_reducible apply Stays.stage)

theorem Stays.execHandover {m : Nat} {s x : State} (h : Stays m s x) (h0 : Nat) (hm : m &&& 0x8004 = 0x8004) : Stays m s (taken x (Machine.execHandover h0 x)) := by
  unfold taken Machine.execHandover
  dsimp only
  repeat' (first | with_reducible assumption | exact Mask.of hm rfl | with_reducible apply Stays.refuse | with_reducible refine Stays.runAdmin ?_ _ _ _ (fun t c ht => ?_) ?_ | with_reducible refine Stays.checkedRun ?_ _ _ _ (fun t ht => ?_) ?_ | with_reducible apply Stays.stage | with_reducible apply Stays.okay | with_reducible apply Stays.setTru | with_reducible apply Stays.ite)

theorem Stays.execMeasureGet {m : Nat} {s x : State} (h : Stays m s x) (h0 : Nat) (hm : m &&& 0x2d1ffe = 0x2d1ffe) : Stays m s (taken x (Machine.execMeasureGet h0 x)) := by
  unfold taken Machine.execMeasureGet
  dsimp only
  repeat' (first | with_reducible assumption | exact Mask.of hm rfl | with_reducible apply Stays.unitStore | with_reducible refine Stays.runAdmin ?_ _ _ _ (fun t c ht => ?_) ?_ | with_reducible refine Stays.checkedRun ?_ _ _ _ (fun t ht => ?_) ?_ | with_reducible apply Stays.okay)

theorem Stays.execGroupCreate {m : Nat} {s x : State} (h : Stays m s x) (h0 : Nat) (hm : m &&& 0x20024 = 0x20024) : Stays m s (taken x (Machine.execGroupCreate h0 x)) := by
  unfold taken Machine.execGroupCreate
  dsimp only
  repeat' (first | with_reducible assumption | exact Mask.of hm rfl | with_reducible refine Stays.runAdmin ?_ _ _ _ (fun t c ht => ?_) ?_ | with_reducible refine Stays.checkedRun ?_ _ _ _ (fun t ht => ?_) ?_ | with_reducible apply Stays.okay | with_reducible apply Stays.cfgChanged | with_reducible apply Stays.setGroup)

theorem Stays.execGroupDelete {m : Nat} {s x : State} (h : Stays m s x) (h0 : Nat) (hm : m &&& 0x20024 = 0x20024) : Stays m s (taken x (Machine.execGroupDelete h0 x)) := by
  unfold taken Machine.execGroupDelete
  dsimp only
  repeat' (first | with_reducible assumption | exact Mask.of hm rfl | with_reducible refine Stays.runAdmin ?_ _ _ _ (fun t c ht => ?_) ?_ | with_reducible refine Stays.checkedRun ?_ _ _ _ (fun t ht => ?_) ?_ | with_reducible apply Stays.okay | with_reducible apply Stays.cfgChanged | with_reducible apply Stays.setGroup)

theorem Stays.execGroupAssign {m : Nat} {s x : State} (h : Stays m s x) (h0 : Nat) (hm : m &&& 0x20024 = 0x20024) : Stays m s (taken x (Machine.execGroupAssign h0 x)) := by
  unfold taken Machine.execGroupAssign
  dsimp only
  repeat' (first | with_reducible assumption | exact Mask.of hm rfl | with_reducible refine Stays.runAdmin ?_ _ _ _ (fun t c ht => ?_) ?_ | with_reducible refine Stays.checkedRun ?_ _ _ _ (fun t ht => ?_) ?_ | with_reducible apply Stays.okay | with_reducible apply Stays.cfgChanged | with_reducible apply Stays.setGroup)

theorem Stays.execLinkStatus {m : Nat} {s x : State} (h : Stays m s x) (h0 : Nat) (hm : m &&& 0x4 = 0x4) : Stays m s (taken x (Machine.execLinkStatus h0 x)) := by
  unfold taken Machine.execLinkStatus
  dsimp only
  repeat' (first | with_reducible assumption | exact Mask.of hm rfl | with_reducible refine Stays.runAdmin ?_ _ _ _ (fun t c ht => ?_) ?_ | with_reducible refine Stays.checkedRun ?_ _ _ _ (fun t ht => ?_) ?_ | with_reducible apply Stays.okay)

theorem Stays.serviceEffect {m : Nat} {s x : State} (h : Stays m s x) (c0 : Cmd) (op0 : ServiceOp) (hm : m &&& 0x12d003e = 0x12d003e) : Stays m s (State.serviceEffect x c0 op0) := by
  unfold State.serviceEffect
  repeat' (first | with_reducible assumption | exact Mask.of hm rfl | with_reducible apply Stays.repF | with_reducible apply Stays.refuse | with_reducible apply Stays.okay | with_reducible refine Stays.setDeckBlaze ?_ _ (fun _ => rfl) (Mask.of hm rfl) | with_reducible refine Stays.setDeckLc ?_ _ (fun _ => ⟨rfl, rfl⟩) (Mask.of hm rfl) | with_reducible refine Stays.setDeck ?_ _ (fun d hd => ?_) (Mask.of hm rfl) | with_reducible apply Stays.ite | split)

theorem Stays.execServiceOpcode {m : Nat} {s x : State} (h : Stays m s x) (h0 : Nat) (op0 : ServiceOp) (hm : m &&& 0x12d003e = 0x12d003e) : Stays m s (taken x (Machine.execServiceOpcode h0 op0 x)) := by
  unfold taken Machine.execServiceOpcode
  generalize hc : x.cmd h0 = c
  cases c with
  | none => exact h
  | some c =>
    dsimp only
    by_cases h1 : (0xF0 ≤ c.opcode && c.stage == .checked && x.nextUp c && x.on && !x.pwr.stop && x.mp.run = 0 && !x.flt.grave) = true
    · rw [if_pos h1]
      by_cases h2 : op0 = .other
      · rw [if_pos h2]; exact h
      · rw [if_neg h2]; exact Stays.serviceEffect h _ _ (Mask.of hm rfl)
    · rw [if_neg h1]; exact h

/-! ## Tally -/

theorem Stays.execReuseHoldExpiry {m : Nat} {s x : State} (h : Stays m s x) (i0 : TlyIx) (hm : m &&& 0x8 = 0x8) : Stays m s (taken x (Machine.execReuseHoldExpiry i0 x)) := by
  unfold taken Machine.execReuseHoldExpiry
  dsimp only
  repeat' (first | with_reducible assumption | exact Mask.of hm rfl | with_reducible refine Stays.setTlyIn ?_ _ (fun _ => ⟨rfl, rfl⟩) (Mask.of hm rfl) | with_reducible refine Stays.setTly ?_ _ (Mask.of hm rfl) | with_reducible refine Stays.when ?_ _ (fun t ht => ?_))

theorem Stays.execCheckpointGuardExpiry {m : Nat} {s x : State} (h : Stays m s x) (hm : m &&& 0x8 = 0x8) : Stays m s (taken x (Machine.execCheckpointGuardExpiry x)) := by
  unfold taken Machine.execCheckpointGuardExpiry
  dsimp only
  repeat' (first | with_reducible assumption | exact Mask.of hm rfl | with_reducible refine Stays.setTlyIn ?_ _ (fun _ => ⟨rfl, rfl⟩) (Mask.of hm rfl) | with_reducible refine Stays.setTly ?_ _ (Mask.of hm rfl) | with_reducible refine Stays.when ?_ _ (fun t ht => ?_))

theorem Stays.execAbortNoteDelayExpiry {m : Nat} {s x : State} (h : Stays m s x) (i0 : TlyIx) (hm : m &&& 0x1000018 = 0x1000018) : Stays m s (taken x (Machine.execAbortNoteDelayExpiry i0 x)) := by
  unfold taken Machine.execAbortNoteDelayExpiry
  dsimp only
  repeat' (first | with_reducible assumption | exact Mask.of hm rfl | with_reducible apply Stays.addNote | with_reducible refine Stays.setTlyIn ?_ _ (fun _ => ⟨rfl, rfl⟩) (Mask.of hm rfl) | with_reducible refine Stays.setTly ?_ _ (Mask.of hm rfl) | with_reducible refine Stays.when ?_ _ (fun t ht => ?_) | with_reducible apply Stays.ite)

theorem Stays.writeNote {m : Nat} {s x : State} (h : Stays m s x) (n0 : Note) (hm : m &&& 0x180001c = 0x180001c) : Stays m s (State.writeNote x n0) := by
  unfold State.writeNote
  dsimp only
  repeat' (first | with_reducible assumption | exact Mask.of hm rfl | with_reducible apply Stays.dueCheck | with_reducible refine Stays.setDeckBlaze ?_ _ (fun _ => rfl) (Mask.of hm rfl) | with_reducible refine Stays.setDeckLc ?_ _ (fun _ => ⟨rfl, rfl⟩) (Mask.of hm rfl) | with_reducible refine Stays.setDeck ?_ _ (fun d hd => ?_) (Mask.of hm rfl) | with_reducible apply Stays.updEntry | with_reducible apply Stays.ite)

theorem Stays.execNoteWritten {m : Nat} {s x : State} (h : Stays m s x) (i0 : TlyIx) (hm : m &&& 0x180001c = 0x180001c) : Stays m s (taken x (Machine.execNoteWritten i0 x)) := by
  unfold taken Machine.execNoteWritten
  dsimp only
  repeat' (first | with_reducible assumption | exact Mask.of hm rfl | with_reducible apply Stays.writeNote | with_reducible refine Stays.when ?_ _ (fun t ht => ?_) | split)

theorem Stays.tock {m : Nat} {s x : State} (h : Stays m s x) (hm : m &&& 0x9 = 0x9) : Stays m s (State.tock x) := by
  unfold State.tock
  dsimp only
  repeat' (first | with_reducible assumption | exact Mask.of hm rfl | with_reducible refine Stays.setTlyIn ?_ _ (fun _ => ⟨rfl, rfl⟩) (Mask.of hm rfl) | with_reducible refine Stays.setTly ?_ _ (Mask.of hm rfl) | with_reducible apply Stays.ite | split)
  all_goals with_reducible refine Stays.build ?_ _ _ _ _ _ _ _ _ _ _ _ _ _ _ _ _ _ _ _ _ _ ?_ ?_ ?_ ?_ ?_ ?_ ?_ ?_ ?_ ?_ ?_ ?_ ?_ ?_ ?_ ?_ ?_ ?_ ?_ ?_ ?_ ?_ ?_ ?_ ?_ ?_ ?_
  all_goals (first | exact fun hw => hw | exact fun _ => rfl | exact fun _ => ⟨rfl, rfl⟩ | exact Mask.no hm (by decide) | skip)
  repeat' (first | with_reducible assumption)

theorem Stays.ckptStart {m : Nat} {s x : State} (h : Stays m s x) (hm : m &&& 0x1000018 = 0x1000018) : Stays m s (State.ckptStart x) := by
  unfold State.ckptStart
  dsimp only
  repeat' (first | with_reducible assumption | exact Mask.of hm rfl | with_reducible refine Stays.setDeckBlaze ?_ _ (fun _ => rfl) (Mask.of hm rfl) | with_reducible refine Stays.setDeckLc ?_ _ (fun _ => ⟨rfl, rfl⟩) (Mask.of hm rfl) | with_reducible refine Stays.setDeck ?_ _ (fun d hd => ?_) (Mask.of hm rfl) | with_reducible refine Stays.setTlyIn ?_ _ (fun _ => ⟨rfl, rfl⟩) (Mask.of hm rfl))

theorem Stays.ckptEnd {m : Nat} {s x : State} (h : Stays m s x) (r0 : CkptRun) (hm : m &&& 0x1000018 = 0x1000018) : Stays m s (State.ckptEnd x r0) := by
  unfold State.ckptEnd
  dsimp only
  repeat' (first | with_reducible assumption | exact Mask.of hm rfl | with_reducible refine Stays.setDeckBlaze ?_ _ (fun _ => rfl) (Mask.of hm rfl) | with_reducible refine Stays.setDeckLc ?_ _ (fun _ => ⟨rfl, rfl⟩) (Mask.of hm rfl) | with_reducible refine Stays.setDeck ?_ _ (fun d hd => ?_) (Mask.of hm rfl) | with_reducible refine Stays.setTlyIn ?_ _ (fun _ => ⟨rfl, rfl⟩) (Mask.of hm rfl))

theorem Stays.execCheckpointStart {m : Nat} {s x : State} (h : Stays m s x) (hm : m &&& 0x1000018 = 0x1000018) : Stays m s (taken x (Machine.execCheckpointStart x)) := by
  unfold taken Machine.execCheckpointStart
  dsimp only
  repeat' (first | with_reducible assumption | exact Mask.of hm rfl | with_reducible apply Stays.ckptStart | with_reducible refine Stays.when ?_ _ (fun t ht => ?_))

theorem Stays.execCheckpointComplete {m : Nat} {s x : State} (h : Stays m s x) (hm : m &&& 0x1000018 = 0x1000018) : Stays m s (taken x (Machine.execCheckpointComplete x)) := by
  unfold taken Machine.execCheckpointComplete
  dsimp only
  repeat' (first | with_reducible assumption | exact Mask.of hm rfl | with_reducible apply Stays.ckptEnd | with_reducible refine Stays.when ?_ _ (fun t ht => ?_) | split)

theorem Stays.addRec {m : Nat} {s x : State} (h : Stays m s x) (r0 : RRec) (hm : m &&& 0x800008 = 0x800008) : Stays m s (State.addRec x r0) := by
  unfold State.addRec
  repeat' (first | with_reducible assumption | exact Mask.of hm rfl | with_reducible refine Stays.setTlyIn ?_ _ (fun _ => ⟨rfl, rfl⟩) (Mask.of hm rfl) | with_reducible refine Stays.setTly ?_ _ (Mask.of hm rfl))

theorem Stays.record {m : Nat} {s x : State} (h : Stays m s x) (t0 : W32) (f0 : BitVec 9) (kind0 : Nat) (status0 : Nat) (r00 : Nat) (r10 : Nat) (hm : m &&& 0x800008 = 0x800008) : Stays m s (State.record x t0 f0 kind0 status0 r00 r10) := by
  unfold State.record
  repeat' (first | with_reducible assumption | exact Mask.of hm rfl | with_reducible apply Stays.addRec)

theorem Stays.decideLost {m : Nat} {s x : State} (h : Stays m s x) (d0 : InDoubt) (commit0 : Bool) (hm : m &&& 0x800028 = 0x800028) : Stays m s (State.decideLost x d0 commit0) := by
  unfold State.decideLost
  dsimp only
  repeat' (first | with_reducible assumption | exact Mask.of hm rfl | with_reducible apply Stays.addMsg | with_reducible apply Stays.record | with_reducible refine Stays.setTlyIn ?_ _ (fun _ => ⟨rfl, rfl⟩) (Mask.of hm rfl) | with_reducible refine Stays.setTly ?_ _ (Mask.of hm rfl) | with_reducible refine Stays.foldl (fun t a ht => ?_) ?_)

theorem Stays.decideStale {m : Nat} {s x : State} (h : Stays m s x) (d0 : InDoubt) (commit0 : Bool) (hm : m &&& 0x180007c = 0x180007c) : Stays m s (State.decideStale x d0 commit0) := by
  unfold State.decideStale
  dsimp only
  repeat' (first | with_reducible assumption | exact Mask.of hm rfl | with_reducible apply Stays.freeCheck | with_reducible apply Stays.abortEntry | with_reducible apply Stays.commitEntry | with_reducible apply Stays.record | with_reducible apply Stays.updEntry | with_reducible apply Stays.ite)

theorem Stays.resolve {m : Nat} {s x : State} (h : Stays m s x) (t0 : W32) (hm : m &&& 0x180007c = 0x180007c) : Stays m s (State.resolve x t0) := by
  unfold State.resolve
  dsimp only
  repeat' (first | with_reducible assumption | exact Mask.of hm rfl | with_reducible apply Stays.decideLost | with_reducible apply Stays.decideStale | with_reducible refine Stays.setTlyIn ?_ _ (fun _ => ⟨rfl, rfl⟩) (Mask.of hm rfl) | with_reducible refine Stays.setTly ?_ _ (Mask.of hm rfl) | with_reducible apply Stays.ite | split)

theorem Stays.resolveAll {m : Nat} {s x : State} (h : Stays m s x) (hm : m &&& 0x180007c = 0x180007c) : Stays m s (State.resolveAll x) := by
  unfold State.resolveAll
  repeat' (first | with_reducible assumption | exact Mask.of hm rfl | with_reducible apply Stays.resolve | with_reducible refine Stays.foldl (fun t a ht => ?_) ?_)

theorem Stays.partnerReport {m : Nat} {s x : State} (h : Stays m s x) (t0 : W32) (group0 : Nat) (code0 : Nat) (glist0 : List Nat) (tenant0 : BitVec 9) (hm : m &&& 0x180007c = 0x180007c) : Stays m s (State.partnerReport x t0 group0 code0 glist0 tenant0) := by
  unfold State.partnerReport
  dsimp only
  repeat' (first | with_reducible assumption | exact Mask.of hm rfl | with_reducible apply Stays.resolve | with_reducible refine Stays.setDeckBlaze ?_ _ (fun _ => rfl) (Mask.of hm rfl) | with_reducible refine Stays.setDeckLc ?_ _ (fun _ => ⟨rfl, rfl⟩) (Mask.of hm rfl) | with_reducible refine Stays.setDeck ?_ _ (fun d hd => ?_) (Mask.of hm rfl) | with_reducible refine Stays.setTlyIn ?_ _ (fun _ => ⟨rfl, rfl⟩) (Mask.of hm rfl) | with_reducible refine Stays.setTly ?_ _ (Mask.of hm rfl) | with_reducible apply Stays.ite)

theorem Stays.execResolveWaitExpiry {m : Nat} {s x : State} (h : Stays m s x) (tid0 : W32) (hm : m &&& 0x2d003e = 0x2d003e) : Stays m s (taken x (Machine.execResolveWaitExpiry tid0 x)) := by
  unfold taken Machine.execResolveWaitExpiry
  dsimp only
  repeat' (first | with_reducible assumption | exact Mask.of hm rfl | with_reducible apply Stays.repT | with_reducible refine Stays.setTlyIn ?_ _ (fun _ => ⟨rfl, rfl⟩) (Mask.of hm rfl) | with_reducible refine Stays.setTly ?_ _ (Mask.of hm rfl) | with_reducible refine Stays.when ?_ _ (fun t ht => ?_) | with_reducible apply Stays.ite | split)

theorem Stays.execDoubtTableClose {m : Nat} {s x : State} (h : Stays m s x) (hm : m &&& 0x1000018 = 0x1000018) : Stays m s (taken x (Machine.execDoubtTableClose x)) := by
  unfold taken Machine.execDoubtTableClose
  dsimp only
  repeat' (first | with_reducible assumption | exact Mask.of hm rfl | with_reducible refine Stays.setDeckBlaze ?_ _ (fun _ => rfl) (Mask.of hm rfl) | with_reducible refine Stays.setDeckLc ?_ _ (fun _ => ⟨rfl, rfl⟩) (Mask.of hm rfl) | with_reducible refine Stays.setDeck ?_ _ (fun d hd => ?_) (Mask.of hm rfl) | with_reducible refine Stays.setTlyIn ?_ _ (fun _ => ⟨rfl, rfl⟩) (Mask.of hm rfl) | with_reducible refine Stays.setTly ?_ _ (Mask.of hm rfl) | with_reducible refine Stays.when ?_ _ (fun t ht => ?_))

theorem Stays.rlogNext {m : Nat} {s x : State} (h : Stays m s x) (hm : m &&& 0x180007c = 0x180007c) : Stays m s (State.rlogNext x) := by
  unfold State.rlogNext
  dsimp only
  repeat' (first | with_reducible assumption | exact Mask.of hm rfl | with_reducible apply Stays.resolveAll | with_reducible refine Stays.setTlyIn ?_ _ (fun _ => ⟨rfl, rfl⟩) (Mask.of hm rfl) | with_reducible refine Stays.setTly ?_ _ (Mask.of hm rfl))

theorem Stays.execTlyRlogNext {m : Nat} {s x : State} (h : Stays m s x) (p0 : PortId) (val0 : W32) (hm : m &&& 0x180007c = 0x180007c) : Stays m s (taken x (Machine.execTlyRlogNext p0 val0 x)) := by
  unfold taken Machine.execTlyRlogNext
  dsimp only
  repeat' (first | with_reducible assumption | exact Mask.of hm rfl | with_reducible apply Stays.rlogNext | with_reducible refine Stays.when ?_ _ (fun t ht => ?_))

theorem Stays.load {m : Nat} {s x : State} (h : Stays m s x) (im0 : Image) (stale0 : Bool) (hm : m &&& 0x800008 = 0x800008) : Stays m s (State.load x im0 stale0) := by
  unfold State.load
  dsimp only
  repeat' (first | with_reducible assumption | exact Mask.of hm rfl | with_reducible apply Stays.setEntry | with_reducible refine Stays.setTlyIn ?_ _ (fun _ => ⟨rfl, rfl⟩) (Mask.of hm rfl) | with_reducible refine Stays.setTly ?_ _ (Mask.of hm rfl) | with_reducible refine Stays.foldl (fun t a ht => ?_) ?_ | with_reducible apply Stays.ite)

theorem Stays.loadNotes {m : Nat} {s x : State} (h : Stays m s x) (hm : m &&& 0x1800018 = 0x1800018) : Stays m s (State.loadNotes x) := by
  unfold State.loadNotes
  dsimp only
  repeat' (first | with_reducible assumption | exact Mask.of hm rfl | with_reducible refine Stays.setDeckBlaze ?_ _ (fun _ => rfl) (Mask.of hm rfl) | with_reducible refine Stays.setDeckLc ?_ _ (fun _ => ⟨rfl, rfl⟩) (Mask.of hm rfl) | with_reducible refine Stays.setDeck ?_ _ (fun d hd => ?_) (Mask.of hm rfl) | with_reducible apply Stays.updEntry | with_reducible refine Stays.foldl (fun t a ht => ?_) ?_ | with_reducible apply Stays.ite)

theorem Stays.settleSecure {m : Nat} {s x : State} (h : Stays m s x) (i0 : Nat) (hm : m &&& 0x180007c = 0x180007c) : Stays m s (State.settleSecure x i0) := by
  unfold State.settleSecure
  dsimp only
  repeat' (first | with_reducible assumption | exact Mask.of hm rfl | with_reducible apply Stays.freeCheck | with_reducible apply Stays.addNote | with_reducible apply Stays.sendOutcome | with_reducible apply Stays.abortEntry | with_reducible apply Stays.record | with_reducible apply Stays.updEntry | with_reducible apply Stays.ite | split)

theorem Stays.settleEntry {m : Nat} {s x : State} (h : Stays m s x) (i0 : Nat) (hm : m &&& 0x180003c = 0x180003c) : Stays m s (State.settleEntry x i0) := by
  unfold State.settleEntry
  dsimp only
  repeat' (first | with_reducible assumption | exact Mask.of hm rfl | with_reducible apply Stays.dueEntry | with_reducible apply Stays.dueCheck | with_reducible apply Stays.freeCheck | with_reducible apply Stays.addNote | with_reducible apply Stays.sendOutcome | with_reducible apply Stays.record | with_reducible apply Stays.setEntry | with_reducible apply Stays.updEntry | with_reducible apply Stays.ite | split)

theorem Stays.doubtEntry {m : Nat} {s x : State} (h : Stays m s x) (i0 : Nat) (hm : m &&& 0x28 = 0x28) : Stays m s (State.doubtEntry x i0) := by
  unfold State.doubtEntry
  dsimp only
  repeat' (first | with_reducible assumption | exact Mask.of hm rfl | with_reducible apply Stays.addMsg | with_reducible refine Stays.setTlyIn ?_ _ (fun _ => ⟨rfl, rfl⟩) (Mask.of hm rfl) | with_reducible refine Stays.setTly ?_ _ (Mask.of hm rfl) | with_reducible refine Stays.foldl (fun t a ht => ?_) ?_)

theorem Stays.settleStale {m : Nat} {s x : State} (h : Stays m s x) (i0 : Nat) (hm : m &&& 0x2c = 0x2c) : Stays m s (State.settleStale x i0) := by
  unfold State.settleStale
  repeat' (first | with_reducible assumption | exact Mask.of hm rfl | with_reducible apply Stays.dueEntry | with_reducible apply Stays.doubtEntry | with_reducible apply Stays.ite)

theorem Stays.settleAll {m : Nat} {s x : State} (h : Stays m s x) (hm : m &&& 0x180007c = 0x180007c) : Stays m s (State.settleAll x) := by
  unfold State.settleAll
  dsimp only
  repeat' (first | with_reducible assumption | exact Mask.of hm rfl | with_reducible apply Stays.settleSecure | with_reducible apply Stays.settleEntry | with_reducible apply Stays.doubtEntry | with_reducible apply Stays.updEntry | with_reducible refine Stays.foldl (fun t a ht => ?_) ?_ | with_reducible apply Stays.ite)

theorem Stays.restoreStale {m : Nat} {s x : State} (h : Stays m s x) (im0 : Image) (hm : m &&& 0x1ad007e = 0x1ad007e) : Stays m s (State.restoreStale x im0) := by
  unfold State.restoreStale
  dsimp only
  repeat' (first | with_reducible assumption | exact Mask.of hm rfl | with_reducible apply Stays.rep0 | with_reducible apply Stays.resolveAll | with_reducible apply Stays.load | with_reducible apply Stays.loadNotes | with_reducible apply Stays.settleStale | with_reducible refine Stays.setDeckBlaze ?_ _ (fun _ => rfl) (Mask.of hm rfl) | with_reducible refine Stays.setDeckLc ?_ _ (fun _ => ⟨rfl, rfl⟩) (Mask.of hm rfl) | with_reducible refine Stays.setDeck ?_ _ (fun d hd => ?_) (Mask.of hm rfl) | with_reducible refine Stays.setTlyIn ?_ _ (fun _ => ⟨rfl, rfl⟩) (Mask.of hm rfl) | with_reducible refine Stays.setTly ?_ _ (Mask.of hm rfl) | with_reducible refine Stays.foldl (fun t a ht => ?_) ?_ | with_reducible apply Stays.ite)

theorem Stays.restoreSkid {m : Nat} {s x : State} (h : Stays m s x) (im0 : Option Image) (hm : m &&& 0x180007c = 0x180007c) : Stays m s (State.restoreSkid x im0) := by
  unfold State.restoreSkid
  dsimp only
  repeat' (first | with_reducible assumption | exact Mask.of hm rfl | with_reducible apply Stays.resolveAll | with_reducible apply Stays.load | with_reducible apply Stays.loadNotes | with_reducible apply Stays.settleAll | with_reducible refine Stays.setDeckBlaze ?_ _ (fun _ => rfl) (Mask.of hm rfl) | with_reducible refine Stays.setDeckLc ?_ _ (fun _ => ⟨rfl, rfl⟩) (Mask.of hm rfl) | with_reducible refine Stays.setDeck ?_ _ (fun d hd => ?_) (Mask.of hm rfl) | with_reducible refine Stays.setTlyIn ?_ _ (fun _ => ⟨rfl, rfl⟩) (Mask.of hm rfl) | with_reducible refine Stays.setTly ?_ _ (Mask.of hm rfl) | with_reducible apply Stays.ite | split)

theorem Stays.restore {m : Nat} {s x : State} (h : Stays m s x) (hm : m &&& 0x1ad007e = 0x1ad007e) : Stays m s (State.restore x) := by
  unfold State.restore
  dsimp only
  repeat' (first | with_reducible assumption | exact Mask.of hm rfl | with_reducible apply Stays.restoreStale | with_reducible apply Stays.restoreSkid | with_reducible refine Stays.setTlyIn ?_ _ (fun _ => ⟨rfl, rfl⟩) (Mask.of hm rfl) | with_reducible refine Stays.setTly ?_ _ (Mask.of hm rfl) | split)

end Sys2Proof.Machine
end

