-- ==== Sys2Proof/Laws/StaysUnits.lean ====
section
/-! SUPPORT. No operation undoes what `Kept` names: one lemma for each operation of the links, the engine array, the trust unit, faults, power, start-up and the registers. -/

namespace Sys2Proof.Machine

/-! ## Links -/

theorem Stays.cntLink {m : Nat} {s x : State} (h : Stays m s x) (l0 : Nat) (j0 : Nat) (n0 : Nat) (hm : m &&& 0x20 = 0x20) : Stays m s (State.cntLink x l0 j0 n0) := by
  unfold State.cntLink
  repeat' (first | with_reducible assumption | exact Mask.of hm rfl | with_reducible apply Stays.updLink)

theorem Stays.wire {m : Nat} {s x : State} (h : Stays m s x) (l0 : Nat) (f0 : Frame) (flip0 : W32) (hm : m &&& 0x200020 = 0x200020) : Stays m s (State.wire x l0 f0 flip0) := by
  unfold State.wire
  repeat' (first | with_reducible assumption | exact Mask.of hm rfl | with_reducible apply Stays.cntLink | with_reducible apply Stays.emit)

theorem Stays.sendProbe {m : Nat} {s x : State} (h : Stays m s x) (l0 : Nat) (reply0 : Bool) (hm : m &&& 0x200020 = 0x200020) : Stays m s (State.sendProbe x l0 reply0) := by
  unfold State.sendProbe
  repeat' (first | with_reducible assumption | exact Mask.of hm rfl | with_reducible apply Stays.wire)

theorem Stays.sendIdle {m : Nat} {s x : State} (h : Stays m s x) (l0 : Nat) (hm : m &&& 0x200020 = 0x200020) : Stays m s (State.sendIdle x l0) := by
  unfold State.sendIdle
  repeat' (first | with_reducible assumption | exact Mask.of hm rfl | with_reducible apply Stays.wire | with_reducible apply Stays.updLink)

theorem Stays.sendCredit {m : Nat} {s x : State} (h : Stays m s x) (l0 : Nat) (hm : m &&& 0x200020 = 0x200020) : Stays m s (State.sendCredit x l0) := by
  unfold State.sendCredit
  dsimp only
  repeat' (first | with_reducible assumption | exact Mask.of hm rfl | with_reducible apply Stays.wire | with_reducible apply Stays.updLink)

theorem Stays.sendNak {m : Nat} {s x : State} (h : Stays m s x) (l0 : Nat) (hm : m &&& 0x200020 = 0x200020) : Stays m s (State.sendNak x l0) := by
  unfold State.sendNak
  dsimp only
  repeat' (first | with_reducible assumption | exact Mask.of hm rfl | with_reducible apply Stays.cntLink | with_reducible apply Stays.wire | with_reducible apply Stays.updLink | with_reducible apply Stays.ite)

theorem Stays.badLog {m : Nat} {s x : State} (h : Stays m s x) (l0 : Nat) (hm : m &&& 0x2d003e = 0x2d003e) : Stays m s (State.badLog x l0) := by
  unfold State.badLog
  dsimp only
  repeat' (first | with_reducible assumption | exact Mask.of hm rfl | with_reducible apply Stays.rep0 | with_reducible apply Stays.updLink | with_reducible apply Stays.ite)

theorem Stays.badFrame {m : Nat} {s x : State} (h : Stays m s x) (l0 : Nat) (hm : m &&& 0x2d003e = 0x2d003e) : Stays m s (State.badFrame x l0) := by
  unfold State.badFrame
  repeat' (first | with_reducible assumption | exact Mask.of hm rfl | with_reducible apply Stays.cntLink | with_reducible apply Stays.badLog)

theorem Stays.pull {m : Nat} {s x : State} (h : Stays m s x) (l0 : Nat) (t0 : W32) (grp0 : Nat) (hm : m &&& 0x20 = 0x20) : Stays m s (State.pull x l0 t0 grp0) := by
  unfold State.pull
  repeat' (first | with_reducible assumption | exact Mask.of hm rfl | with_reducible apply Stays.updLink)

theorem Stays.putAgain {m : Nat} {s x : State} (h : Stays m s x) (i0 : Nat) (l0 : Nat) (fs0 : List Stored) (hm : m &&& 0x800028 = 0x800028) : Stays m s (State.putAgain x i0 l0 fs0) := by
  unfold State.putAgain
  dsimp only
  repeat' (first | with_reducible assumption | exact Mask.of hm rfl | with_reducible apply Stays.queueBuilt | with_reducible apply Stays.cntLink | with_reducible apply Stays.updEntry | with_reducible refine Stays.foldl (fun t a ht => ?_) ?_)

theorem Stays.moveFlow {m : Nat} {s x : State} (h : Stays m s x) (i0 : Nat) (g0 : Nat) (k0 : Nat) (l0 : Nat) (hm : m &&& 0x800028 = 0x800028) : Stays m s (State.moveFlow x i0 g0 k0 l0) := by
  unfold State.moveFlow
  dsimp only
  repeat' (first | with_reducible assumption | exact Mask.of hm rfl | with_reducible apply Stays.pull | with_reducible apply Stays.putAgain | with_reducible apply Stays.updEntry | with_reducible apply Stays.updFlow | with_reducible apply Stays.ite | split)

theorem Stays.stopFlow {m : Nat} {s x : State} (h : Stays m s x) (i0 : Nat) (g0 : Nat) (kind0 : Nat) (val0 : Nat) (hm : m &&& 0x68 = 0x68) : Stays m s (State.stopFlow x i0 g0 kind0 val0) := by
  unfold State.stopFlow
  dsimp only
  repeat' (first | with_reducible assumption | exact Mask.of hm rfl | with_reducible apply Stays.postEvent | with_reducible apply Stays.pull | with_reducible apply Stays.updFlow | split)

theorem Stays.resendFlow {m : Nat} {s x : State} (h : Stays m s x) (i0 : Nat) (g0 : Nat) (hm : m &&& 0x800068 = 0x800068) : Stays m s (State.resendFlow x i0 g0) := by
  unfold State.resendFlow
  dsimp only
  repeat' (first | with_reducible assumption | exact Mask.of hm rfl | with_reducible apply Stays.moveFlow | with_reducible apply Stays.stopFlow | with_reducible apply Stays.updFlow | with_reducible apply Stays.ite | split)

theorem Stays.moveMsg {m : Nat} {s x : State} (h : Stays m s x) (l0 : Nat) (m0 : OutMsg) (hm : m &&& 0x800028 = 0x800028) : Stays m s (State.moveMsg x l0 m0) := by
  unfold State.moveMsg
  dsimp only
  repeat' (first | with_reducible assumption | exact Mask.of hm rfl | with_reducible apply Stays.sendMsg | with_reducible apply Stays.cntLink | with_reducible refine Stays.setTlyIn ?_ _ (fun _ => ⟨rfl, rfl⟩) (Mask.of hm rfl) | with_reducible refine Stays.setTly ?_ _ (Mask.of hm rfl) | with_reducible apply Stays.updEntry | with_reducible apply Stays.ite | split)

theorem Stays.moveReplies {m : Nat} {s x : State} (h : Stays m s x) (fs0 : List Queued) (hm : m &&& 0x20 = 0x20) : Stays m s (State.moveReplies x fs0) := by
  unfold State.moveReplies
  repeat' (first | with_reducible assumption | exact Mask.of hm rfl | with_reducible apply Stays.queueBuilt | with_reducible apply Stays.setCh | with_reducible refine Stays.foldl (fun t a ht => ?_) ?_ | with_reducible apply Stays.ite | split)

theorem Stays.lossEntry {m : Nat} {s x : State} (h : Stays m s x) (l0 : Nat) (i0 : Nat) (g0 : Nat) (hm : m &&& 0xad007e = 0xad007e) : Stays m s (State.lossEntry x l0 i0 g0) := by
  unfold State.lossEntry
  dsimp only
  repeat' (first | with_reducible assumption | exact Mask.of hm rfl | with_reducible apply Stays.loseGroup | with_reducible apply Stays.moveFlow | with_reducible apply Stays.ite | split)

theorem Stays.noteNow {m : Nat} {s x : State} (h : Stays m s x) (i0 : Nat) (hm : m &&& 0x1000018 = 0x1000018) : Stays m s (State.noteNow x i0) := by
  unfold State.noteNow
  dsimp only
  repeat' (first | with_reducible assumption | exact Mask.of hm rfl | with_reducible apply Stays.addNote | with_reducible refine Stays.setTlyIn ?_ _ (fun _ => ⟨rfl, rfl⟩) (Mask.of hm rfl) | with_reducible refine Stays.setTly ?_ _ (Mask.of hm rfl) | with_reducible apply Stays.ite)

theorem Stays.linkLoss {m : Nat} {s x : State} (h : Stays m s x) (l0 : Nat) (hm : m &&& 0x1ad007e = 0x1ad007e) : Stays m s (State.linkLoss x l0) := by
  unfold State.linkLoss
  dsimp only
  repeat' (first | with_reducible assumption | exact Mask.of hm rfl | with_reducible apply Stays.moveMsg | with_reducible apply Stays.moveReplies | with_reducible apply Stays.lossEntry | with_reducible apply Stays.noteNow | with_reducible apply Stays.updLink | with_reducible refine Stays.foldl (fun t a ht => ?_) ?_)

theorem Stays.linkGrant {m : Nat} {s x : State} (h : Stays m s x) (l0 : Nat) (hm : m &&& 0x40000 = 0x40000) : Stays m s (State.linkGrant x l0) := by
  unfold State.linkGrant
  repeat' (first | with_reducible assumption | exact Mask.of hm rfl | with_reducible apply Stays.releaseGrant | with_reducible apply Stays.ite)

theorem Stays.linkTo {m : Nat} {s x : State} (h : Stays m s x) (l0 : Nat) (st0 : LState) (cause0 : Nat) (hm : m &&& 0x1ad007e = 0x1ad007e) : Stays m s (State.linkTo x l0 st0 cause0) := by
  unfold State.linkTo
  dsimp only
  repeat' (first | with_reducible assumption | exact Mask.of hm rfl | with_reducible apply Stays.rep0 | with_reducible apply Stays.linkLoss | with_reducible apply Stays.linkGrant | with_reducible apply Stays.updLink | with_reducible apply Stays.ite)

theorem Stays.train {m : Nat} {s x : State} (h : Stays m s x) (l0 : Nat) (hm : m &&& 0x20 = 0x20) : Stays m s (State.train x l0) := by
  unfold State.train
  repeat' (first | with_reducible assumption | exact Mask.of hm rfl | with_reducible apply Stays.updLink)

theorem Stays.tryTrain {m : Nat} {s x : State} (h : Stays m s x) (l0 : Nat) (hm : m &&& 0x40020 = 0x40020) : Stays m s (State.tryTrain x l0) := by
  unfold State.tryTrain
  dsimp only
  repeat' (first | with_reducible assumption | exact Mask.of hm rfl | with_reducible apply Stays.askGrant | with_reducible apply Stays.train | with_reducible apply Stays.ite | split)

theorem Stays.serveFlow {m : Nat} {s x : State} (h : Stays m s x) (l0 : Nat) (i0 : Nat) (g0 : Nat) (hm : m &&& 0x800028 = 0x800028) : Stays m s (State.serveFlow x l0 i0 g0) := by
  unfold State.serveFlow
  dsimp only
  repeat' (first | with_reducible assumption | exact Mask.of hm rfl | with_reducible apply Stays.moveFlow | with_reducible apply Stays.ite | split)

theorem Stays.serve {m : Nat} {s x : State} (h : Stays m s x) (l0 : Nat) (hm : m &&& 0x800028 = 0x800028) : Stays m s (State.serve x l0) := by
  unfold State.serve
  dsimp only
  repeat' (first | with_reducible assumption | exact Mask.of hm rfl | with_reducible apply Stays.sendMsg | with_reducible apply Stays.moveReplies | with_reducible apply Stays.serveFlow | with_reducible apply Stays.setCh | with_reducible refine Stays.foldl (fun t a ht => ?_) ?_ | with_reducible apply Stays.ite | split)

theorem Stays.groupsUp {m : Nat} {s x : State} (h : Stays m s x) (l0 : Nat) (hm : m &&& 0x1000010 = 0x1000010) : Stays m s (State.groupsUp x l0) := by
  unfold State.groupsUp
  dsimp only
  repeat' (first | with_reducible assumption | exact Mask.of hm rfl | with_reducible refine Stays.setDeckBlaze ?_ _ (fun _ => rfl) (Mask.of hm rfl) | with_reducible refine Stays.setDeckLc ?_ _ (fun _ => ⟨rfl, rfl⟩) (Mask.of hm rfl))

theorem Stays.toUp {m : Nat} {s x : State} (h : Stays m s x) (l0 : Nat) (hm : m &&& 0x1800038 = 0x1800038) : Stays m s (State.toUp x l0) := by
  unfold State.toUp
  dsimp only
  repeat' (first | with_reducible assumption | exact Mask.of hm rfl | with_reducible apply Stays.serve | with_reducible apply Stays.groupsUp | with_reducible apply Stays.updLink)

theorem Stays.linkCfgWrite {m : Nat} {s x : State} (h : Stays m s x) (f0 : Nat) (l0 : Nat) (val0 : W64) (hm : m &&& 0x1af007e = 0x1af007e) : Stays m s (State.linkCfgWrite x f0 l0 val0) := by
  unfold State.linkCfgWrite
  dsimp only
  repeat' (first | with_reducible assumption | exact Mask.of hm rfl | with_reducible apply Stays.clampFn | with_reducible apply Stays.repF | with_reducible apply Stays.linkTo | with_reducible apply Stays.tryTrain | with_reducible apply Stays.setMp | with_reducible apply Stays.updLink | with_reducible apply Stays.ite)

theorem Stays.execLinkEnable {m : Nat} {s x : State} (h : Stays m s x) (p0 : PortId) (l0 : LinkId) (val0 : W64) (hm : m &&& 0x1af007e = 0x1af007e) : Stays m s (taken x (Machine.execLinkEnable p0 l0 val0 x)) := by
  unfold taken Machine.execLinkEnable
  dsimp only
  repeat' (first | with_reducible assumption | exact Mask.of hm rfl | with_reducible apply Stays.linkCfgWrite | with_reducible refine Stays.when ?_ _ (fun t ht => ?_))

theorem Stays.execLinkDisable {m : Nat} {s x : State} (h : Stays m s x) (p0 : PortId) (l0 : LinkId) (val0 : W64) (hm : m &&& 0x1af007e = 0x1af007e) : Stays m s (taken x (Machine.execLinkDisable p0 l0 val0 x)) := by
  unfold taken Machine.execLinkDisable
  dsimp only
  repeat' (first | with_reducible assumption | exact Mask.of hm rfl | with_reducible apply Stays.linkCfgWrite | with_reducible refine Stays.when ?_ _ (fun t ht => ?_))

theorem Stays.execTrainingComplete {m : Nat} {s x : State} (h : Stays m s x) (l0 : LinkId) (hm : m &&& 0x1ad003e = 0x1ad003e) : Stays m s (taken x (Machine.execTrainingComplete l0 x)) := by
  unfold taken Machine.execTrainingComplete
  dsimp only
  repeat' (first | with_reducible assumption | exact Mask.of hm rfl | with_reducible apply Stays.probing | with_reducible apply Stays.updLink | with_reducible refine Stays.when ?_ _ (fun t ht => ?_))

theorem Stays.execTrainingLimitExpiry {m : Nat} {s x : State} (h : Stays m s x) (l0 : LinkId) (hm : m &&& 0x1ad007e = 0x1ad007e) : Stays m s (taken x (Machine.execTrainingLimitExpiry l0 x)) := by
  unfold taken Machine.execTrainingLimitExpiry
  dsimp only
  repeat' (first | with_reducible assumption | exact Mask.of hm rfl | with_reducible apply Stays.linkTo | with_reducible refine Stays.when ?_ _ (fun t ht => ?_))

theorem Stays.execProbingLimitExpiry {m : Nat} {s x : State} (h : Stays m s x) (l0 : LinkId) (hm : m &&& 0x1ad007e = 0x1ad007e) : Stays m s (taken x (Machine.execProbingLimitExpiry l0 x)) := by
  unfold taken Machine.execProbingLimitExpiry
  dsimp only
  repeat' (first | with_reducible assumption | exact Mask.of hm rfl | with_reducible apply Stays.linkTo | with_reducible apply Stays.probing | with_reducible refine Stays.when ?_ _ (fun t ht => ?_))

theorem Stays.execProbeInterval {m : Nat} {s x : State} (h : Stays m s x) (l0 : LinkId) (hm : m &&& 0x1ad003e = 0x1ad003e) : Stays m s (taken x (Machine.execProbeInterval l0 x)) := by
  unfold taken Machine.execProbeInterval
  dsimp only
  repeat' (first | with_reducible assumption | exact Mask.of hm rfl | with_reducible apply Stays.sendProbe | with_reducible apply Stays.probing | with_reducible apply Stays.updLink | with_reducible refine Stays.when ?_ _ (fun t ht => ?_))

theorem Stays.execDownHoldExpiry {m : Nat} {s x : State} (h : Stays m s x) (l0 : LinkId) (hm : m &&& 0x20 = 0x20) : Stays m s (taken x (Machine.execDownHoldExpiry l0 x)) := by
  unfold taken Machine.execDownHoldExpiry
  dsimp only
  repeat' (first | with_reducible assumption | exact Mask.of hm rfl | with_reducible apply Stays.train | with_reducible refine Stays.when ?_ _ (fun t ht => ?_))

theorem Stays.execLockLoss {m : Nat} {s x : State} (h : Stays m s x) (l0 : LinkId) (hm : m &&& 0x1ad007e = 0x1ad007e) : Stays m s (taken x (Machine.execLockLoss l0 x)) := by
  unfold taken Machine.execLockLoss
  dsimp only
  repeat' (first | with_reducible assumption | exact Mask.of hm rfl | with_reducible apply Stays.linkTo | with_reducible refine Stays.when ?_ _ (fun t ht => ?_))

theorem Stays.execLinkSilenceExpiry {m : Nat} {s x : State} (h : Stays m s x) (l0 : LinkId) (hm : m &&& 0x1ad007e = 0x1ad007e) : Stays m s (taken x (Machine.execLinkSilenceExpiry l0 x)) := by
  unfold taken Machine.execLinkSilenceExpiry
  dsimp only
  repeat' (first | with_reducible assumption | exact Mask.of hm rfl | with_reducible apply Stays.linkTo | with_reducible refine Stays.when ?_ _ (fun t ht => ?_))

theorem Stays.execLrefLoss {m : Nat} {s x : State} (h : Stays m s x) (c0 : ClId) (hm : m &&& 0x1ad007e = 0x1ad007e) : Stays m s (taken x (Machine.execLrefLoss c0 x)) := by
  unfold taken Machine.execLrefLoss
  dsimp only
  repeat' (first | with_reducible assumption | exact Mask.of hm rfl | with_reducible apply Stays.linkTo | with_reducible apply Stays.setCh | with_reducible refine Stays.when ?_ _ (fun t ht => ?_) | with_reducible refine Stays.foldl (fun t a ht => ?_) ?_ | with_reducible apply Stays.ite)

theorem Stays.execLrefReturn {m : Nat} {s x : State} (h : Stays m s x) (c0 : ClId) (hm : m &&& 0x40020 = 0x40020) : Stays m s (taken x (Machine.execLrefReturn c0 x)) := by
  unfold taken Machine.execLrefReturn
  dsimp only
  repeat' (first | with_reducible assumption | exact Mask.of hm rfl | with_reducible apply Stays.tryTrain | with_reducible apply Stays.setCh | with_reducible refine Stays.when ?_ _ (fun t ht => ?_) | with_reducible refine Stays.foldl (fun t a ht => ?_) ?_ | with_reducible apply Stays.ite)

theorem Stays.takeSeq {m : Nat} {s x : State} (h : Stays m s x) (l0 : Nat) (f0 : Frame) (hm : m &&& 0x200020 = 0x200020) : Stays m s (State.takeSeq x l0 f0) := by
  unfold State.takeSeq
  dsimp only
  repeat' (first | with_reducible assumption | exact Mask.of hm rfl | with_reducible apply Stays.sendCredit | with_reducible apply Stays.updLink | with_reducible apply Stays.ite)

theorem Stays.fail2 {m : Nat} {s x : State} (h : Stays m s x) (l0 : Nat) (lseq0 : Option (BitVec 10)) (hm : m &&& 0x2d003e = 0x2d003e) : Stays m s (State.fail2 x l0 lseq0) := by
  unfold State.fail2
  repeat' (first | with_reducible assumption | exact Mask.of hm rfl | with_reducible apply Stays.badFrame | with_reducible apply Stays.updLink | with_reducible apply Stays.ite)

theorem Stays.rx {m : Nat} {s x : State} (h : Stays m s x) (l0 : Nat) (f0 : Frame) (k0 : State → State) (hf : ∀ t, Stays m s t → Stays m s (k0 t)) (hm : m &&& 0x2d003e = 0x2d003e) : Stays m s (State.rx x l0 f0 k0) := by
  unfold State.rx
  dsimp only
  repeat' (first | with_reducible assumption | exact Mask.of hm rfl | with_reducible apply Stays.cntLink | with_reducible apply Stays.sendNak | with_reducible apply Stays.badFrame | with_reducible apply Stays.takeSeq | with_reducible apply Stays.fail2 | with_reducible apply Stays.updLink | with_reducible apply hf | with_reducible apply Stays.ite)

theorem Stays.rxRow {m : Nat} {s x : State} (h : Stays m s x) (l0 : Nat) (type0 : Nat) (f0 : Frame) (k0 : State → State) (hf : ∀ t, Stays m s t → Stays m s (k0 t)) (hm : m &&& 0x2d003e = 0x2d003e) : Stays m s (State.rxRow x l0 type0 f0 k0) := by
  exact Stays.when h _ (fun t ht => Stays.rx ht _ _ _ hf (Mask.of hm rfl))

theorem Stays.rxTid {m : Nat} {s x : State} (h : Stays m s x) (l0 : Nat) (f0 : Frame) (k0 : State → Nat → Nat → State) (hf : ∀ t a b, Stays m s t → Stays m s (k0 t a b)) (hm : m &&& 0x2d003e = 0x2d003e) : Stays m s (State.rxTid x l0 f0 k0) := by
  unfold State.rxTid
  repeat' (first | with_reducible assumption | exact Mask.of hm rfl | with_reducible apply hf | with_reducible apply Stays.cntLink | with_reducible apply Stays.badFrame | with_reducible apply Stays.ite | split)

theorem Stays.recordAck {m : Nat} {s x : State} (h : Stays m s x) (i0 : Nat) (g0 : Nat) (hm : m &&& 0x800048 = 0x800048) : Stays m s (State.recordAck x i0 g0) := by
  unfold State.recordAck
  repeat' (first | with_reducible assumption | exact Mask.of hm rfl | with_reducible apply Stays.postEvent | with_reducible apply Stays.updEntry | with_reducible apply Stays.ite)

theorem Stays.answerData {m : Nat} {s x : State} (h : Stays m s x) (l0 : Nat) (i0 : Nat) (g0 : Nat) (f0 : Frame) (gap0 : Bool) (hm : m &&& 0x200020 = 0x200020) : Stays m s (State.answerData x l0 i0 g0 f0 gap0) := by
  unfold State.answerData
  dsimp only
  repeat' (first | with_reducible assumption | exact Mask.of hm rfl | with_reducible apply Stays.wire)

theorem Stays.replyBytes {m : Nat} {s x : State} (h : Stays m s x) (i0 : Nat) (g0 : Nat) (f0 : Frame) (hm : m &&& 0x2d1ffe = 0x2d1ffe) : Stays m s (State.replyBytes x i0 g0 f0) := by
  unfold State.replyBytes
  dsimp only
  repeat' (first | with_reducible assumption | exact Mask.of hm rfl | with_reducible apply Stays.unitPut | split)

theorem Stays.acceptData {m : Nat} {s x : State} (h : Stays m s x) (i0 : Nat) (g0 : Nat) (f0 : Frame) (hm : m &&& 0xad1ffe = 0xad1ffe) : Stays m s (State.acceptData x i0 g0 f0) := by
  unfold State.acceptData
  dsimp only
  repeat' (first | with_reducible assumption | exact Mask.of hm rfl | with_reducible apply Stays.postEvent | with_reducible apply Stays.recordAck | with_reducible apply Stays.replyBytes | with_reducible apply Stays.updFlow | with_reducible apply Stays.ite)

theorem Stays.execDataFrame {m : Nat} {s x : State} (h : Stays m s x) (l0 : LinkId) (f0 : Frame) (hm : m &&& 0xad1ffe = 0xad1ffe) : Stays m s (taken x (Machine.execDataFrame l0 f0 x)) := by
  unfold taken Machine.execDataFrame
  dsimp only
  repeat' (first | with_reducible assumption | exact Mask.of hm rfl | with_reducible apply Stays.cntLink | with_reducible apply Stays.badFrame | with_reducible refine Stays.rxRow ?_ _ _ _ _ (fun t ht => ?_) ?_ | with_reducible refine Stays.rxTid ?_ _ _ _ (fun t i g ht => ?_) ?_ | with_reducible apply Stays.answerData | with_reducible apply Stays.acceptData | with_reducible apply Stays.ite)

theorem Stays.dataAck {m : Nat} {s x : State} (h : Stays m s x) (i0 : Nat) (g0 : Nat) (f0 : Frame) (hm : m &&& 0x800068 = 0x800068) : Stays m s (State.dataAck x i0 g0 f0) := by
  unfold State.dataAck
  dsimp only
  repeat' (first | with_reducible assumption | exact Mask.of hm rfl | with_reducible apply Stays.pull | with_reducible apply Stays.putAgain | with_reducible apply Stays.recordAck | with_reducible apply Stays.updFlow | with_reducible apply Stays.ite | split)

theorem Stays.outcomeAck {m : Nat} {s x : State} (h : Stays m s x) (i0 : Nat) (g0 : Nat) (hm : m &&& 0x180003c = 0x180003c) : Stays m s (State.outcomeAck x i0 g0) := by
  unfold State.outcomeAck
  dsimp only
  repeat' (first | with_reducible assumption | exact Mask.of hm rfl | with_reducible apply Stays.dueCheck | with_reducible apply Stays.freeAbortNote | with_reducible apply Stays.freeCheck | with_reducible refine Stays.setTlyIn ?_ _ (fun _ => ⟨rfl, rfl⟩) (Mask.of hm rfl) | with_reducible refine Stays.setTly ?_ _ (Mask.of hm rfl) | with_reducible apply Stays.updEntry | with_reducible apply Stays.ite)

theorem Stays.lostAck {m : Nat} {s x : State} (h : Stays m s x) (f0 : Frame) (hm : m &&& 0x1000018 = 0x1000018) : Stays m s (State.lostAck x f0) := by
  unfold State.lostAck
  dsimp only
  repeat' (first | with_reducible assumption | exact Mask.of hm rfl | with_reducible apply Stays.freeAbortNote | with_reducible refine Stays.setTlyIn ?_ _ (fun _ => ⟨rfl, rfl⟩) (Mask.of hm rfl) | with_reducible refine Stays.setTly ?_ _ (Mask.of hm rfl) | with_reducible apply Stays.ite)

theorem Stays.execAckFrame {m : Nat} {s x : State} (h : Stays m s x) (l0 : LinkId) (f0 : Frame) (hm : m &&& 0x1ad007e = 0x1ad007e) : Stays m s (taken x (Machine.execAckFrame l0 f0 x)) := by
  unfold taken Machine.execAckFrame
  dsimp only
  repeat' (first | with_reducible assumption | exact Mask.of hm rfl | with_reducible refine Stays.rxRow ?_ _ _ _ _ (fun t ht => ?_) ?_ | with_reducible refine Stays.rxTid ?_ _ _ _ (fun t i g ht => ?_) ?_ | with_reducible apply Stays.dataAck | with_reducible apply Stays.outcomeAck | with_reducible apply Stays.lostAck | with_reducible apply Stays.ite)

theorem Stays.advance {m : Nat} {s x : State} (h : Stays m s x) (l0 : Nat) (n0 : BitVec 10) (hm : m &&& 0x20 = 0x20) : Stays m s (State.advance x l0 n0) := by
  unfold State.advance
  dsimp only
  repeat' (first | with_reducible assumption | exact Mask.of hm rfl | with_reducible apply Stays.updLink | with_reducible apply Stays.ite)

theorem Stays.replay {m : Nat} {s x : State} (h : Stays m s x) (l0 : Nat) (hm : m &&& 0x1ad007e = 0x1ad007e) : Stays m s (State.replay x l0) := by
  unfold State.replay
  dsimp only
  repeat' (first | with_reducible assumption | exact Mask.of hm rfl | with_reducible apply Stays.injEnd | with_reducible apply Stays.cntLink | with_reducible apply Stays.wire | with_reducible apply Stays.linkTo | with_reducible apply Stays.updLink | with_reducible refine Stays.foldl (fun t a ht => ?_) ?_ | with_reducible apply Stays.ite)

theorem Stays.execNakFrame {m : Nat} {s x : State} (h : Stays m s x) (l0 : LinkId) (f0 : Frame) (hm : m &&& 0x1ad007e = 0x1ad007e) : Stays m s (taken x (Machine.execNakFrame l0 f0 x)) := by
  unfold taken Machine.execNakFrame
  dsimp only
  repeat' (first | with_reducible assumption | exact Mask.of hm rfl | with_reducible apply Stays.pull | with_reducible apply Stays.stopFlow | with_reducible refine Stays.rxRow ?_ _ _ _ _ (fun t ht => ?_) ?_ | with_reducible refine Stays.rxTid ?_ _ _ _ (fun t i g ht => ?_) ?_ | with_reducible apply Stays.advance | with_reducible apply Stays.replay | with_reducible apply Stays.updFlow | with_reducible apply Stays.ite | split)

theorem Stays.credit {m : Nat} {s x : State} (h : Stays m s x) (l0 : Nat) (dl0 : Nat) (cl0 : Nat) (nrl0 : Nat) (hm : m &&& 0x20 = 0x20) : Stays m s (State.credit x l0 dl0 cl0 nrl0) := by
  unfold State.credit
  repeat' (first | with_reducible assumption | exact Mask.of hm rfl | with_reducible apply Stays.advance | with_reducible apply Stays.updLink)

theorem Stays.execCreditFrame {m : Nat} {s x : State} (h : Stays m s x) (l0 : LinkId) (f0 : Frame) (hm : m &&& 0x2d003e = 0x2d003e) : Stays m s (taken x (Machine.execCreditFrame l0 f0 x)) := by
  unfold taken Machine.execCreditFrame
  dsimp only
  repeat' (first | with_reducible assumption | exact Mask.of hm rfl | with_reducible refine Stays.rxRow ?_ _ _ _ _ (fun t ht => ?_) ?_ | with_reducible apply Stays.credit)

theorem Stays.execIdleFrame {m : Nat} {s x : State} (h : Stays m s x) (l0 : LinkId) (f0 : Frame) (hm : m &&& 0x2d003e = 0x2d003e) : Stays m s (taken x (Machine.execIdleFrame l0 f0 x)) := by
  unfold taken Machine.execIdleFrame
  dsimp only
  repeat' (first | with_reducible assumption | exact Mask.of hm rfl | with_reducible refine Stays.rxRow ?_ _ _ _ _ (fun t ht => ?_) ?_ | with_reducible apply Stays.credit | with_reducible apply Stays.updLink)

theorem Stays.probing {m : Nat} {s x : State} (h : Stays m s x) (l0 : Nat) (f0 : Frame) (hm : m &&& 0x1ad003e = 0x1ad003e) : Stays m s (State.probing x l0 f0) := by
  unfold State.probing
  dsimp only
  repeat' (first | with_reducible assumption | exact Mask.of hm rfl | with_reducible apply Stays.cntLink | with_reducible apply Stays.sendProbe | with_reducible apply Stays.badFrame | with_reducible apply Stays.toUp | with_reducible apply Stays.updLink | with_reducible apply Stays.ite)

theorem Stays.execProbeFrame {m : Nat} {s x : State} (h : Stays m s x) (l0 : LinkId) (f0 : Frame) (hm : m &&& 0x1ad007e = 0x1ad007e) : Stays m s (taken x (Machine.execProbeFrame l0 f0 x)) := by
  unfold taken Machine.execProbeFrame
  dsimp only
  repeat' (first | with_reducible assumption | exact Mask.of hm rfl | with_reducible apply Stays.sendProbe | with_reducible apply Stays.linkTo | with_reducible refine Stays.rxRow ?_ _ _ _ _ (fun t ht => ?_) ?_ | with_reducible apply Stays.probing | with_reducible apply Stays.updLink | with_reducible refine Stays.when ?_ _ (fun t ht => ?_) | with_reducible apply Stays.ite)

theorem Stays.answerQuery {m : Nat} {s x : State} (h : Stays m s x) (l0 : Nat) (f0 : Frame) (hm : m &&& 0x20 = 0x20) : Stays m s (State.answerQuery x l0 f0) := by
  unfold State.answerQuery
  repeat' (first | with_reducible assumption | exact Mask.of hm rfl | with_reducible apply Stays.queueFrame)

theorem Stays.takeReport {m : Nat} {s x : State} (h : Stays m s x) (f0 : Frame) (hm : m &&& 0x180007c = 0x180007c) : Stays m s (State.takeReport x f0) := by
  unfold State.takeReport
  repeat' (first | with_reducible assumption | exact Mask.of hm rfl | with_reducible apply Stays.partnerReport | with_reducible apply Stays.ite)

theorem Stays.execQueryFrame {m : Nat} {s x : State} (h : Stays m s x) (l0 : LinkId) (f0 : Frame) (hm : m &&& 0x1ad007e = 0x1ad007e) : Stays m s (taken x (Machine.execQueryFrame l0 f0 x)) := by
  unfold taken Machine.execQueryFrame
  dsimp only
  repeat' (first | with_reducible assumption | exact Mask.of hm rfl | with_reducible apply Stays.badFrame | with_reducible refine Stays.rxRow ?_ _ _ _ _ (fun t ht => ?_) ?_ | with_reducible apply Stays.answerQuery | with_reducible apply Stays.takeReport | with_reducible refine Stays.setTlyIn ?_ _ (fun _ => ⟨rfl, rfl⟩) (Mask.of hm rfl) | with_reducible refine Stays.setTly ?_ _ (Mask.of hm rfl) | with_reducible apply Stays.ite)

theorem Stays.execIdleInterval {m : Nat} {s x : State} (h : Stays m s x) (hm : m &&& 0x200020 = 0x200020) : Stays m s (taken x (Machine.execIdleInterval x)) := by
  unfold taken Machine.execIdleInterval
  dsimp only
  repeat' (first | with_reducible assumption | exact Mask.of hm rfl | with_reducible apply Stays.sendIdle | with_reducible apply Stays.setCh | with_reducible refine Stays.when ?_ _ (fun t ht => ?_) | with_reducible refine Stays.foldl (fun t a ht => ?_) ?_)

theorem Stays.execCreditReportTimer {m : Nat} {s x : State} (h : Stays m s x) (l0 : LinkId) (hm : m &&& 0x200020 = 0x200020) : Stays m s (taken x (Machine.execCreditReportTimer l0 x)) := by
  unfold taken Machine.execCreditReportTimer
  dsimp only
  repeat' (first | with_reducible assumption | exact Mask.of hm rfl | with_reducible apply Stays.sendCredit | with_reducible refine Stays.when ?_ _ (fun t ht => ?_))

theorem Stays.execReplayTimeout {m : Nat} {s x : State} (h : Stays m s x) (l0 : LinkId) (hm : m &&& 0x1ad007e = 0x1ad007e) : Stays m s (taken x (Machine.execReplayTimeout l0 x)) := by
  unfold taken Machine.execReplayTimeout
  dsimp only
  repeat' (first | with_reducible assumption | exact Mask.of hm rfl | with_reducible apply Stays.replay | with_reducible refine Stays.when ?_ _ (fun t ht => ?_))

theorem Stays.markSent {m : Nat} {s x : State} (h : Stays m s x) (f0 : Frame) (hm : m &&& 0x20 = 0x20) : Stays m s (State.markSent x f0) := by
  unfold State.markSent
  dsimp only
  repeat' (first | with_reducible assumption | exact Mask.of hm rfl | with_reducible apply Stays.updFlow | with_reducible apply Stays.ite | split)

theorem Stays.transmit {m : Nat} {s x : State} (h : Stays m s x) (l0 : Nat) (q0 : Queued) (hm : m &&& 0x210020 = 0x210020) : Stays m s (State.transmit x l0 q0) := by
  unfold State.transmit
  dsimp only
  repeat' (first | with_reducible assumption | exact Mask.of hm rfl | with_reducible apply Stays.wire | with_reducible apply Stays.markSent | with_reducible apply Stays.setFlt | with_reducible apply Stays.updLink | with_reducible apply Stays.ite)

theorem Stays.lifeOver {m : Nat} {s x : State} (h : Stays m s x) (l0 : Nat) (i0 : Nat) (g0 : Nat) (old0 : Stored → Bool) (hm : m &&& 0x68 = 0x68) : Stays m s (State.lifeOver x l0 i0 g0 old0) := by
  unfold State.lifeOver
  dsimp only
  repeat' (first | with_reducible assumption | exact Mask.of hm rfl | with_reducible apply Stays.cntLink | with_reducible apply Stays.stopFlow | with_reducible apply Stays.updFlow)

theorem Stays.tooOld {m : Nat} {s x : State} (h : Stays m s x) (l0 : Nat) (f0 : Frame) (hm : m &&& 0x68 = 0x68) : Stays m s (State.tooOld x l0 f0) := by
  unfold State.tooOld
  repeat' (first | with_reducible assumption | exact Mask.of hm rfl | with_reducible apply Stays.lifeOver | with_reducible apply Stays.ite | split)

theorem Stays.execFrameTransmit {m : Nat} {s x : State} (h : Stays m s x) (l0 : LinkId) (ctrl0 : Bool) (hm : m &&& 0x210068 = 0x210068) : Stays m s (taken x (Machine.execFrameTransmit l0 ctrl0 x)) := by
  unfold taken Machine.execFrameTransmit
  dsimp only
  repeat' (first | with_reducible assumption | exact Mask.of hm rfl | with_reducible apply Stays.transmit | with_reducible apply Stays.tooOld | with_reducible apply Stays.updLink | with_reducible refine Stays.when ?_ _ (fun t ht => ?_) | with_reducible apply Stays.ite | split)

theorem Stays.execAckTimeout {m : Nat} {s x : State} (h : Stays m s x) (i0 : TlyIx) (g0 : GSlot) (hm : m &&& 0x800068 = 0x800068) : Stays m s (taken x (Machine.execAckTimeout i0 g0 x)) := by
  unfold taken Machine.execAckTimeout
  dsimp only
  repeat' (first | with_reducible assumption | exact Mask.of hm rfl | with_reducible apply Stays.resendFlow | with_reducible refine Stays.when ?_ _ (fun t ht => ?_))

theorem Stays.execBusyRetryExpiry {m : Nat} {s x : State} (h : Stays m s x) (i0 : TlyIx) (g0 : GSlot) (hm : m &&& 0x800068 = 0x800068) : Stays m s (taken x (Machine.execBusyRetryExpiry i0 g0 x)) := by
  unfold taken Machine.execBusyRetryExpiry
  dsimp only
  repeat' (first | with_reducible assumption | exact Mask.of hm rfl | with_reducible apply Stays.resendFlow | with_reducible refine Stays.when ?_ _ (fun t ht => ?_))

theorem Stays.sendAgain {m : Nat} {s x : State} (h : Stays m s x) (tid0 : W32) (g0 : Nat) (query0 : Bool) (hm : m &&& 0x28 = 0x28) : Stays m s (State.sendAgain x tid0 g0 query0) := by
  unfold State.sendAgain
  repeat' (first | with_reducible assumption | exact Mask.of hm rfl | with_reducible apply Stays.sendMsg | with_reducible apply Stays.ite | split)

theorem Stays.execOutcomeResend {m : Nat} {s x : State} (h : Stays m s x) (tid0 : W32) (g0 : GSlot) (hm : m &&& 0x28 = 0x28) : Stays m s (taken x (Machine.execOutcomeResend tid0 g0 x)) := by
  unfold taken Machine.execOutcomeResend
  dsimp only
  repeat' (first | with_reducible assumption | exact Mask.of hm rfl | with_reducible apply Stays.sendAgain | with_reducible refine Stays.when ?_ _ (fun t ht => ?_))

theorem Stays.execQueryResend {m : Nat} {s x : State} (h : Stays m s x) (tid0 : W32) (g0 : GSlot) (hm : m &&& 0x28 = 0x28) : Stays m s (taken x (Machine.execQueryResend tid0 g0 x)) := by
  unfold taken Machine.execQueryResend
  dsimp only
  repeat' (first | with_reducible assumption | exact Mask.of hm rfl | with_reducible apply Stays.sendAgain | with_reducible refine Stays.when ?_ _ (fun t ht => ?_))

theorem Stays.execFrameLifeExpiry {m : Nat} {s x : State} (h : Stays m s x) (i0 : TlyIx) (g0 : GSlot) (hm : m &&& 0x68 = 0x68) : Stays m s (taken x (Machine.execFrameLifeExpiry i0 g0 x)) := by
  unfold taken Machine.execFrameLifeExpiry
  dsimp only
  repeat' (first | with_reducible assumption | exact Mask.of hm rfl | with_reducible apply Stays.lifeOver | with_reducible refine Stays.when ?_ _ (fun t ht => ?_))

theorem Stays.execChCntClear {m : Nat} {s x : State} (h : Stays m s x) (p0 : PortId) (l0 : LinkId) (val0 : W32) (hm : m &&& 0x20 = 0x20) : Stays m s (taken x (Machine.execChCntClear p0 l0 val0 x)) := by
  unfold taken Machine.execChCntClear
  dsimp only
  repeat' (first | with_reducible assumption | exact Mask.of hm rfl | with_reducible apply Stays.updLink | with_reducible refine Stays.when ?_ _ (fun t ht => ?_))

theorem Stays.fail1 {m : Nat} {s x : State} (h : Stays m s x) (l0 : Nat) (hm : m &&& 0x200020 = 0x200020) : Stays m s (State.fail1 x l0) := by
  unfold State.fail1
  dsimp only
  repeat' (first | with_reducible assumption | exact Mask.of hm rfl | with_reducible apply Stays.cntLink | with_reducible apply Stays.sendNak | with_reducible apply Stays.ite)

theorem Stays.execFramingError {m : Nat} {s x : State} (h : Stays m s x) (l0 : LinkId) (framed0 : Bool) (ev0 : RxEvent) (hm : m &&& 0x1ad003e = 0x1ad003e) : Stays m s (taken x (Machine.execFramingError l0 framed0 ev0 x)) := by
  unfold taken Machine.execFramingError
  dsimp only
  repeat' (first | with_reducible assumption | exact Mask.of hm rfl | with_reducible apply Stays.cntLink | with_reducible apply Stays.fail2 | with_reducible apply Stays.probing | with_reducible apply Stays.fail1 | with_reducible refine Stays.when ?_ _ (fun t ht => ?_) | with_reducible apply Stays.ite | split)

/-! ## Eng -/

theorem Stays.peCount {m : Nat} {s x : State} (h : Stays m s x) (e0 : Nat) (j0 : Nat) (n0 : Nat) (hm : m &&& 0x40 = 0x40) : Stays m s (State.peCount x e0 j0 n0) := by
  unfold State.peCount
  repeat' (first | with_reducible assumption | exact Mask.of hm rfl | with_reducible apply Stays.updPe | with_reducible apply Stays.ite)

theorem Stays.freezeAt {m : Nat} {s x : State} (h : Stays m s x) (e0 : Nat) (c0 : Nat) (hm : m &&& 0x40 = 0x40) : Stays m s (State.freezeAt x e0 c0) := by
  unfold State.freezeAt
  dsimp only
  repeat' (first | with_reducible assumption | exact Mask.of hm rfl | with_reducible apply Stays.peCount | with_reducible apply Stays.updLe | with_reducible apply Stays.ite | split)

theorem Stays.thaw {m : Nat} {s x : State} (h : Stays m s x) (e0 : Nat) (hm : m &&& 0x40 = 0x40) : Stays m s (State.thaw x e0) := by
  unfold State.thaw
  repeat' (first | with_reducible assumption | exact Mask.of hm rfl | with_reducible apply Stays.updLe)

theorem Stays.goIdle {m : Nat} {s x : State} (h : Stays m s x) (e0 : Nat) (hm : m &&& 0x40040 = 0x40040) : Stays m s (State.goIdle x e0) := by
  unfold State.goIdle
  repeat' (first | with_reducible assumption | exact Mask.of hm rfl | with_reducible apply Stays.releaseGrant | with_reducible apply Stays.updLe)

theorem Stays.clearLe {m : Nat} {s x : State} (h : Stays m s x) (e0 : Nat) (hm : m &&& 0x40040 = 0x40040) : Stays m s (State.clearLe x e0) := by
  unfold State.clearLe
  repeat' (first | with_reducible assumption | exact Mask.of hm rfl | with_reducible apply Stays.releaseGrant | with_reducible apply Stays.updLe)

theorem Stays.gateBack {m : Nat} {s x : State} (h : Stays m s x) (e0 : Nat) (code0 : Nat) (hm : m &&& 0x40 = 0x40) : Stays m s (State.gateBack x e0 code0) := by
  unfold State.gateBack
  repeat' (first | with_reducible assumption | exact Mask.of hm rfl | with_reducible apply Stays.thaw | with_reducible apply Stays.updLe | split)

theorem Stays.terminalTrap {m : Nat} {s x : State} (h : Stays m s x) (e0 : Nat) (cause0 : Nat) (hm : m &&& 0x1ad807e = 0x1ad807e) : Stays m s (State.terminalTrap x e0 cause0) := by
  unfold State.terminalTrap
  dsimp only
  repeat' (first | with_reducible assumption | exact Mask.of hm rfl | with_reducible apply Stays.repT | with_reducible apply Stays.abortEntry | with_reducible apply Stays.peCount | with_reducible apply Stays.goIdle | with_reducible apply Stays.gateBack | with_reducible apply Stays.setTru | with_reducible apply Stays.updPe | with_reducible apply Stays.ite)

theorem Stays.handOver {m : Nat} {s x : State} (h : Stays m s x) (e0 : Nat) (i0 : Nat) (target0 : BitVec 15) (hm : m &&& 0x80004c = 0x80004c) : Stays m s (State.handOver x e0 i0 target0) := by
  unfold State.handOver
  dsimp only
  repeat' (first | with_reducible assumption | exact Mask.of hm rfl | with_reducible apply Stays.peCount | with_reducible apply Stays.setQm | with_reducible refine Stays.setTlyIn ?_ _ (fun _ => ⟨rfl, rfl⟩) (Mask.of hm rfl) | with_reducible refine Stays.setTly ?_ _ (Mask.of hm rfl) | with_reducible apply Stays.updEntry | with_reducible apply Stays.updLe | with_reducible apply Stays.ite)

theorem Stays.execDispatch {m : Nat} {s x : State} (h : Stays m s x) (i0 : TlyIx) (e0 : LeId) (hm : m &&& 0x184007c = 0x184007c) : Stays m s (taken x (Machine.execDispatch i0 e0 x)) := by
  unfold taken Machine.execDispatch
  dsimp only
  repeat' (first | with_reducible assumption | exact Mask.of hm rfl | with_reducible apply Stays.failEntry | with_reducible apply Stays.askGrant | with_reducible apply Stays.handOver | with_reducible refine Stays.when ?_ _ (fun t ht => ?_) | with_reducible apply Stays.ite | split)

theorem Stays.dupLog {m : Nat} {s x : State} (h : Stays m s x) (n0 : Nat) (kind0 : Nat) (seq0 : Nat) (decided0 : Nat) (lane0 : Bool) (hm : m &&& 0x40 = 0x40) : Stays m s (State.dupLog x n0 kind0 seq0 decided0 lane0) := by
  unfold State.dupLog
  dsimp only
  repeat' (first | with_reducible assumption | exact Mask.of hm rfl | with_reducible apply Stays.updPe)

theorem Stays.dupLogP {m : Nat} {s x : State} (h : Stays m s x) (n0 : Nat) (kind0 : Nat) (hm : m &&& 0x40 = 0x40) : Stays m s (State.dupLogP x n0 kind0) := by
  unfold State.dupLogP
  repeat' (first | with_reducible assumption | exact Mask.of hm rfl | with_reducible apply Stays.dupLog)

theorem Stays.peReport {m : Nat} {s x : State} (h : Stays m s x) (n0 : Nat) (kind0 : Nat) (detail0 : Nat) (hm : m &&& 0x2d003e = 0x2d003e) : Stays m s (State.peReport x n0 kind0 detail0) := by
  unfold State.peReport
  dsimp only
  repeat' (first | with_reducible assumption | exact Mask.of hm rfl | with_reducible apply Stays.repT)

theorem Stays.abandonSpareTest {m : Nat} {s x : State} (h : Stays m s x) (c0 : Nat) (m0 : Nat) (hm : m &&& 0x40080 = 0x40080) : Stays m s (State.abandonSpareTest x c0 m0) := by
  unfold State.abandonSpareTest
  repeat' (first | with_reducible assumption | exact Mask.of hm rfl | with_reducible apply Stays.releaseGrant | with_reducible apply Stays.updMem | with_reducible apply Stays.ite)

theorem Stays.endReferee {m : Nat} {s x : State} (h : Stays m s x) (n0 : Nat) (hm : m &&& 0x40040 = 0x40040) : Stays m s (State.endReferee x n0) := by
  unfold State.endReferee
  repeat' (first | with_reducible assumption | exact Mask.of hm rfl | with_reducible apply Stays.releaseGrant | with_reducible apply Stays.updPe | with_reducible apply Stays.ite)

theorem Stays.persist {m : Nat} {s x : State} (h : Stays m s x) (n0 : Nat) (hm : m &&& 0x400c0 = 0x400c0) : Stays m s (State.persist x n0) := by
  unfold State.persist
  dsimp only
  repeat' (first | with_reducible assumption | exact Mask.of hm rfl | with_reducible apply Stays.askGrant | with_reducible apply Stays.abandonSpareTest | with_reducible apply Stays.updPe | split)

theorem Stays.endCluster {m : Nat} {s x : State} (h : Stays m s x) (c0 : Nat) (index0 : W32) (hm : m &&& 0x180007c = 0x180007c) : Stays m s (State.endCluster x c0 index0) := by
  unfold State.endCluster
  repeat' (first | with_reducible assumption | exact Mask.of hm rfl | with_reducible apply Stays.failEntry | with_reducible refine Stays.foldl (fun t a ht => ?_) ?_ | with_reducible apply Stays.ite | split)

theorem Stays.outOfService {m : Nat} {s x : State} (h : Stays m s x) (n0 : Nat) (e0 : Nat) (hm : m &&& 0x1ad007e = 0x1ad007e) : Stays m s (State.outOfService x n0 e0) := by
  unfold State.outOfService
  dsimp only
  repeat' (first | with_reducible assumption | exact Mask.of hm rfl | with_reducible apply Stays.clearLe | with_reducible apply Stays.dupLogP | with_reducible apply Stays.peReport | with_reducible apply Stays.endCluster | with_reducible apply Stays.setEng)

theorem Stays.takeSpare {m : Nat} {s x : State} (h : Stays m s x) (m0 : Nat) (e0 : Nat) (hm : m &&& 0x40 = 0x40) : Stays m s (State.takeSpare x m0 e0) := by
  unfold State.takeSpare
  repeat' (first | with_reducible assumption | exact Mask.of hm rfl | with_reducible apply Stays.setEng | with_reducible apply Stays.updPe)

theorem Stays.replayOn {m : Nat} {s x : State} (h : Stays m s x) (n0 : Nat) (m0 : Nat) (e0 : Nat) (hm : m &&& 0x40040 = 0x40040) : Stays m s (State.replayOn x n0 m0 e0) := by
  unfold State.replayOn
  repeat' (first | with_reducible assumption | exact Mask.of hm rfl | with_reducible apply Stays.clearLe | with_reducible apply Stays.dupLogP | with_reducible apply Stays.takeSpare | with_reducible apply Stays.updPe)

theorem Stays.noSpare {m : Nat} {s x : State} (h : Stays m s x) (n0 : Nat) (e0 : Nat) (hm : m &&& 0x1ad007e = 0x1ad007e) : Stays m s (State.noSpare x n0 e0) := by
  unfold State.noSpare
  repeat' (first | with_reducible assumption | exact Mask.of hm rfl | with_reducible apply Stays.outOfService | with_reducible apply Stays.updPe)

theorem Stays.spareLost {m : Nat} {s x : State} (h : Stays m s x) (c0 : Nat) (hm : m &&& 0x1ad007e = 0x1ad007e) : Stays m s (State.spareLost x c0) := by
  unfold State.spareLost
  dsimp only
  repeat' (first | with_reducible assumption | exact Mask.of hm rfl | with_reducible apply Stays.endReferee | with_reducible apply Stays.noSpare | with_reducible refine Stays.foldl (fun t a ht => ?_) ?_ | with_reducible apply Stays.ite)

theorem Stays.retire {m : Nat} {s x : State} (h : Stays m s x) (n0 : Nat) (single0 : Bool) (hm : m &&& 0x1ad07fe = 0x1ad07fe) : Stays m s (State.retire x n0 single0) := by
  unfold State.retire
  dsimp only
  repeat' (first | with_reducible assumption | exact Mask.of hm rfl | with_reducible apply Stays.injWithdraw | with_reducible apply Stays.flushL1 | with_reducible apply Stays.freezeAt | with_reducible apply Stays.peReport | with_reducible apply Stays.abandonSpareTest | with_reducible apply Stays.endReferee | with_reducible apply Stays.replayOn | with_reducible apply Stays.noSpare | with_reducible apply Stays.spareLost | with_reducible apply Stays.updPe | with_reducible apply Stays.ite | split)

theorem Stays.takeover {m : Nat} {s x : State} (h : Stays m s x) (n0 : Nat) (hm : m &&& 0x40 = 0x40) : Stays m s (State.takeover x n0) := by
  unfold State.takeover
  repeat' (first | with_reducible assumption | exact Mask.of hm rfl | with_reducible apply Stays.stage | with_reducible apply Stays.updPe)

theorem Stays.lanesFaulty {m : Nat} {s x : State} (h : Stays m s x) (e0 : Nat) (a0 : Bool) (b0 : Bool) (code0 : Nat) (shadow0 : Bool) (hm : m &&& 0x1ad07fe = 0x1ad07fe) : Stays m s (State.lanesFaulty x e0 a0 b0 code0 shadow0) := by
  unfold State.lanesFaulty
  dsimp only
  repeat' (first | with_reducible assumption | exact Mask.of hm rfl | with_reducible apply Stays.peCount | with_reducible apply Stays.freezeAt | with_reducible apply Stays.dupLogP | with_reducible apply Stays.endReferee | with_reducible apply Stays.retire | with_reducible apply Stays.takeover | with_reducible apply Stays.updPe | with_reducible apply Stays.ite)

theorem Stays.secondFault {m : Nat} {s x : State} (h : Stays m s x) (n0 : Nat) (e0 : Nat) (hm : m &&& 0x1ad07fe = 0x1ad07fe) : Stays m s (State.secondFault x n0 e0) := by
  unfold State.secondFault
  repeat' (first | with_reducible assumption | exact Mask.of hm rfl | with_reducible apply Stays.replayOn | with_reducible apply Stays.noSpare | with_reducible apply Stays.retire | with_reducible apply Stays.ite | split)

theorem Stays.laneCheck {m : Nat} {s x : State} (h : Stays m s x) (e0 : Nat) (laneB0 : Bool) (hm : m &&& 0x1ad07fe = 0x1ad07fe) : Stays m s (State.laneCheck x e0 laneB0) := by
  unfold State.laneCheck
  repeat' (first | with_reducible assumption | exact Mask.of hm rfl | with_reducible apply Stays.lanesFaulty | with_reducible apply Stays.secondFault | with_reducible apply Stays.ite)

theorem Stays.served {m : Nat} {s x : State} (h : Stays m s x) (e0 : Nat) (hm : m &&& 0x40 = 0x40) : Stays m s (State.served x e0) := by
  unfold State.served
  repeat' (first | with_reducible assumption | exact Mask.of hm rfl | with_reducible apply Stays.updPe | with_reducible apply Stays.ite | split)

theorem Stays.execRefereeDecision {m : Nat} {s x : State} (h : Stays m s x) (e0 : LeId) (checkA0 : Bool) (checkB0 : Bool) (ref0 : RefView) (hm : m &&& 0x1ad07fe = 0x1ad07fe) : Stays m s (taken x (Machine.execRefereeDecision e0 checkA0 checkB0 ref0 x)) := by
  unfold taken Machine.execRefereeDecision
  dsimp only
  repeat' (first | with_reducible assumption | exact Mask.of hm rfl | with_reducible apply Stays.lanesFaulty | with_reducible apply Stays.secondFault | with_reducible apply Stays.served | with_reducible refine Stays.when ?_ _ (fun t ht => ?_) | with_reducible apply Stays.ite | split)

theorem Stays.execLaneTestComplete {m : Nat} {s x : State} (h : Stays m s x) (pe0 : PeId) (result0 : LaneTest) (hm : m &&& 0x1ad07fe = 0x1ad07fe) : Stays m s (taken x (Machine.execLaneTestComplete pe0 result0 x)) := by
  unfold taken Machine.execLaneTestComplete
  dsimp only
  repeat' (first | with_reducible assumption | exact Mask.of hm rfl | with_reducible apply Stays.dupLogP | with_reducible apply Stays.retire | with_reducible apply Stays.updPe | with_reducible refine Stays.when ?_ _ (fun t ht => ?_) | with_reducible apply Stays.ite | split)

theorem Stays.execLaneResyncComplete {m : Nat} {s x : State} (h : Stays m s x) (pe0 : PeId) (hm : m &&& 0x2d007e = 0x2d007e) : Stays m s (taken x (Machine.execLaneResyncComplete pe0 x)) := by
  unfold taken Machine.execLaneResyncComplete
  dsimp only
  repeat' (first | with_reducible assumption | exact Mask.of hm rfl | with_reducible apply Stays.thaw | with_reducible apply Stays.dupLogP | with_reducible apply Stays.peReport | with_reducible apply Stays.updPe | with_reducible refine Stays.when ?_ _ (fun t ht => ?_) | with_reducible apply Stays.ite | split)

theorem Stays.settleParity {m : Nat} {s x : State} (h : Stays m s x) (hm : m &&& 0x1ad07fe = 0x1ad07fe) : Stays m s (State.settleParity x) := by
  unfold State.settleParity
  repeat' (first | with_reducible assumption | exact Mask.of hm rfl | with_reducible apply Stays.retire | with_reducible refine Stays.foldl (fun t a ht => ?_) ?_ | with_reducible apply Stays.ite)

theorem Stays.pushStage {m : Nat} {s x : State} (h : Stays m s x) (e0 : Nat) (ts0 : List (RecvQueue × W64 × W64)) (hm : m &&& 0x40 = 0x40) : Stays m s (State.pushStage x e0 ts0) := by
  unfold State.pushStage
  repeat' (first | with_reducible assumption | exact Mask.of hm rfl | with_reducible apply Stays.stage | with_reducible apply Stays.updPe)

theorem Stays.countDup {m : Nat} {s x : State} (h : Stays m s x) (e0 : Nat) (hm : m &&& 0x40 = 0x40) : Stays m s (State.countDup x e0) := by
  unfold State.countDup
  repeat' (first | with_reducible assumption | exact Mask.of hm rfl | with_reducible apply Stays.updEngCl | with_reducible apply Stays.ite)

theorem Stays.execTransportAccept {m : Nat} {s x : State} (h : Stays m s x) (e0 : LeId) (queue0 : RecvQueue) (copy0 : TransportCopy) (hm : m &&& 0x40 = 0x40) : Stays m s (taken x (Machine.execTransportAccept e0 queue0 copy0 x)) := by
  unfold taken Machine.execTransportAccept
  dsimp only
  repeat' (first | with_reducible assumption | exact Mask.of hm rfl | with_reducible apply Stays.countDup | with_reducible apply Stays.setEng | with_reducible apply Stays.updPe | with_reducible refine Stays.when ?_ _ (fun t ht => ?_) | with_reducible apply Stays.ite | split)

theorem Stays.execEngCntClear {m : Nat} {s x : State} (h : Stays m s x) (p0 : PortId) (pe0 : PeId) (val0 : W32) (hm : m &&& 0x2d007e = 0x2d007e) : Stays m s (taken x (Machine.execEngCntClear p0 pe0 val0 x)) := by
  unfold taken Machine.execEngCntClear
  dsimp only
  repeat' (first | with_reducible assumption | exact Mask.of hm rfl | with_reducible apply Stays.refuse377 | with_reducible apply Stays.updPe | with_reducible refine Stays.when ?_ _ (fun t ht => ?_) | with_reducible apply Stays.ite)

/-! ## Trust -/

theorem Stays.noticePfs {m : Nat} {s x : State} (h : Stays m s x) (hm : m &&& 0x200006 = 0x200006) : Stays m s (State.noticePfs x) := by
  unfold State.noticePfs
  repeat' (first | with_reducible assumption | exact Mask.of hm rfl | with_reducible apply Stays.setEvent)

theorem Stays.updHo {m : Nat} {s x : State} (h : Stays m s x) (d0 : Nat) (f0 : HandOver → HandOver) (hm : m &&& 0x8000 = 0x8000) : Stays m s (State.updHo x d0 f0) := by
  unfold State.updHo
  repeat' (first | with_reducible assumption | exact Mask.of hm rfl | with_reducible apply Stays.setTru)

theorem Stays.endHo {m : Nat} {s x : State} (h : Stays m s x) (h0 : HandOver) (st0 : Nat) (hm : m &&& 0x8004 = 0x8004) : Stays m s (State.endHo x h0 st0) := by
  unfold State.endHo
  repeat' (first | with_reducible assumption | exact Mask.of hm rfl | with_reducible apply Stays.finishH | with_reducible apply Stays.setTru)

theorem Stays.execHoGive {m : Nat} {s x : State} (h : Stays m s x) (d0 : W16) (hm : m &&& 0x8000 = 0x8000) : Stays m s (taken x (Machine.execHoGive d0 x)) := by
  unfold taken Machine.execHoGive
  dsimp only
  repeat' (first | with_reducible assumption | exact Mask.of hm rfl | with_reducible apply Stays.updHo | with_reducible refine Stays.when ?_ _ (fun t ht => ?_))

theorem Stays.execHoRefuse {m : Nat} {s x : State} (h : Stays m s x) (d0 : W16) (hm : m &&& 0x8004 = 0x8004) : Stays m s (taken x (Machine.execHoRefuse d0 x)) := by
  unfold taken Machine.execHoRefuse
  dsimp only
  repeat' (first | with_reducible assumption | exact Mask.of hm rfl | with_reducible apply Stays.endHo | with_reducible refine Stays.when ?_ _ (fun t ht => ?_) | split)

theorem Stays.execHoWant {m : Nat} {s x : State} (h : Stays m s x) (d0 : W16) (hm : m &&& 0x2d003e = 0x2d003e) : Stays m s (taken x (Machine.execHoWant d0 x)) := by
  unfold taken Machine.execHoWant
  dsimp only
  repeat' (first | with_reducible assumption | exact Mask.of hm rfl | with_reducible apply Stays.rep0 | with_reducible apply Stays.noticePfs | with_reducible refine Stays.when ?_ _ (fun t ht => ?_))

theorem Stays.execHoWaitExpiry {m : Nat} {s x : State} (h : Stays m s x) (d0 : W16) (hm : m &&& 0x8004 = 0x8004) : Stays m s (taken x (Machine.execHoWaitExpiry d0 x)) := by
  unfold taken Machine.execHoWaitExpiry
  dsimp only
  repeat' (first | with_reducible assumption | exact Mask.of hm rfl | with_reducible apply Stays.endHo | with_reducible refine Stays.when ?_ _ (fun t ht => ?_) | with_reducible apply Stays.ite | split)

theorem Stays.moveBlock {m : Nat} {s x : State} (h : Stays m s x) (d0 : Nat) (toSecure0 : Bool) (hm : m &&& 0x2d87fe = 0x2d87fe) : Stays m s (State.moveBlock x d0 toSecure0) := by
  unfold State.moveBlock
  dsimp only
  repeat' (first | with_reducible assumption | exact Mask.of hm rfl | with_reducible apply Stays.injWithdraw | with_reducible apply Stays.flushL1 | with_reducible apply Stays.zeroBank | with_reducible apply Stays.clearLe | with_reducible apply Stays.setTru | with_reducible refine Stays.foldl (fun t a ht => ?_) ?_ | with_reducible apply Stays.ite)

theorem Stays.execHandoverReset {m : Nat} {s x : State} (h : Stays m s x) (d0 : W16) (hm : m &&& 0x2d87fe = 0x2d87fe) : Stays m s (taken x (Machine.execHandoverReset d0 x)) := by
  unfold taken Machine.execHandoverReset
  dsimp only
  repeat' (first | with_reducible assumption | exact Mask.of hm rfl | with_reducible apply Stays.noticePfs | with_reducible apply Stays.endHo | with_reducible apply Stays.moveBlock | with_reducible refine Stays.when ?_ _ (fun t ht => ?_) | with_reducible apply Stays.ite | split)

theorem Stays.bootSecure {m : Nat} {s x : State} (h : Stays m s x) (hm : m &&& 0x48040 = 0x48040) : Stays m s (State.bootSecure x) := by
  unfold State.bootSecure
  dsimp only
  repeat' (first | with_reducible assumption | exact Mask.of hm rfl | with_reducible apply Stays.askGrant | with_reducible apply Stays.setTru | with_reducible apply Stays.updLe | split)

theorem Stays.wipeSecure {m : Nat} {s x : State} (h : Stays m s x) (hm : m &&& 0x1780 = 0x1780) : Stays m s (State.wipeSecure x) := by
  have h1 : ∀ hi : Nat, Stays m s ((upTo 16).foldl (fun t c => (t.l2Sectors c).foldl (fun u a =>
      if 64 * a < hi then (u.dropL1s c a).updMem c (fun m => m.putSec a L2Sec.init) else u) t) x) := by
    intro hi
    refine Stays.foldl (fun t a ht => ?_) h
    refine Stays.foldl (fun u b hu => ?_) ht
    exact Stays.ite (Stays.updMem (Stays.dropL1s hu _ _ (Mask.of hm rfl)) _ _ (Mask.of hm rfl)) hu
  have h2 : ∀ (hi : Nat) (y : State), Stays m s y → Stays m s { y with
      bytes := Memory.clear y.bytes 0 hi, poison := Sp.clear y.poison 0 hi, ecc := Sp.clear y.ecc 0 hi } := by
    intro hi y hy
    refine Stays.build hy _ _ _ _ _ _ _ _ _ _ _ _ _ _ _ _ _ _ _ _ _ (fun hw => Memory.wf_clear _ _ _ hw) (fun hw => hw) ?_ ?_ ?_ ?_ ?_ ?_ ?_ ?_ ?_ ?_ ?_ ?_ ?_ ?_ ?_ ?_ ?_ ?_ ?_ ?_ ?_ ?_ ?_ ?_ ?_
    all_goals (first | exact fun _ => rfl | exact fun _ => ⟨rfl, rfl⟩ | exact Mask.no hm (by decide))
  unfold State.wipeSecure
  refine Stays.foldl (fun t a ht => ?_) ?_
  · refine Stays.foldl (fun u b hu => ?_) ht
    exact Stays.zeroBank hu _ _ (Mask.of hm rfl)
  · exact h2 _ _ (Stays.setCoh (Stays.foldl (fun t a ht => Stays.updHome ht _ _ (Mask.of hm rfl)) (h1 _)) _ (Mask.of hm rfl))

theorem Stays.loneStart {m : Nat} {s x : State} (h : Stays m s x) (hm : m &&& 0x194f7fc = 0x194f7fc) : Stays m s (State.loneStart x) := by
  unfold State.loneStart
  dsimp only
  repeat' (first | with_reducible assumption | exact Mask.of hm rfl | with_reducible apply Stays.failEntry | with_reducible apply Stays.dropL1All | with_reducible apply Stays.eraseSlot | with_reducible apply Stays.endCoderOps | with_reducible apply Stays.clearLe | with_reducible apply Stays.gateBack | with_reducible apply Stays.endHo | with_reducible apply Stays.wipeSecure | with_reducible apply Stays.setTru | with_reducible refine Stays.foldl (fun t a ht => ?_) ?_ | with_reducible apply Stays.ite)

theorem Stays.execWdogKick {m : Nat} {s x : State} (h : Stays m s x) (hm : m &&& 0x8000 = 0x8000) : Stays m s (taken x (Machine.execWdogKick x)) := by
  unfold taken Machine.execWdogKick
  dsimp only
  repeat' (first | with_reducible assumption | exact Mask.of hm rfl | with_reducible apply Stays.setTru | with_reducible refine Stays.when ?_ _ (fun t ht => ?_))

theorem Stays.execSecureWatchdogExpiry {m : Nat} {s x : State} (h : Stays m s x) (hm : m &&& 0x194f7fc = 0x194f7fc) : Stays m s (taken x (Machine.execSecureWatchdogExpiry x)) := by
  unfold taken Machine.execSecureWatchdogExpiry
  dsimp only
  repeat' (first | with_reducible assumption | exact Mask.of hm rfl | with_reducible apply Stays.loneStart | with_reducible refine Stays.when ?_ _ (fun t ht => ?_))

theorem Stays.execSecRestart {m : Nat} {s x : State} (h : Stays m s x) (val0 : W32) (hm : m &&& 0x194f7fc = 0x194f7fc) : Stays m s (taken x (Machine.execSecRestart val0 x)) := by
  unfold taken Machine.execSecRestart
  dsimp only
  repeat' (first | with_reducible assumption | exact Mask.of hm rfl | with_reducible apply Stays.loneStart | with_reducible refine Stays.when ?_ _ (fun t ht => ?_))

theorem Stays.installSecure {m : Nat} {s x : State} (h : Stays m s x) (m0 : Img) (hm : m &&& 0x40 = 0x40) : Stays m s (State.installSecure x m0) := by
  unfold State.installSecure
  dsimp only
  repeat' (first | with_reducible assumption | exact Mask.of hm rfl | with_reducible apply Stays.dropWords | with_reducible apply Stays.putWords | with_reducible apply Stays.setEng | split)

theorem Stays.execLoneRestartComplete {m : Nat} {s x : State} (h : Stays m s x) (ok0 : Bool) (hm : m &&& 0x2d807e = 0x2d807e) : Stays m s (taken x (Machine.execLoneRestartComplete ok0 x)) := by
  unfold taken Machine.execLoneRestartComplete
  dsimp only
  repeat' (first | with_reducible assumption | exact Mask.of hm rfl | with_reducible apply Stays.rep0 | with_reducible apply Stays.extend | with_reducible apply Stays.bootSecure | with_reducible apply Stays.installSecure | with_reducible apply Stays.setTru | with_reducible refine Stays.when ?_ _ (fun t ht => ?_) | with_reducible refine Stays.foldl (fun t a ht => ?_) ?_ | with_reducible apply Stays.ite | split)

theorem Stays.truRefused {m : Nat} {s x : State} (h : Stays m s x) (p0 : Nat) (r0 : Nat) (hm : m &&& 0x2d003e = 0x2d003e) : Stays m s (State.truRefused x p0 r0) := by
  unfold State.truRefused
  repeat' (first | with_reducible assumption | exact Mask.of hm rfl | with_reducible apply Stays.repF)

theorem Stays.execLcCmd {m : Nat} {s x : State} (h : Stays m s x) (p0 : PortId) (target0 : BitVec 3) (hm : m &&& 0x12d003e = 0x12d003e) : Stays m s (taken x (Machine.execLcCmd p0 target0 x)) := by
  unfold taken Machine.execLcCmd
  dsimp only
  repeat' (first | with_reducible assumption | exact Mask.of hm rfl | with_reducible apply Stays.truRefused | with_reducible refine Stays.setDeckBlaze ?_ _ (fun _ => rfl) (Mask.of hm rfl) | with_reducible refine Stays.setDeckLc ?_ _ (fun _ => ⟨rfl, rfl⟩) (Mask.of hm rfl) | with_reducible refine Stays.setDeck ?_ _ (fun d hd => ?_) (Mask.of hm rfl) | with_reducible refine Stays.when ?_ _ (fun t ht => ?_) | split)

theorem Stays.installKey {m : Nat} {s x : State} (h : Stays m s x) (p0 : Nat) (key0 : List Byte) (hm : m &&& 0x12d003e = 0x12d003e) : Stays m s (State.installKey x p0 key0) := by
  unfold State.installKey
  repeat' (first | with_reducible assumption | exact Mask.of hm rfl | with_reducible apply Stays.truRefused | with_reducible refine Stays.setDeckBlaze ?_ _ (fun _ => rfl) (Mask.of hm rfl) | with_reducible refine Stays.setDeckLc ?_ _ (fun _ => ⟨rfl, rfl⟩) (Mask.of hm rfl) | with_reducible refine Stays.setDeck ?_ _ (fun d hd => ?_) (Mask.of hm rfl) | with_reducible apply Stays.ite)

theorem Stays.execOwnerKeyWrite {m : Nat} {s x : State} (h : Stays m s x) (p0 : PortId) (key0 : BitVec 768) (hm : m &&& 0x12d003e = 0x12d003e) : Stays m s (taken x (Machine.execOwnerKeyWrite p0 key0 x)) := by
  unfold taken Machine.execOwnerKeyWrite
  dsimp only
  repeat' (first | with_reducible assumption | exact Mask.of hm rfl | with_reducible apply Stays.installKey | with_reducible refine Stays.when ?_ _ (fun t ht => ?_))

theorem Stays.measExtend {m : Nat} {s x : State} (h : Stays m s x) (hm : m &&& 0x8000 = 0x8000) : Stays m s (State.measExtend x) := by
  unfold State.measExtend
  dsimp only
  repeat' (first | with_reducible assumption | exact Mask.of hm rfl | with_reducible apply Stays.extend | with_reducible apply Stays.ite)

theorem Stays.execMeasExt {m : Nat} {s x : State} (h : Stays m s x) (last0 : W64) (hm : m &&& 0x8000 = 0x8000) : Stays m s (taken x (Machine.execMeasExt last0 x)) := by
  unfold taken Machine.execMeasExt
  dsimp only
  repeat' (first | with_reducible assumption | exact Mask.of hm rfl | with_reducible apply Stays.measExtend | with_reducible refine Stays.when ?_ _ (fun t ht => ?_))
  all_goals with_reducible refine Stays.build ?_ _ _ _ _ _ _ _ _ _ _ _ _ _ _ _ _ _ _ _ _ _ ?_ ?_ ?_ ?_ ?_ ?_ ?_ ?_ ?_ ?_ ?_ ?_ ?_ ?_ ?_ ?_ ?_ ?_ ?_ ?_ ?_ ?_ ?_ ?_ ?_ ?_ ?_
  all_goals (first | exact fun hw => hw | exact fun _ => rfl | exact fun _ => ⟨rfl, rfl⟩ | exact Mask.no hm (by decide) | skip)
  repeat' (first | with_reducible assumption)

theorem Stays.debugReg {m : Nat} {s x : State} (h : Stays m s x) (fn0 : Nat) (val0 : W32) (hm : m &&& 0x2f803e = 0x2f803e) : Stays m s (State.debugReg x fn0 val0) := by
  unfold State.debugReg
  dsimp only
  repeat' (first | with_reducible assumption | exact Mask.of hm rfl | with_reducible apply Stays.repF | with_reducible apply Stays.cfgChanged | with_reducible apply Stays.extend | with_reducible apply Stays.setTru | with_reducible apply Stays.ite)

theorem Stays.execDebugWrite {m : Nat} {s x : State} (h : Stays m s x) (p0 : PortId) (val0 : W32) (hm : m &&& 0x2f803e = 0x2f803e) : Stays m s (taken x (Machine.execDebugWrite p0 val0 x)) := by
  unfold taken Machine.execDebugWrite
  dsimp only
  repeat' (first | with_reducible assumption | exact Mask.of hm rfl | with_reducible apply Stays.debugReg | with_reducible refine Stays.when ?_ _ (fun t ht => ?_))

/-! ## Faults -/

theorem Stays.countCorr {m : Nat} {s x : State} (h : Stays m s x) (u0 : Nat) (hm : m &&& 0x880 = 0x880) : Stays m s (State.countCorr x u0) := by
  unfold State.countCorr
  repeat' (first | with_reducible assumption | exact Mask.of hm rfl | with_reducible apply Stays.memCount | with_reducible apply Stays.setLnd | with_reducible apply Stays.ite)

theorem Stays.markLost {m : Nat} {s x : State} (h : Stays m s x) (u0 : Nat) (a0 : Nat) (hm : m &&& 0xa80 = 0xa80) : Stays m s (State.markLost x u0 a0) := by
  unfold State.markLost
  repeat' (first | with_reducible assumption | exact Mask.of hm rfl | with_reducible apply Stays.memCount | with_reducible apply Stays.setLnd | with_reducible apply Stays.ite | split)
  all_goals (try with_reducible refine Stays.build ?_ _ _ _ _ _ _ _ _ _ _ _ _ _ _ _ _ _ _ _ _ _ ?_ ?_ ?_ ?_ ?_ ?_ ?_ ?_ ?_ ?_ ?_ ?_ ?_ ?_ ?_ ?_ ?_ ?_ ?_ ?_ ?_ ?_ ?_ ?_ ?_ ?_ ?_)
  all_goals (first | exact fun hw => hw | exact fun _ => rfl | exact fun _ => ⟨rfl, rfl⟩ | exact Mask.no hm (by decide) | skip)
  repeat' (first | with_reducible assumption | exact Mask.of hm rfl | with_reducible apply Stays.memCount | with_reducible apply Stays.setLnd | with_reducible apply Stays.ite | split)
  all_goals (try with_reducible refine Stays.build ?_ _ _ _ _ _ _ _ _ _ _ _ _ _ _ _ _ _ _ _ _ _ ?_ ?_ ?_ ?_ ?_ ?_ ?_ ?_ ?_ ?_ ?_ ?_ ?_ ?_ ?_ ?_ ?_ ?_ ?_ ?_ ?_ ?_ ?_ ?_ ?_ ?_ ?_)
  all_goals (first | exact fun hw => hw | exact fun _ => rfl | exact fun _ => ⟨rfl, rfl⟩ | exact Mask.no hm (by decide) | skip)
  repeat' (first | with_reducible assumption | exact Mask.of hm rfl | with_reducible apply Stays.memCount | with_reducible apply Stays.setLnd | with_reducible apply Stays.ite | split)

theorem Stays.parityReport {m : Nat} {s x : State} (h : Stays m s x) (r0 : Report) (n0 : Nat) (a0 : Nat) (hm : m &&& 0x2d00fe = 0x2d00fe) : Stays m s (State.parityReport x r0 n0 a0) := by
  unfold State.parityReport
  dsimp only
  repeat' (first | with_reducible assumption | exact Mask.of hm rfl | with_reducible apply Stays.report | with_reducible apply Stays.updL1 | with_reducible apply Stays.l1Count | with_reducible apply Stays.parityFound | with_reducible apply Stays.tagFound | with_reducible apply Stays.dropSec | with_reducible apply Stays.ite | split)

theorem Stays.takeReportFlt {m : Nat} {s x : State} (h : Stays m s x) (r0 : Report) (hm : m &&& 0x1bd6ffe = 0x1bd6ffe) : Stays m s (State.takeReportFlt x r0) := by
  unfold State.takeReportFlt
  dsimp only
  repeat' (first | with_reducible assumption | exact Mask.of hm rfl | with_reducible apply Stays.report | with_reducible apply Stays.sliceFault | with_reducible apply Stays.slotLost | with_reducible apply Stays.coderFault | with_reducible apply Stays.retire | with_reducible apply Stays.countCorr | with_reducible apply Stays.markLost | with_reducible apply Stays.parityReport | with_reducible apply Stays.setLnd | with_reducible apply Stays.ite)

theorem Stays.execFaultReport {m : Nat} {s x : State} (h : Stays m s x) (rs0 : List Report) (hm : m &&& 0x1bd6ffe = 0x1bd6ffe) : Stays m s (taken x (Machine.execFaultReport rs0 x)) := by
  unfold taken Machine.execFaultReport
  dsimp only
  repeat' (first | with_reducible assumption | exact Mask.of hm rfl | with_reducible apply Stays.takeReportFlt | with_reducible refine Stays.when ?_ _ (fun t ht => ?_) | with_reducible refine Stays.foldl (fun t a ht => ?_) ?_)

theorem Stays.mpRestart {m : Nat} {s x : State} (h : Stays m s x) (hm : m &&& 0x20000 = 0x20000) : Stays m s (State.mpRestart x) := by
  unfold State.mpRestart
  repeat' (first | with_reducible assumption | exact Mask.of hm rfl | with_reducible apply Stays.setMp)

theorem Stays.execQuietPeriodExpiry {m : Nat} {s x : State} (h : Stays m s x) (c0 : Fin 3) (hm : m &&& 0x30000 = 0x30000) : Stays m s (taken x (Machine.execQuietPeriodExpiry c0 x)) := by
  unfold taken Machine.execQuietPeriodExpiry
  dsimp only
  repeat' (first | with_reducible assumption | exact Mask.of hm rfl | with_reducible apply Stays.mpRestart | with_reducible apply Stays.setFlt | with_reducible refine Stays.when ?_ _ (fun t ht => ?_) | with_reducible apply Stays.ite)

theorem Stays.clearBlaze {m : Nat} {s x : State} (h : Stays m s x) (hm : m &&& 0x10010 = 0x10010) : Stays m s (State.clearBlaze x) := by
  unfold State.clearBlaze
  repeat' (first | with_reducible assumption | exact Mask.of hm rfl | with_reducible refine Stays.setDeckBlaze ?_ _ (fun _ => rfl) (Mask.of hm rfl) | with_reducible refine Stays.setDeckLc ?_ _ (fun _ => ⟨rfl, rfl⟩) (Mask.of hm rfl) | with_reducible refine Stays.setDeck ?_ _ (fun d hd => ?_) (Mask.of hm rfl) | with_reducible apply Stays.setFlt)

theorem Stays.execBlazeClear {m : Nat} {s x : State} (h : Stays m s x) (p0 : PortId) (val0 : W32) (hm : m &&& 0x10010 = 0x10010) : Stays m s (taken x (Machine.execBlazeClear p0 val0 x)) := by
  unfold taken Machine.execBlazeClear
  dsimp only
  repeat' (first | with_reducible assumption | exact Mask.of hm rfl | with_reducible apply Stays.clearBlaze | with_reducible refine Stays.when ?_ _ (fun t ht => ?_))

theorem Stays.aliveStop {m : Nat} {s x : State} (h : Stays m s x) (hm : m &&& 0x210000 = 0x210000) : Stays m s (State.aliveStop x) := by
  unfold State.aliveStop
  dsimp only
  repeat' (first | with_reducible assumption | exact Mask.of hm rfl | with_reducible apply Stays.emit | with_reducible apply Stays.setFlt | with_reducible apply Stays.ite)

theorem Stays.aliveStart {m : Nat} {s x : State} (h : Stays m s x) (hm : m &&& 0x10000 = 0x10000) : Stays m s (State.aliveStart x) := by
  unfold State.aliveStart
  repeat' (first | with_reducible assumption | exact Mask.of hm rfl | with_reducible apply Stays.setFlt | with_reducible apply Stays.ite)

theorem Stays.execAliveToggle {m : Nat} {s x : State} (h : Stays m s x) (hm : m &&& 0x210000 = 0x210000) : Stays m s (taken x (Machine.execAliveToggle x)) := by
  unfold taken Machine.execAliveToggle
  dsimp only
  repeat' (first | with_reducible assumption | exact Mask.of hm rfl | with_reducible apply Stays.emit | with_reducible apply Stays.setFlt | with_reducible refine Stays.when ?_ _ (fun t ht => ?_))

theorem Stays.loadBusy {m : Nat} {s x : State} (h : Stays m s x) (hm : m &&& 0x1020054 = 0x1020054) : Stays m s (State.loadBusy x) := by
  unfold State.loadBusy
  repeat' (first | with_reducible assumption | exact Mask.of hm rfl | with_reducible apply Stays.finishH | with_reducible apply Stays.loadUndo | with_reducible apply Stays.load | split)

theorem Stays.mpBusy {m : Nat} {s x : State} (h : Stays m s x) (hm : m &&& 0x1020054 = 0x1020054) : Stays m s (State.mpBusy x) := by
  unfold State.mpBusy
  repeat' (first | with_reducible assumption | exact Mask.of hm rfl | with_reducible apply Stays.finish | with_reducible apply Stays.stage | with_reducible apply Stays.loadBusy | with_reducible refine Stays.foldl (fun t a ht => ?_) ?_ | with_reducible apply Stays.ite)

theorem Stays.execMpWatchdogKick {m : Nat} {s x : State} (h : Stays m s x) (hm : m &&& 0x20000 = 0x20000) : Stays m s (taken x (Machine.execMpWatchdogKick x)) := by
  unfold taken Machine.execMpWatchdogKick
  dsimp only
  repeat' (first | with_reducible assumption | exact Mask.of hm rfl | with_reducible apply Stays.setMp | with_reducible refine Stays.when ?_ _ (fun t ht => ?_))

theorem Stays.execMpWatchdogExpiry {m : Nat} {s x : State} (h : Stays m s x) (hm : m &&& 0x12f007e = 0x12f007e) : Stays m s (taken x (Machine.execMpWatchdogExpiry x)) := by
  unfold taken Machine.execMpWatchdogExpiry
  dsimp only
  repeat' (first | with_reducible assumption | exact Mask.of hm rfl | with_reducible apply Stays.rep0 | with_reducible apply Stays.aliveStop | with_reducible apply Stays.mpBusy | with_reducible apply Stays.setMp | with_reducible refine Stays.when ?_ _ (fun t ht => ?_))

theorem Stays.execMpLockstepMismatch {m : Nat} {s x : State} (h : Stays m s x) (hm : m &&& 0x12f007e = 0x12f007e) : Stays m s (taken x (Machine.execMpLockstepMismatch x)) := by
  unfold taken Machine.execMpLockstepMismatch
  dsimp only
  repeat' (first | with_reducible assumption | exact Mask.of hm rfl | with_reducible apply Stays.repT | with_reducible apply Stays.mpRestart | with_reducible apply Stays.mpBusy | with_reducible refine Stays.when ?_ _ (fun t ht => ?_))

theorem Stays.execMpRestartComplete {m : Nat} {s x : State} (h : Stays m s x) (hm : m &&& 0x30004 = 0x30004) : Stays m s (taken x (Machine.execMpRestartComplete x)) := by
  unfold taken Machine.execMpRestartComplete
  dsimp only
  repeat' (first | with_reducible assumption | exact Mask.of hm rfl | with_reducible apply Stays.injEnd | with_reducible apply Stays.aliveStart | with_reducible apply Stays.setMp | with_reducible refine Stays.when ?_ _ (fun t ht => ?_) | split)

theorem Stays.execInjectTimeout {m : Nat} {s x : State} (h : Stays m s x) (unit0 : W16) (hm : m &&& 0x10004 = 0x10004) : Stays m s (taken x (Machine.execInjectTimeout unit0 x)) := by
  unfold taken Machine.execInjectTimeout
  dsimp only
  repeat' (first | with_reducible assumption | exact Mask.of hm rfl | with_reducible apply Stays.injEnd | with_reducible refine Stays.when ?_ _ (fun t ht => ?_))

theorem Stays.injResult {m : Nat} {s x : State} (h : Stays m s x) (st0 : Nat) (v0 : Nat) (hm : m &&& 0x10000 = 0x10000) : Stays m s (State.injResult x st0 v0) := by
  unfold State.injResult
  repeat' (first | with_reducible assumption | exact Mask.of hm rfl | with_reducible apply Stays.setFlt)

theorem Stays.execInjGo {m : Nat} {s x : State} (h : Stays m s x) (val0 : W32) (hm : m &&& 0x10000 = 0x10000) : Stays m s (taken x (Machine.execInjGo val0 x)) := by
  unfold taken Machine.execInjGo
  dsimp only
  repeat' (first | with_reducible assumption | exact Mask.of hm rfl | with_reducible apply Stays.arm | with_reducible apply Stays.injResult | with_reducible apply Stays.setFlt | with_reducible refine Stays.when ?_ _ (fun t ht => ?_) | with_reducible apply Stays.ite | split)

theorem Stays.tryBankTest {m : Nat} {s x : State} (h : Stays m s x) (c0 : Nat) (b0 : Nat) (p0 : Option Nat) (h0 : Option Nat) (hm : m &&& 0x40080 = 0x40080) : Stays m s (State.tryBankTest x c0 b0 p0 h0) := by
  unfold State.tryBankTest
  dsimp only
  repeat' (first | with_reducible assumption | exact Mask.of hm rfl | with_reducible apply Stays.askGrant | with_reducible apply Stays.startBankTest | with_reducible apply Stays.updMem | with_reducible apply Stays.ite)

theorem Stays.execBankTestStart {m : Nat} {s x : State} (h : Stays m s x) (c0 : ClId) (hm : m &&& 0x40084 = 0x40084) : Stays m s (taken x (Machine.execBankTestStart c0 x)) := by
  unfold taken Machine.execBankTestStart
  dsimp only
  repeat' (first | with_reducible assumption | exact Mask.of hm rfl | with_reducible apply Stays.finishH | with_reducible apply Stays.tryBankTest | with_reducible apply Stays.updMem | with_reducible refine Stays.when ?_ _ (fun t ht => ?_) | with_reducible apply Stays.ite | split)

theorem Stays.trySpareTest {m : Nat} {s x : State} (h : Stays m s x) (c0 : Nat) (n0 : Nat) (h0 : Option Nat) (hm : m &&& 0x40080 = 0x40080) : Stays m s (State.trySpareTest x c0 n0 h0) := by
  unfold State.trySpareTest
  dsimp only
  repeat' (first | with_reducible assumption | exact Mask.of hm rfl | with_reducible apply Stays.askGrant | with_reducible apply Stays.updMem | with_reducible apply Stays.ite)

theorem Stays.execSpareEngineTestStart {m : Nat} {s x : State} (h : Stays m s x) (c0 : ClId) (hm : m &&& 0x40084 = 0x40084) : Stays m s (taken x (Machine.execSpareEngineTestStart c0 x)) := by
  unfold taken Machine.execSpareEngineTestStart
  dsimp only
  repeat' (first | with_reducible assumption | exact Mask.of hm rfl | with_reducible apply Stays.finishH | with_reducible apply Stays.trySpareTest | with_reducible apply Stays.updMem | with_reducible refine Stays.when ?_ _ (fun t ht => ?_) | with_reducible apply Stays.ite | split)

theorem Stays.testEnd {m : Nat} {s x : State} (h : Stays m s x) (u0 : Nat) (pass0 : Bool) (h0 : Option Nat) (index0 : W32) (hm : m &&& 0x50004 = 0x50004) : Stays m s (State.testEnd x u0 pass0 h0 index0) := by
  unfold State.testEnd
  dsimp only
  repeat' (first | with_reducible assumption | exact Mask.of hm rfl | with_reducible apply Stays.finishH | with_reducible apply Stays.releaseGrant | with_reducible apply Stays.setFlt | with_reducible apply Stays.ite | split)

theorem Stays.bankTested {m : Nat} {s x : State} (h : Stays m s x) (c0 : Nat) (x0 : BankTest) (pass0 : Bool) (hm : m &&& 0x2d07be = 0x2d07be) : Stays m s (State.bankTested x c0 x0 pass0) := by
  unfold State.bankTested
  dsimp only
  repeat' (first | with_reducible assumption | exact Mask.of hm rfl | with_reducible apply Stays.rep0 | with_reducible apply Stays.memTake | with_reducible apply Stays.zeroBank | with_reducible apply Stays.testEnd | with_reducible apply Stays.updMem | with_reducible apply Stays.ite | split)

theorem Stays.execBankTestPhaseEnd {m : Nat} {s x : State} (h : Stays m s x) (c0 : ClId) (pass0 : Bool) (hm : m &&& 0x2d07be = 0x2d07be) : Stays m s (taken x (Machine.execBankTestPhaseEnd c0 pass0 x)) := by
  unfold taken Machine.execBankTestPhaseEnd
  dsimp only
  repeat' (first | with_reducible assumption | exact Mask.of hm rfl | with_reducible apply Stays.memGive | with_reducible apply Stays.testEnd | with_reducible apply Stays.bankTested | with_reducible apply Stays.updMem | with_reducible refine Stays.when ?_ _ (fun t ht => ?_) | with_reducible apply Stays.ite | split)

theorem Stays.execSpareEngineTestEnd {m : Nat} {s x : State} (h : Stays m s x) (c0 : ClId) (pass0 : Bool) (hm : m &&& 0x2d00fe = 0x2d00fe) : Stays m s (taken x (Machine.execSpareEngineTestEnd c0 pass0 x)) := by
  unfold taken Machine.execSpareEngineTestEnd
  dsimp only
  repeat' (first | with_reducible assumption | exact Mask.of hm rfl | with_reducible apply Stays.rep0 | with_reducible apply Stays.injWithdraw | with_reducible apply Stays.testEnd | with_reducible apply Stays.updMem | with_reducible apply Stays.updPe | with_reducible refine Stays.when ?_ _ (fun t ht => ?_) | with_reducible apply Stays.ite | split)

theorem Stays.testContent {m : Nat} {s x : State} (h : Stays m s x) (u0 : Nat) (hm : m &&& 0x780 = 0x780) : Stays m s (State.testContent x u0) := by
  unfold State.testContent
  refine Stays.ite (Stays.dropL1All h _ _ (Mask.of hm rfl)) (Stays.ite (Stays.zeroBank h _ _ (Mask.of hm rfl)) (Stays.ite (Stays.updMem h _ _ (Mask.of hm rfl)) (Stays.ite ?_ h)))
  refine Stays.foldl (fun t a ht => Stays.updMem ht _ _ (Mask.of hm rfl)) ?_
  refine Stays.build h _ _ _ _ _ _ _ _ _ _ _ _ _ _ _ _ _ _ _ _ _ (fun _ => rfl) (fun hw => hw) ?_ ?_ ?_ ?_ ?_ ?_ ?_ ?_ ?_ ?_ ?_ ?_ ?_ ?_ ?_ ?_ ?_ ?_ ?_ ?_ ?_ ?_ ?_ ?_ ?_
  all_goals (first | exact fun _ => rfl | exact fun _ => ⟨rfl, rfl⟩ | exact Mask.no hm (by decide))

theorem Stays.testFailed {m : Nat} {s x : State} (h : Stays m s x) (u0 : Nat) (hm : m &&& 0x3d60fe = 0x3d60fe) : Stays m s (State.testFailed x u0) := by
  unfold State.testFailed
  dsimp only
  repeat' (first | with_reducible assumption | exact Mask.of hm rfl | with_reducible apply Stays.rep0 | with_reducible apply Stays.injWithdraw | with_reducible apply Stays.retireGrp | with_reducible apply Stays.retireCoder | with_reducible apply Stays.updMem | with_reducible apply Stays.updPe | with_reducible apply Stays.ite)

theorem Stays.execSelftestComplete {m : Nat} {s x : State} (h : Stays m s x) (unit0 : W16) (pass0 : Bool) (hm : m &&& 0x3d67fe = 0x3d67fe) : Stays m s (taken x (Machine.execSelftestComplete unit0 pass0 x)) := by
  unfold taken Machine.execSelftestComplete
  dsimp only
  repeat' (first | with_reducible assumption | exact Mask.of hm rfl | with_reducible apply Stays.finishH | with_reducible apply Stays.releaseGrant | with_reducible apply Stays.testContent | with_reducible apply Stays.testFailed | with_reducible apply Stays.setFlt | with_reducible refine Stays.when ?_ _ (fun t ht => ?_) | with_reducible apply Stays.ite | split)

/-! ## Power -/

theorem Stays.execPowerGrantRequest {m : Nat} {s x : State} (h : Stays m s x) (cls0 : Fin 9) (amps0 : Nat) (who0 : Nat) (hm : m &&& 0x40000 = 0x40000) : Stays m s (taken x (Machine.execPowerGrantRequest cls0 amps0 who0 x)) := by
  unfold taken Machine.execPowerGrantRequest
  dsimp only
  repeat' (first | with_reducible assumption | exact Mask.of hm rfl | with_reducible apply Stays.askGrant | with_reducible refine Stays.when ?_ _ (fun t ht => ?_))

theorem Stays.execPowerGrantRelease {m : Nat} {s x : State} (h : Stays m s x) (cls0 : Fin 9) (who0 : Nat) (hm : m &&& 0x40000 = 0x40000) : Stays m s (taken x (Machine.execPowerGrantRelease cls0 who0 x)) := by
  unfold taken Machine.execPowerGrantRelease
  dsimp only
  repeat' (first | with_reducible assumption | exact Mask.of hm rfl | with_reducible apply Stays.releaseGrant | with_reducible refine Stays.when ?_ _ (fun t ht => ?_))

theorem Stays.execPoolUpdate {m : Nat} {s x : State} (h : Stays m s x) (d0 : BitVec 10) (i0 : BitVec 10) (hm : m &&& 0x40000 = 0x40000) : Stays m s (taken x (Machine.execPoolUpdate d0 i0 x)) := by
  unfold taken Machine.execPoolUpdate
  dsimp only
  repeat' (first | with_reducible assumption | exact Mask.of hm rfl | with_reducible apply Stays.serveGrants | with_reducible apply Stays.setPwr | with_reducible refine Stays.when ?_ _ (fun t ht => ?_))

theorem Stays.execPaceRead {m : Nat} {s x : State} (h : Stays m s x) (ps0 : List Nat) (hm : m &&& 0x40000 = 0x40000) : Stays m s (taken x (Machine.execPaceRead ps0 x)) := by
  unfold taken Machine.execPaceRead
  dsimp only
  repeat' (first | with_reducible assumption | exact Mask.of hm rfl | with_reducible apply Stays.setPwr | with_reducible refine Stays.when ?_ _ (fun t ht => ?_))

theorem Stays.setTarget {m : Nat} {s x : State} (h : Stays m s x) (mv0 : Nat) (hm : m &&& 0x240000 = 0x240000) : Stays m s (State.setTarget x mv0) := by
  unfold State.setTarget
  repeat' (first | with_reducible assumption | exact Mask.of hm rfl | with_reducible apply Stays.emit | with_reducible apply Stays.setPwr | with_reducible apply Stays.ite)

theorem Stays.fixTarget {m : Nat} {s x : State} (h : Stays m s x) (hm : m &&& 0x240000 = 0x240000) : Stays m s (State.fixTarget x) := by
  unfold State.fixTarget
  repeat' (first | with_reducible assumption | exact Mask.of hm rfl | with_reducible apply Stays.setTarget | with_reducible apply Stays.ite)

theorem Stays.execPaceAdjust {m : Nat} {s x : State} (h : Stays m s x) (hm : m &&& 0x240000 = 0x240000) : Stays m s (taken x (Machine.execPaceAdjust x)) := by
  unfold taken Machine.execPaceAdjust
  dsimp only
  repeat' (first | with_reducible assumption | exact Mask.of hm rfl | with_reducible apply Stays.setTarget | with_reducible refine Stays.when ?_ _ (fun t ht => ?_))

theorem Stays.execVrmPoll {m : Nat} {s x : State} (h : Stays m s x) (vout0 : BitVec 12) (iout0 : BitVec 10) (status0 : W16) (hm : m &&& 0x240000 = 0x240000) : Stays m s (taken x (Machine.execVrmPoll vout0 iout0 status0 x)) := by
  unfold taken Machine.execVrmPoll
  dsimp only
  repeat' (first | with_reducible assumption | exact Mask.of hm rfl | with_reducible apply Stays.emit | with_reducible apply Stays.setPwr | with_reducible refine Stays.when ?_ _ (fun t ht => ?_))

theorem Stays.execVrmTransferFail {m : Nat} {s x : State} (h : Stays m s x) (hm : m &&& 0x40000 = 0x40000) : Stays m s (taken x (Machine.execVrmTransferFail x)) := by
  unfold taken Machine.execVrmTransferFail
  dsimp only
  repeat' (first | with_reducible assumption | exact Mask.of hm rfl | with_reducible apply Stays.setPwr | with_reducible refine Stays.when ?_ _ (fun t ht => ?_))

theorem Stays.execThermalSample {m : Nat} {s x : State} (h : Stays m s x) (temps0 : List Nat) (hm : m &&& 0x40000 = 0x40000) : Stays m s (taken x (Machine.execThermalSample temps0 x)) := by
  unfold taken Machine.execThermalSample
  dsimp only
  repeat' (first | with_reducible assumption | exact Mask.of hm rfl | with_reducible apply Stays.setPwr | with_reducible refine Stays.when ?_ _ (fun t ht => ?_))

theorem Stays.nvStop {m : Nat} {s x : State} (h : Stays m s x) (mv0 : BitVec 10) (hm : m &&& 0x40000 = 0x40000) : Stays m s (State.nvStop x mv0) := by
  unfold State.nvStop
  repeat' (first | with_reducible assumption | exact Mask.of hm rfl | with_reducible apply Stays.setPwr)

theorem Stays.execNvStopEnd {m : Nat} {s x : State} (h : Stays m s x) (mv0 : BitVec 10) (hm : m &&& 0x1240010 = 0x1240010) : Stays m s (taken x (Machine.execNvStopEnd mv0 x)) := by
  unfold taken Machine.execNvStopEnd
  dsimp only
  repeat' (first | with_reducible assumption | exact Mask.of hm rfl | with_reducible apply Stays.fixTarget | with_reducible refine Stays.setDeckBlaze ?_ _ (fun _ => rfl) (Mask.of hm rfl) | with_reducible refine Stays.setDeckLc ?_ _ (fun _ => ⟨rfl, rfl⟩) (Mask.of hm rfl) | with_reducible refine Stays.setDeck ?_ _ (fun d hd => ?_) (Mask.of hm rfl) | with_reducible apply Stays.setPwr | with_reducible refine Stays.when ?_ _ (fun t ht => ?_) | with_reducible apply Stays.ite)

theorem Stays.execHoldStatusUpdate {m : Nat} {s x : State} (h : Stays m s x) (vhold0 : W16) (hm : m &&& 0x40000 = 0x40000) : Stays m s (taken x (Machine.execHoldStatusUpdate vhold0 x)) := by
  unfold taken Machine.execHoldStatusUpdate
  dsimp only
  repeat' (first | with_reducible assumption | exact Mask.of hm rfl | with_reducible apply Stays.setPwr | with_reducible refine Stays.when ?_ _ (fun t ht => ?_))

theorem Stays.holdStart {m : Nat} {s x : State} (h : Stays m s x) (vhold0 : Nat) (hm : m &&& 0x40000 = 0x40000) : Stays m s (State.holdStart x vhold0) := by
  unfold State.holdStart
  repeat' (first | with_reducible assumption | exact Mask.of hm rfl | with_reducible apply Stays.setPwr | with_reducible apply Stays.ite)

theorem Stays.execHoldCheckStart {m : Nat} {s x : State} (h : Stays m s x) (vhold0 : W16) (hm : m &&& 0x40000 = 0x40000) : Stays m s (taken x (Machine.execHoldCheckStart vhold0 x)) := by
  unfold taken Machine.execHoldCheckStart
  dsimp only
  repeat' (first | with_reducible assumption | exact Mask.of hm rfl | with_reducible apply Stays.holdStart | with_reducible refine Stays.when ?_ _ (fun t ht => ?_))

theorem Stays.holdPeriodWrite {m : Nat} {s x : State} (h : Stays m s x) (f0 : Nat) (v0 : Nat) (hm : m &&& 0x40004 = 0x40004) : Stays m s (State.holdPeriodWrite x f0 v0) := by
  unfold State.holdPeriodWrite
  dsimp only
  repeat' (first | with_reducible assumption | exact Mask.of hm rfl | with_reducible apply Stays.clampFn | with_reducible apply Stays.setPwr)

theorem Stays.holdCheckWrite {m : Nat} {s x : State} (h : Stays m s x) (f0 : Nat) (v0 : Nat) (vhold0 : Nat) (hm : m &&& 0x40004 = 0x40004) : Stays m s (State.holdCheckWrite x f0 v0 vhold0) := by
  unfold State.holdCheckWrite
  dsimp only
  repeat' (first | with_reducible assumption | exact Mask.of hm rfl | with_reducible apply Stays.holdStart | with_reducible apply Stays.holdPeriodWrite | with_reducible apply Stays.setPwr | with_reducible apply Stays.ite)

theorem Stays.execHoldCheckGo {m : Nat} {s x : State} (h : Stays m s x) (p0 : PortId) (val0 : W32) (vhold0 : W32) (hm : m &&& 0x40004 = 0x40004) : Stays m s (taken x (Machine.execHoldCheckGo p0 val0 vhold0 x)) := by
  unfold taken Machine.execHoldCheckGo
  dsimp only
  repeat' (first | with_reducible assumption | exact Mask.of hm rfl | with_reducible apply Stays.holdCheckWrite | with_reducible refine Stays.when ?_ _ (fun t ht => ?_))

theorem Stays.execHoldCheckComplete {m : Nat} {s x : State} (h : Stays m s x) (vhold0 : W16) (hm : m &&& 0x40000 = 0x40000) : Stays m s (taken x (Machine.execHoldCheckComplete vhold0 x)) := by
  unfold taken Machine.execHoldCheckComplete
  dsimp only
  repeat' (first | with_reducible assumption | exact Mask.of hm rfl | with_reducible apply Stays.setPwr | with_reducible refine Stays.when ?_ _ (fun t ht => ?_) | with_reducible apply Stays.ite | split)

theorem Stays.holdCapWrite {m : Nat} {s x : State} (h : Stays m s x) (v0 : Nat) (hm : m &&& 0x1040010 = 0x1040010) : Stays m s (State.holdCapWrite x v0) := by
  unfold State.holdCapWrite
  dsimp only
  repeat' (first | with_reducible assumption | exact Mask.of hm rfl | with_reducible refine Stays.setDeckBlaze ?_ _ (fun _ => rfl) (Mask.of hm rfl) | with_reducible refine Stays.setDeckLc ?_ _ (fun _ => ⟨rfl, rfl⟩) (Mask.of hm rfl) | with_reducible refine Stays.setDeck ?_ _ (fun d hd => ?_) (Mask.of hm rfl) | with_reducible apply Stays.setPwr | with_reducible apply Stays.ite)

theorem Stays.execHoldCapWrite {m : Nat} {s x : State} (h : Stays m s x) (p0 : PortId) (val0 : W32) (hm : m &&& 0x1040010 = 0x1040010) : Stays m s (taken x (Machine.execHoldCapWrite p0 val0 x)) := by
  unfold taken Machine.execHoldCapWrite
  dsimp only
  repeat' (first | with_reducible assumption | exact Mask.of hm rfl | with_reducible apply Stays.holdCapWrite | with_reducible refine Stays.when ?_ _ (fun t ht => ?_))

theorem Stays.execPwrCntClear {m : Nat} {s x : State} (h : Stays m s x) (w0 : Who) (val0 : W32) (hm : m &&& 0x40000 = 0x40000) : Stays m s (taken x (Machine.execPwrCntClear w0 val0 x)) := by
  unfold taken Machine.execPwrCntClear
  dsimp only
  repeat' (first | with_reducible assumption | exact Mask.of hm rfl | with_reducible apply Stays.setPwr | with_reducible refine Stays.when ?_ _ (fun t ht => ?_))

theorem Stays.skidStart {m : Nat} {s x : State} (h : Stays m s x) (vhold0 : Nat) (hm : m &&& 0x6d002a = 0x6d002a) : Stays m s (State.skidStart x vhold0) := by
  unfold State.skidStart
  dsimp only
  repeat' (first | with_reducible assumption | exact Mask.of hm rfl | with_reducible apply Stays.quietLinks | with_reducible apply Stays.aliveStop | with_reducible refine Stays.updPortCore ?_ _ _ (fun _ => rfl) (Mask.of hm rfl) | with_reducible refine Stays.updPort ?_ _ _ (Mask.of hm rfl) | with_reducible refine Stays.foldl (fun t a ht => ?_) ?_ | split)
  all_goals with_reducible refine Stays.build ?_ _ _ _ _ _ _ _ _ _ _ _ _ _ _ _ _ _ _ _ _ _ ?_ ?_ ?_ ?_ ?_ ?_ ?_ ?_ ?_ ?_ ?_ ?_ ?_ ?_ ?_ ?_ ?_ ?_ ?_ ?_ ?_ ?_ ?_ ?_ ?_ ?_ ?_
  all_goals (first | exact fun hw => hw | exact fun _ => rfl | exact fun _ => ⟨rfl, rfl⟩ | exact Mask.no hm (by decide) | skip)
  repeat' (first | with_reducible assumption | exact Mask.of hm rfl | with_reducible apply Stays.quietLinks | with_reducible apply Stays.aliveStop | with_reducible refine Stays.updPortCore ?_ _ _ (fun _ => rfl) (Mask.of hm rfl) | with_reducible refine Stays.updPort ?_ _ _ (Mask.of hm rfl) | with_reducible refine Stays.foldl (fun t a ht => ?_) ?_)

theorem Stays.clocksGone {m : Nat} {s x : State} (h : Stays m s x) (hm : m &&& 0x6d002a = 0x6d002a) : Stays m s (State.clocksGone x) := by
  unfold State.clocksGone
  repeat' (first | with_reducible assumption | exact Mask.of hm rfl | with_reducible apply Stays.skidStart | with_reducible apply Stays.ite)

theorem Stays.execRefclkLoss {m : Nat} {s x : State} (h : Stays m s x) (p0 : PortId) (hm : m &&& 0x1fd70fe = 0x1fd70fe) : Stays m s (taken x (Machine.execRefclkLoss p0 x)) := by
  unfold taken Machine.execRefclkLoss
  dsimp only
  repeat' (first | with_reducible assumption | exact Mask.of hm rfl | with_reducible apply Stays.losePort | with_reducible apply Stays.clocksGone | with_reducible refine Stays.updPortCore ?_ _ _ (fun _ => rfl) (Mask.of hm rfl) | with_reducible refine Stays.updPort ?_ _ _ (Mask.of hm rfl) | with_reducible apply Stays.ite)

theorem Stays.execSagStopNvCrossing {m : Nat} {s x : State} (h : Stays m s x) (mv0 : BitVec 10) (hm : m &&& 0x6d002a = 0x6d002a) : Stays m s (taken x (Machine.execSagStopNvCrossing mv0 x)) := by
  unfold taken Machine.execSagStopNvCrossing
  dsimp only
  repeat' (first | with_reducible assumption | exact Mask.of hm rfl | with_reducible apply Stays.nvStop | with_reducible apply Stays.clocksGone | with_reducible refine Stays.when ?_ _ (fun t ht => ?_))

theorem Stays.execSagSkidCrossing {m : Nat} {s x : State} (h : Stays m s x) (mv0 : BitVec 10) (vhold0 : W16) (hm : m &&& 0x6d002a = 0x6d002a) : Stays m s (taken x (Machine.execSagSkidCrossing mv0 vhold0 x)) := by
  unfold taken Machine.execSagSkidCrossing
  dsimp only
  repeat' (first | with_reducible assumption | exact Mask.of hm rfl | with_reducible apply Stays.nvStop | with_reducible apply Stays.skidStart | with_reducible refine Stays.when ?_ _ (fun t ht => ?_))

theorem Stays.execRailUndervoltage {m : Nat} {s x : State} (h : Stays m s x) (r0 : Rail) (vhold0 : W16) (hm : m &&& 0x1fd78fe = 0x1fd78fe) : Stays m s (taken x (Machine.execRailUndervoltage r0 vhold0 x)) := by
  unfold taken Machine.execRailUndervoltage
  dsimp only
  repeat' (first | with_reducible assumption | exact Mask.of hm rfl | with_reducible apply Stays.rep0 | with_reducible apply Stays.losePort | with_reducible apply Stays.linkTo | with_reducible apply Stays.probing | with_reducible apply Stays.skidStart | with_reducible apply Stays.setLnd | with_reducible refine Stays.when ?_ _ (fun t ht => ?_) | with_reducible refine Stays.foldl (fun t a ht => ?_) ?_ | with_reducible apply Stays.ite | split)

theorem Stays.execHoldUpStoreExhausted {m : Nat} {s x : State} (h : Stays m s x) (hm : m &&& 0xc0000 = 0xc0000) : Stays m s (taken x (Machine.execHoldUpStoreExhausted x)) := by
  unfold taken Machine.execHoldUpStoreExhausted
  dsimp only
  repeat' (first | with_reducible assumption | exact Mask.of hm rfl | with_reducible apply Stays.setPwr | with_reducible apply Stays.setStart | with_reducible refine Stays.when ?_ _ (fun t ht => ?_))

/-! ## Startup -/

theorem Stays.execConfigRecordWrite {m : Nat} {s x : State} (h : Stays m s x) (hm : m &&& 0x1020010 = 0x1020010) : Stays m s (taken x (Machine.execConfigRecordWrite x)) := by
  unfold taken Machine.execConfigRecordWrite
  dsimp only
  repeat' (first | with_reducible assumption | exact Mask.of hm rfl | with_reducible refine Stays.setDeckBlaze ?_ _ (fun _ => rfl) (Mask.of hm rfl) | with_reducible refine Stays.setDeckLc ?_ _ (fun _ => ⟨rfl, rfl⟩) (Mask.of hm rfl) | with_reducible refine Stays.setDeck ?_ _ (fun d hd => ?_) (Mask.of hm rfl) | with_reducible apply Stays.setMp | with_reducible refine Stays.when ?_ _ (fun t ht => ?_))

theorem Stays.resetFrom {m : Nat} {s x : State} (h : Stays m s x) (cause0 : Nat) (hm : m &&& 0x1efffff = 0x1efffff) : Stays m s (State.resetFrom x cause0) := by
  have hl : (x.loadUndo).deck.fuse = x.deck.fuse ∧ (x.loadUndo).deck.lc = x.deck.lc := by
    unfold State.loadUndo
    generalize x.mp.undo = l
    have : ∀ (l : List (Nat × Img × Nat)) (y : State), y.deck.fuse = x.deck.fuse ∧ y.deck.lc = x.deck.lc →
        (l.foldl (fun (t : State) (z : Nat × Img × Nat) => ((t.putWords z.2.1).setDeck (fun d => { d with images := Sp.put d.images none z.1 (some z.2.1) })).setMp
          (fun k => { k with binds := Sp.put k.binds 0 z.1 z.2.2 })) y).deck.fuse = x.deck.fuse ∧
        (l.foldl (fun (t : State) (z : Nat × Img × Nat) => ((t.putWords z.2.1).setDeck (fun d => { d with images := Sp.put d.images none z.1 (some z.2.1) })).setMp
          (fun k => { k with binds := Sp.put k.binds 0 z.1 z.2.2 })) y).deck.lc = x.deck.lc := by
      intro l
      induction l with
      | nil => exact fun y hy => hy
      | cons a r ih => exact fun y hy => ih _ hy
    exact this l x ⟨rfl, rfl⟩
  have hd : x.deckKept.fuse = x.deck.fuse ∧ x.deckKept.lc = x.deck.lc := by
    unfold State.deckKept
    dsimp only
    split <;> split <;> first | exact hl | exact ⟨rfl, rfl⟩
  have ho : x.out <+: (x.aliveStop.attnDrive false).out :=
    (Stays.attnDrive (Stays.aliveStop (Stays.refl 0x3ffffff x) (by decide)) false (by decide)).sent
  unfold State.resetFrom
  exact ⟨h.queue, fun _ => rfl, fun w => hd.1.trans (h.fuse w), h.sent.trans ho, Mask.no hm (by decide), Mask.no hm (by decide), Mask.no hm (by decide), Mask.no hm (by decide), Mask.no hm (by decide), Mask.no hm (by decide), Mask.no hm (by decide), Mask.no hm (by decide), Mask.no hm (by decide), Mask.no hm (by decide), Mask.no hm (by decide), Mask.no hm (by decide), Mask.no hm (by decide), Mask.no hm (by decide), Mask.no hm (by decide), Mask.no hm (by decide), Mask.no hm (by decide), Mask.no hm (by decide), Mask.no hm (by decide), Mask.no hm (by decide), h.fresh, Mask.no hm (by decide), Mask.no hm (by decide), Mask.no hm (by decide), Mask.no hm (by decide), fun b => hd.2.trans (h.lc b)⟩

theorem Stays.release {m : Nat} {s x : State} (h : Stays m s x) (hm : m &&& 0x480003 = 0x480003) : Stays m s (State.release x) := by
  unfold State.release
  dsimp only
  repeat' (first | with_reducible assumption | exact Mask.of hm rfl | with_reducible apply Stays.setStart | with_reducible refine Stays.updPortCore ?_ _ _ (fun _ => rfl) (Mask.of hm rfl) | with_reducible refine Stays.updPort ?_ _ _ (Mask.of hm rfl) | with_reducible apply Stays.ite | split)
  all_goals with_reducible refine Stays.build ?_ _ _ _ _ _ _ _ _ _ _ _ _ _ _ _ _ _ _ _ _ _ ?_ ?_ ?_ ?_ ?_ ?_ ?_ ?_ ?_ ?_ ?_ ?_ ?_ ?_ ?_ ?_ ?_ ?_ ?_ ?_ ?_ ?_ ?_ ?_ ?_ ?_ ?_
  all_goals (first | exact fun hw => hw | exact fun _ => rfl | exact fun _ => ⟨rfl, rfl⟩ | exact Mask.no hm (by decide) | skip)
  repeat' (first | with_reducible assumption)

theorem Stays.resetHold {m : Nat} {s x : State} (h : Stays m s x) (cause0 : Nat) (hm : m &&& 0x1efffff = 0x1efffff) : Stays m s (State.resetHold x cause0) := by
  unfold State.resetHold
  dsimp only
  repeat' (first | with_reducible assumption | exact Mask.of hm rfl | with_reducible apply Stays.resetFrom | with_reducible apply Stays.setStart | with_reducible apply Stays.ite)

theorem Stays.execPowerOnReset {m : Nat} {s x : State} (h : Stays m s x) (hm : m &&& 0x1efffff = 0x1efffff) : Stays m s (taken x (Machine.execPowerOnReset x)) := by
  unfold taken Machine.execPowerOnReset
  dsimp only
  repeat' (first | with_reducible assumption | exact Mask.of hm rfl | with_reducible apply Stays.resetFrom | with_reducible apply Stays.release | with_reducible refine Stays.when ?_ _ (fun t ht => ?_) | with_reducible apply Stays.ite)

theorem Stays.execSupplyReturn {m : Nat} {s x : State} (h : Stays m s x) (mv0 : BitVec 10) (hm : m &&& 0x1efffff = 0x1efffff) : Stays m s (taken x (Machine.execSupplyReturn mv0 x)) := by
  unfold taken Machine.execSupplyReturn
  dsimp only
  repeat' (first | with_reducible assumption | exact Mask.of hm rfl | with_reducible apply Stays.resetHold | with_reducible refine Stays.when ?_ _ (fun t ht => ?_))

theorem Stays.stopAndWrite {m : Nat} {s x : State} (h : Stays m s x) (why0 : SkidWhy) (hm : m &&& 0xc0008 = 0xc0008) : Stays m s (State.stopAndWrite x why0) := by
  unfold State.stopAndWrite
  dsimp only
  repeat' (first | with_reducible assumption | exact Mask.of hm rfl | with_reducible apply Stays.askGrant | with_reducible apply Stays.setStart | with_reducible refine Stays.setTlyIn ?_ _ (fun _ => ⟨rfl, rfl⟩) (Mask.of hm rfl))

theorem Stays.resetWrite {m : Nat} {s x : State} (h : Stays m s x) (f0 : Nat) (v0 : Nat) (hm : m &&& 0x2d003e = 0x2d003e) : Stays m s (State.resetWrite x f0 v0) := by
  unfold State.resetWrite
  repeat' (first | with_reducible assumption | exact Mask.of hm rfl | with_reducible apply Stays.repF | with_reducible apply Stays.stopAndWrite | with_reducible apply Stays.setStart | with_reducible apply Stays.ite)

theorem Stays.execWarmReset {m : Nat} {s x : State} (h : Stays m s x) (p0 : PortId) (val0 : W32) (hm : m &&& 0x2d003e = 0x2d003e) : Stays m s (taken x (Machine.execWarmReset p0 val0 x)) := by
  unfold taken Machine.execWarmReset
  dsimp only
  repeat' (first | with_reducible assumption | exact Mask.of hm rfl | with_reducible apply Stays.resetWrite | with_reducible refine Stays.when ?_ _ (fun t ht => ?_))

theorem Stays.quiesceWaitWrite {m : Nat} {s x : State} (h : Stays m s x) (f0 : Nat) (v0 : Nat) (hm : m &&& 0x80004 = 0x80004) : Stays m s (State.quiesceWaitWrite x f0 v0) := by
  unfold State.quiesceWaitWrite
  dsimp only
  repeat' (first | with_reducible assumption | exact Mask.of hm rfl | with_reducible apply Stays.clampFn | with_reducible apply Stays.setStart)

theorem Stays.hpWrite {m : Nat} {s x : State} (h : Stays m s x) (f0 : Nat) (v0 : Nat) (hm : m &&& 0x80004 = 0x80004) : Stays m s (State.hpWrite x f0 v0) := by
  unfold State.hpWrite
  dsimp only
  repeat' (first | with_reducible assumption | exact Mask.of hm rfl | with_reducible apply Stays.quiesceWaitWrite | with_reducible apply Stays.setStart | with_reducible apply Stays.ite)

theorem Stays.execQuiesce {m : Nat} {s x : State} (h : Stays m s x) (p0 : PortId) (val0 : W32) (hm : m &&& 0x80004 = 0x80004) : Stays m s (taken x (Machine.execQuiesce p0 val0 x)) := by
  unfold taken Machine.execQuiesce
  dsimp only
  repeat' (first | with_reducible assumption | exact Mask.of hm rfl | with_reducible apply Stays.hpWrite | with_reducible refine Stays.when ?_ _ (fun t ht => ?_))

theorem Stays.execQuiesceDrained {m : Nat} {s x : State} (h : Stays m s x) (hm : m &&& 0xc0008 = 0xc0008) : Stays m s (taken x (Machine.execQuiesceDrained x)) := by
  unfold taken Machine.execQuiesceDrained
  dsimp only
  repeat' (first | with_reducible assumption | exact Mask.of hm rfl | with_reducible apply Stays.stopAndWrite | with_reducible refine Stays.when ?_ _ (fun t ht => ?_))

theorem Stays.execSkidImageWritten {m : Nat} {s x : State} (h : Stays m s x) (hm : m &&& 0x1efffff = 0x1efffff) : Stays m s (taken x (Machine.execSkidImageWritten x)) := by
  unfold taken Machine.execSkidImageWritten
  dsimp only
  repeat' (first | with_reducible assumption | exact Mask.of hm rfl | with_reducible apply Stays.attnDrive | with_reducible apply Stays.quietLinks | with_reducible apply Stays.releaseGrant | with_reducible apply Stays.aliveStop | with_reducible apply Stays.resetHold | with_reducible refine Stays.setDeckBlaze ?_ _ (fun _ => rfl) (Mask.of hm rfl) | with_reducible refine Stays.setDeckLc ?_ _ (fun _ => ⟨rfl, rfl⟩) (Mask.of hm rfl) | with_reducible refine Stays.setDeck ?_ _ (fun d hd => ?_) (Mask.of hm rfl) | with_reducible apply Stays.setStart | with_reducible refine Stays.when ?_ _ (fun t ht => ?_) | with_reducible apply Stays.ite | split)

theorem Stays.phaseDone {m : Nat} {s x : State} (h : Stays m s x) (ph0 : Phase) (hm : m &&& 0x80000 = 0x80000) : Stays m s (State.phaseDone x ph0) := by
  unfold State.phaseDone
  repeat' (first | with_reducible assumption | exact Mask.of hm rfl | with_reducible apply Stays.setStart | with_reducible apply Stays.ite)

theorem Stays.phaseB {m : Nat} {s x : State} (h : Stays m s x) (bad0 : Nat) (hm : m &&& 0x2f803e = 0x2f803e) : Stays m s (State.phaseB x bad0) := by
  unfold State.phaseB
  dsimp only
  repeat' (first | with_reducible assumption | exact Mask.of hm rfl | with_reducible apply Stays.rep0 | with_reducible apply Stays.extend | with_reducible apply Stays.setMp | with_reducible apply Stays.ite)

theorem Stays.phaseC {m : Nat} {s x : State} (h : Stays m s x) (hm : m &&& 0x3008818 = 0x3008818) : Stays m s (State.phaseC x) := by
  unfold State.phaseC
  dsimp only
  refine Stays.extend (Stays.extend (Stays.setLnd ?_ _ (Mask.of hm rfl)) _ _ (Mask.of hm rfl)) _ _ (Mask.of hm rfl)
  refine Stays.setTlyIn ?_ _ (fun _ => ⟨rfl, rfl⟩) (Mask.of hm rfl)
  refine Stays.setTru (Stays.setDeck h _ (fun d hd => ?_) (Mask.of hm rfl)) _ (Mask.of hm rfl)
  simp [hd]

theorem Stays.phaseD {m : Nat} {s x : State} (h : Stays m s x) (bad0 : Bool) (idle0 : Nat) (hm : m &&& 0x240800 = 0x240800) : Stays m s (State.phaseD x bad0 idle0) := by
  unfold State.phaseD
  dsimp only
  repeat' (first | with_reducible assumption | exact Mask.of hm rfl | with_reducible apply Stays.load | with_reducible apply Stays.setTarget | with_reducible apply Stays.emit | with_reducible apply Stays.setLnd | with_reducible apply Stays.setPwr | with_reducible apply Stays.ite | split)

theorem Stays.phaseE {m : Nat} {s x : State} (h : Stays m s x) (bad0 : List Nat) (hm : m &&& 0x2d0f3e = 0x2d0f3e) : Stays m s (State.phaseE x bad0) := by
  unfold State.phaseE
  refine Stays.foldl (fun t a ht => Stays.rep0 ht _ _ _ (Mask.of hm rfl)) (Stays.setLnd ?_ _ (Mask.of hm rfl))
  refine Stays.build h _ _ _ _ _ _ _ _ _ _ _ _ _ _ _ _ _ _ _ _ _ (fun _ => rfl) (fun hw => hw) ?_ ?_ ?_ ?_ ?_ ?_ ?_ ?_ ?_ ?_ ?_ ?_ ?_ ?_ ?_ ?_ ?_ ?_ ?_ ?_ ?_ ?_ ?_ ?_ ?_
  all_goals (first | exact fun _ => rfl | exact fun _ => ⟨rfl, rfl⟩ | exact Mask.no hm (by decide))

theorem Stays.installPatch {m : Nat} {s x : State} (h : Stays m s x) (bad0 : Bool) (hm : m &&& 0x2d807e = 0x2d807e) : Stays m s (State.installPatch x bad0) := by
  unfold State.installPatch
  repeat' (first | with_reducible assumption | exact Mask.of hm rfl | with_reducible apply Stays.rep0 | with_reducible apply Stays.extend | with_reducible apply Stays.setEng | with_reducible apply Stays.ite | split)

theorem Stays.installImage {m : Nat} {s x : State} (h : Stays m s x) (bad0 : Bool) (h0 : Nat) (hm : m &&& 0x12f807e = 0x12f807e) : Stays m s (State.installImage x bad0 h0) := by
  unfold State.installImage
  repeat' (first | with_reducible assumption | exact Mask.of hm rfl | with_reducible apply Stays.rep0 | with_reducible apply Stays.emptyHandles | with_reducible apply Stays.putWords | with_reducible apply Stays.extend | with_reducible apply Stays.ite | split)

theorem Stays.installSecureAtStart {m : Nat} {s x : State} (h : Stays m s x) (bad0 : Bool) (hm : m &&& 0x2d807e = 0x2d807e) : Stays m s (State.installSecureAtStart x bad0) := by
  unfold State.installSecureAtStart
  repeat' (first | with_reducible assumption | exact Mask.of hm rfl | with_reducible apply Stays.rep0 | with_reducible apply Stays.extend | with_reducible apply Stays.installSecure | with_reducible apply Stays.setTru | with_reducible apply Stays.ite | split)

theorem Stays.phaseF {m : Nat} {s x : State} (h : Stays m s x) (bad0 : List Nat) (hm : m &&& 0x12f807e = 0x12f807e) : Stays m s (State.phaseF x bad0) := by
  unfold State.phaseF
  dsimp only
  repeat' (first | with_reducible assumption | exact Mask.of hm rfl | with_reducible apply Stays.extend | with_reducible apply Stays.installPatch | with_reducible apply Stays.installImage | with_reducible apply Stays.installSecureAtStart | with_reducible refine Stays.foldl (fun t a ht => ?_) ?_)

theorem Stays.sliceBad {m : Nat} {s x : State} (h : Stays m s x) (n0 : Nat) (hm : m &&& 0x3d207e = 0x3d207e) : Stays m s (State.sliceBad x n0) := by
  unfold State.sliceBad
  dsimp only
  repeat' (first | with_reducible assumption | exact Mask.of hm rfl | with_reducible apply Stays.rep0 | with_reducible apply Stays.retireGrp | with_reducible apply Stays.updGrp | with_reducible apply Stays.ite)

theorem Stays.coderBad {m : Nat} {s x : State} (h : Stays m s x) (c0 : Nat) (hm : m &&& 0x3d407e = 0x3d407e) : Stays m s (State.coderBad x c0) := by
  unfold State.coderBad
  dsimp only
  repeat' (first | with_reducible assumption | exact Mask.of hm rfl | with_reducible apply Stays.rep0 | with_reducible apply Stays.retireCoder | with_reducible apply Stays.ite)

theorem Stays.phaseG {m : Nat} {s x : State} (h : Stays m s x) (f0 : PhaseFault) (hm : m &&& 0x1bd67fe = 0x1bd67fe) : Stays m s (State.phaseG x f0) := by
  unfold State.phaseG
  dsimp only
  repeat' (first | with_reducible assumption | exact Mask.of hm rfl | with_reducible apply Stays.retire | with_reducible apply Stays.sliceBad | with_reducible apply Stays.coderBad | with_reducible refine Stays.foldl (fun t a ht => ?_) ?_ | with_reducible apply Stays.ite)

theorem Stays.phaseH {m : Nat} {s x : State} (h : Stays m s x) (hm : m &&& 0x1ad007e = 0x1ad007e) : Stays m s (State.phaseH x) := by
  unfold State.phaseH
  dsimp only
  repeat' (first | with_reducible assumption | exact Mask.of hm rfl | with_reducible apply Stays.restore | with_reducible apply Stays.setStart | with_reducible refine Stays.setTlyIn ?_ _ (fun _ => ⟨rfl, rfl⟩) (Mask.of hm rfl) | with_reducible refine Stays.setTly ?_ _ (Mask.of hm rfl) | split)

theorem Stays.phaseI {m : Nat} {s x : State} (h : Stays m s x) (hm : m &&& 0x1000018 = 0x1000018) : Stays m s (State.phaseI x) := by
  unfold State.phaseI
  dsimp only
  repeat' (first | with_reducible assumption | exact Mask.of hm rfl | with_reducible apply Stays.ckptStart | with_reducible apply Stays.ckptEnd | split)

theorem Stays.loadConfig {m : Nat} {s x : State} (h : Stays m s x) (c0 : ConfigRec) (hm : m &&& 0x39024 = 0x39024) : Stays m s (State.loadConfig x c0) := by
  unfold State.loadConfig
  dsimp only
  repeat' (first | with_reducible assumption | exact Mask.of hm rfl | with_reducible apply Stays.setCh | with_reducible apply Stays.setCoh | with_reducible apply Stays.setFlt | with_reducible apply Stays.setMp | with_reducible apply Stays.setTru | with_reducible apply Stays.updFn | with_reducible apply Stays.updLink | with_reducible refine Stays.foldl (fun t a ht => ?_) ?_)

theorem Stays.phaseJ {m : Nat} {s x : State} (h : Stays m s x) (hm : m &&& 0x79024 = 0x79024) : Stays m s (State.phaseJ x) := by
  unfold State.phaseJ
  dsimp only
  repeat' (first | with_reducible assumption | exact Mask.of hm rfl | with_reducible apply Stays.tryTrain | with_reducible apply Stays.loadConfig | with_reducible refine Stays.foldl (fun t a ht => ?_) ?_ | split)

theorem Stays.portsReady {m : Nat} {s x : State} (h : Stays m s x) (hm : m &&& 0x400002 = 0x400002) : Stays m s (State.portsReady x) := by
  unfold State.portsReady
  repeat' (first | with_reducible assumption | exact Mask.of hm rfl | with_reducible refine Stays.updPortCore ?_ _ _ (fun _ => rfl) (Mask.of hm rfl) | with_reducible refine Stays.updPort ?_ _ _ (Mask.of hm rfl) | with_reducible refine Stays.foldl (fun t a ht => ?_) ?_)

theorem Stays.phaseK {m : Nat} {s x : State} (h : Stays m s x) (hm : m &&& 0x4d8042 = 0x4d8042) : Stays m s (State.phaseK x) := by
  unfold State.phaseK
  dsimp only
  repeat' (first | with_reducible assumption | exact Mask.of hm rfl | with_reducible apply Stays.bootSecure | with_reducible apply Stays.aliveStart | with_reducible apply Stays.portsReady | with_reducible apply Stays.setStart | with_reducible apply Stays.ite)

theorem Stays.phaseWork {m : Nat} {s x : State} (h : Stays m s x) (ph0 : Phase) (f0 : PhaseFault) (hm : m &&& 0x3bffffe = 0x3bffffe) : Stays m s (State.phaseWork x ph0 f0) := by
  unfold State.phaseWork
  repeat' (first | with_reducible assumption | exact Mask.of hm rfl | with_reducible apply Stays.rep0 | with_reducible apply Stays.phaseB | with_reducible apply Stays.phaseC | with_reducible apply Stays.phaseD | with_reducible apply Stays.phaseE | with_reducible apply Stays.phaseF | with_reducible apply Stays.phaseG | with_reducible apply Stays.phaseH | with_reducible apply Stays.phaseI | with_reducible apply Stays.phaseJ | with_reducible apply Stays.ite | split)

theorem Stays.execStartUpPhaseEnd {m : Nat} {s x : State} (h : Stays m s x) (ph0 : Phase) (f0 : PhaseFault) (hm : m &&& 0x3fffffe = 0x3fffffe) : Stays m s (taken x (Machine.execStartUpPhaseEnd ph0 f0 x)) := by
  unfold taken Machine.execStartUpPhaseEnd
  dsimp only
  repeat' (first | with_reducible assumption | exact Mask.of hm rfl | with_reducible apply Stays.phaseDone | with_reducible apply Stays.phaseK | with_reducible apply Stays.phaseWork | with_reducible refine Stays.when ?_ _ (fun t ht => ?_) | with_reducible apply Stays.ite)

/-! ## RegWrite -/

theorem Stays.baseWrite {m : Nat} {s x : State} (h : Stays m s x) (f0 : Nat) (q0 : Nat) (cq0 : Bool) (v0 : Nat) (hm : m &&& 0x2d003e = 0x2d003e) : Stays m s (State.baseWrite x f0 q0 cq0 v0) := by
  unfold State.baseWrite
  dsimp only
  repeat' (first | with_reducible assumption | exact Mask.of hm rfl | with_reducible apply Stays.clampFn | with_reducible apply Stays.advise | with_reducible apply Stays.updQueue | with_reducible apply Stays.ite)

theorem Stays.coalWrite {m : Nat} {s x : State} (h : Stays m s x) (f0 : Nat) (q0 : Nat) (v0 : Nat) (hm : m &&& 0x200006 = 0x200006) : Stays m s (State.coalWrite x f0 q0 v0) := by
  unfold State.coalWrite
  repeat' (first | with_reducible assumption | exact Mask.of hm rfl | with_reducible apply Stays.coalesce | with_reducible apply Stays.updQueue)

theorem Stays.ownWrite {m : Nat} {s x : State} (h : Stays m s x) (f0 : Nat) (r0 : Nat) (v0 : Nat) (hm : m &&& 0x1ad003e = 0x1ad003e) : Stays m s (State.ownWrite x f0 r0 v0) := by
  unfold State.ownWrite
  dsimp only
  repeat' (first | with_reducible assumption | exact Mask.of hm rfl | with_reducible apply Stays.tailWrite | with_reducible apply Stays.headWrite | with_reducible apply Stays.cfgWrite | with_reducible apply Stays.coalWrite | with_reducible apply Stays.updFn | with_reducible apply Stays.ite | split)

theorem Stays.msixWrite {m : Nat} {s x : State} (h : Stays m s x) (p0 : Nat) (f0 : Nat) (n0 : Nat) (table0 : Nat) (r0 : Nat) (v0 : Nat) (hm : m &&& 0x200002 = 0x200002) : Stays m s (State.msixWrite x p0 f0 n0 table0 r0 v0) := by
  have put : ∀ (k : Nat) (y : Msix), Stays m s (x.updPort p0 (fun q => { q with msix := Sp.put q.msix Msix.init k y })) :=
    fun k y => Stays.updPortCore h _ _ (fun _ => rfl) (Mask.of hm rfl)
  rw [State.msixWrite]
  refine Stays.ite h ?_
  split
  · exact put _ _
  · exact put _ _
  · exact put _ _
  · exact Stays.ite (Stays.emit (put _ _) _ (Mask.of hm rfl)) (put _ _)

theorem Stays.fnWrite {m : Nat} {s x : State} (h : Stays m s x) (f0 : Nat) (g0 : Nat) (r0 : Nat) (v0 : Nat) (hm : m &&& 0x220006 = 0x220006) : Stays m s (State.fnWrite x f0 g0 r0 v0) := by
  unfold State.fnWrite
  dsimp only
  repeat' (first | with_reducible assumption | exact Mask.of hm rfl | with_reducible apply Stays.clampFn | with_reducible apply Stays.setQuotaRegs | with_reducible apply Stays.setExpertReg | with_reducible apply Stays.updFn | split)

theorem Stays.winWrite {m : Nat} {s x : State} (h : Stays m s x) (f0 : Nat) (m0 : Nat) (w0 : Nat) (b0 : Bool) (v0 : Nat) (hm : m &&& 0x4 = 0x4) : Stays m s (State.winWrite x f0 m0 w0 b0 v0) := by
  unfold State.winWrite
  dsimp only
  repeat' (first | with_reducible assumption | exact Mask.of hm rfl | with_reducible apply Stays.clampFn | with_reducible apply Stays.updWin | with_reducible apply Stays.ite)

theorem Stays.tlyCtrlWrite {m : Nat} {s x : State} (h : Stays m s x) (f0 : Nat) (v0 : Nat) (hm : m &&& 0x2000c = 0x2000c) : Stays m s (State.tlyCtrlWrite x f0 v0) := by
  unfold State.tlyCtrlWrite
  dsimp only
  repeat' (first | with_reducible assumption | exact Mask.of hm rfl | with_reducible apply Stays.clampFn | with_reducible apply Stays.cfgChanged | with_reducible refine Stays.setTlyIn ?_ _ (fun _ => ⟨rfl, rfl⟩) (Mask.of hm rfl))

theorem Stays.tlyWrite {m : Nat} {s x : State} (h : Stays m s x) (r0 : Nat) (v0 : Nat) (hm : m &&& 0x180007c = 0x180007c) : Stays m s (State.tlyWrite x r0 v0) := by
  unfold State.tlyWrite
  repeat' (first | with_reducible assumption | exact Mask.of hm rfl | with_reducible apply Stays.rlogNext | with_reducible refine Stays.setTlyIn ?_ _ (fun _ => ⟨rfl, rfl⟩) (Mask.of hm rfl) | with_reducible refine Stays.setTly ?_ _ (Mask.of hm rfl) | with_reducible apply Stays.ite | split)

theorem Stays.chGlobalWrite {m : Nat} {s x : State} (h : Stays m s x) (f0 : Nat) (v0 : Nat) (hm : m &&& 0x20024 = 0x20024) : Stays m s (State.chGlobalWrite x f0 v0) := by
  unfold State.chGlobalWrite
  dsimp only
  repeat' (first | with_reducible assumption | exact Mask.of hm rfl | with_reducible apply Stays.clampFn | with_reducible apply Stays.cfgChanged | with_reducible apply Stays.setCh)

theorem Stays.engWrite {m : Nat} {s x : State} (h : Stays m s x) (w0 : Who) (r0 : Nat) (v0 : Nat) (hm : m &&& 0x2d007e = 0x2d007e) : Stays m s (State.engWrite x w0 r0 v0) := by
  rw [State.engWrite]
  refine Stays.ite (Stays.ite h (Stays.ite (Stays.refuse377 h _ _ (Mask.of hm rfl)) (Stays.ite (Stays.updPe h _ _ (Mask.of hm rfl)) h))) ?_
  split
  · exact Stays.updEngCl (Stays.clampFn h _ _ (Mask.of hm rfl)) _ _ (Mask.of hm rfl)
  · exact Stays.updEngCl (Stays.clampFn h _ _ (Mask.of hm rfl)) _ _ (Mask.of hm rfl)
  · exact h

theorem Stays.memWrite {m : Nat} {s x : State} (h : Stays m s x) (w0 : Who) (c0 : Nat) (r0 : Nat) (v0 : Nat) (hm : m &&& 0x2d00be = 0x2d00be) : Stays m s (State.memWrite x w0 c0 r0 v0) := by
  unfold State.memWrite
  dsimp only
  repeat' (first | with_reducible assumption | exact Mask.of hm rfl | with_reducible apply Stays.clampFn | with_reducible apply Stays.updL1 | with_reducible apply Stays.maintStart | with_reducible apply Stays.l1Ctrl | with_reducible apply Stays.l2Ctrl | with_reducible apply Stays.updMem | with_reducible refine Stays.foldl (fun t a ht => ?_) ?_ | with_reducible apply Stays.ite | split)

theorem Stays.cohCtrlWrite {m : Nat} {s x : State} (h : Stays m s x) (f0 : Nat) (v0 : Nat) (hm : m &&& 0x21004 = 0x21004) : Stays m s (State.cohCtrlWrite x f0 v0) := by
  unfold State.cohCtrlWrite
  dsimp only
  repeat' (first | with_reducible assumption | exact Mask.of hm rfl | with_reducible apply Stays.clampFn | with_reducible apply Stays.cfgChanged | with_reducible apply Stays.setCoh)

theorem Stays.eaWrite {m : Nat} {s x : State} (h : Stays m s x) (f0 : Nat) (k0 : Nat) (limit0 : Bool) (v0 : Nat) (hm : m &&& 0x1004 = 0x1004) : Stays m s (State.eaWrite x f0 k0 limit0 v0) := by
  unfold State.eaWrite
  dsimp only
  repeat' (first | with_reducible assumption | exact Mask.of hm rfl | with_reducible apply Stays.clampFn | with_reducible apply Stays.setCoh | with_reducible apply Stays.ite)

theorem Stays.lndCtrlWrite {m : Nat} {s x : State} (h : Stays m s x) (f0 : Nat) (v0 : Nat) (hm : m &&& 0x804 = 0x804) : Stays m s (State.lndCtrlWrite x f0 v0) := by
  unfold State.lndCtrlWrite
  dsimp only
  repeat' (first | with_reducible assumption | exact Mask.of hm rfl | with_reducible apply Stays.clampFn | with_reducible apply Stays.setLnd)

theorem Stays.limitWrite {m : Nat} {s x : State} (h : Stays m s x) (f0 : Nat) (gal0 : Bool) (v0 : Nat) (hm : m &&& 0x6004 = 0x6004) : Stays m s (State.limitWrite x f0 gal0 v0) := by
  unfold State.limitWrite
  dsimp only
  repeat' (first | with_reducible assumption | exact Mask.of hm rfl | with_reducible apply Stays.clampFn | with_reducible apply Stays.ite | split)
  all_goals with_reducible refine Stays.build ?_ _ _ _ _ _ _ _ _ _ _ _ _ _ _ _ _ _ _ _ _ _ ?_ ?_ ?_ ?_ ?_ ?_ ?_ ?_ ?_ ?_ ?_ ?_ ?_ ?_ ?_ ?_ ?_ ?_ ?_ ?_ ?_ ?_ ?_ ?_ ?_ ?_ ?_
  all_goals (first | exact fun hw => hw | exact fun _ => rfl | exact fun _ => ⟨rfl, rfl⟩ | exact Mask.no hm (by decide) | skip)
  repeat' (first | with_reducible assumption | exact Mask.of hm rfl | with_reducible apply Stays.clampFn)

theorem Stays.truNo {m : Nat} {s x : State} (h : Stays m s x) (w0 : Who) (r0 : Nat) (hm : m &&& 0x2d003e = 0x2d003e) : Stays m s (State.truNo x w0 r0) := by
  unfold State.truNo
  repeat' (first | with_reducible assumption | exact Mask.of hm rfl | with_reducible apply Stays.repF)

theorem Stays.wmWrite {m : Nat} {s x : State} (h : Stays m s x) (w0 : Who) (v0 : Nat) (hm : m &&& 0x12d003e = 0x12d003e) : Stays m s (State.wmWrite x w0 v0) := by
  unfold State.wmWrite
  dsimp only
  repeat' (first | with_reducible assumption | exact Mask.of hm rfl | with_reducible apply Stays.clampFn | with_reducible apply Stays.truNo | with_reducible refine Stays.setDeckBlaze ?_ _ (fun _ => rfl) (Mask.of hm rfl) | with_reducible refine Stays.setDeckLc ?_ _ (fun _ => ⟨rfl, rfl⟩) (Mask.of hm rfl) | with_reducible refine Stays.setDeck ?_ _ (fun d hd => ?_) (Mask.of hm rfl) | with_reducible apply Stays.ite)

theorem Stays.bootWrite {m : Nat} {s x : State} (h : Stays m s x) (w0 : Who) (v0 : Nat) (hm : m &&& 0x12d003e = 0x12d003e) : Stays m s (State.bootWrite x w0 v0) := by
  unfold State.bootWrite
  dsimp only
  repeat' (first | with_reducible assumption | exact Mask.of hm rfl | with_reducible apply Stays.clampFn | with_reducible apply Stays.truNo | with_reducible refine Stays.setDeckBlaze ?_ _ (fun _ => rfl) (Mask.of hm rfl) | with_reducible refine Stays.setDeckLc ?_ _ (fun _ => ⟨rfl, rfl⟩) (Mask.of hm rfl) | with_reducible refine Stays.setDeck ?_ _ (fun d hd => ?_) (Mask.of hm rfl) | with_reducible apply Stays.ite)

theorem Stays.hoCmd {m : Nat} {s x : State} (h : Stays m s x) (v0 : Nat) (hm : m &&& 0x2d803e = 0x2d803e) : Stays m s (State.hoCmd x v0) := by
  unfold State.hoCmd
  dsimp only
  repeat' (first | with_reducible assumption | exact Mask.of hm rfl | with_reducible apply Stays.execHoGive | with_reducible apply Stays.execHoRefuse | with_reducible apply Stays.execHoWant | with_reducible apply Stays.ite)

theorem Stays.truSecWrite {m : Nat} {s x : State} (h : Stays m s x) (r0 : Nat) (v0 : Nat) (hm : m &&& 0x1bdf7fe = 0x1bdf7fe) : Stays m s (State.truSecWrite x r0 v0) := by
  unfold State.truSecWrite
  dsimp only
  repeat' (first | with_reducible assumption | exact Mask.of hm rfl | with_reducible apply Stays.loneStart | with_reducible apply Stays.execWdogKick | with_reducible apply Stays.measExtend | with_reducible apply Stays.hoCmd | with_reducible apply Stays.setTru | with_reducible apply Stays.ite | split)

theorem Stays.truWrite {m : Nat} {s x : State} (h : Stays m s x) (w0 : Who) (r0 : Nat) (v0 : Nat) (hm : m &&& 0x1bff7fe = 0x1bff7fe) : Stays m s (State.truWrite x w0 r0 v0) := by
  unfold State.truWrite
  dsimp only
  repeat' (first | with_reducible assumption | exact Mask.of hm rfl | with_reducible apply Stays.clampFn | with_reducible apply Stays.cfgChanged | with_reducible apply Stays.execLcCmd | with_reducible apply Stays.installKey | with_reducible apply Stays.debugReg | with_reducible apply Stays.truNo | with_reducible apply Stays.bootWrite | with_reducible apply Stays.truSecWrite | with_reducible apply Stays.setTru | with_reducible apply Stays.ite | split)

theorem Stays.bgCtrlWrite {m : Nat} {s x : State} (h : Stays m s x) (f0 : Nat) (v0 : Nat) (hm : m &&& 0x2d003e = 0x2d003e) : Stays m s (State.bgCtrlWrite x f0 v0) := by
  unfold State.bgCtrlWrite
  dsimp only
  repeat' (first | with_reducible assumption | exact Mask.of hm rfl | with_reducible apply Stays.clampFn | with_reducible apply Stays.repF | with_reducible apply Stays.setFlt | with_reducible apply Stays.ite)

theorem Stays.injWrite {m : Nat} {s x : State} (h : Stays m s x) (r0 : Nat) (v0 : Nat) (hm : m &&& 0x10000 = 0x10000) : Stays m s (State.injWrite x r0 v0) := by
  unfold State.injWrite
  repeat' (first | with_reducible assumption | exact Mask.of hm rfl | with_reducible apply Stays.execInjGo | with_reducible apply Stays.setFlt | split)

theorem Stays.fltWrite {m : Nat} {s x : State} (h : Stays m s x) (w0 : Who) (r0 : Nat) (v0 : Nat) (hm : m &&& 0x2f003e = 0x2f003e) : Stays m s (State.fltWrite x w0 r0 v0) := by
  unfold State.fltWrite
  dsimp only
  repeat' (first | with_reducible assumption | exact Mask.of hm rfl | with_reducible apply Stays.clampFn | with_reducible apply Stays.repF | with_reducible apply Stays.cfgChanged | with_reducible apply Stays.setExit | with_reducible apply Stays.clearBlaze | with_reducible apply Stays.bgCtrlWrite | with_reducible apply Stays.injWrite | with_reducible apply Stays.setFlt | with_reducible apply Stays.ite | split)

theorem Stays.vctlWrite {m : Nat} {s x : State} (h : Stays m s x) (f0 : Nat) (v0 : Nat) (hm : m &&& 0x260004 = 0x260004) : Stays m s (State.vctlWrite x f0 v0) := by
  unfold State.vctlWrite
  dsimp only
  repeat' (first | with_reducible assumption | exact Mask.of hm rfl | with_reducible apply Stays.clampFn | with_reducible apply Stays.cfgChanged | with_reducible apply Stays.fixTarget | with_reducible apply Stays.setPwr)

theorem Stays.sagWrite {m : Nat} {s x : State} (h : Stays m s x) (f0 : Nat) (v0 : Nat) (hm : m &&& 0x60004 = 0x60004) : Stays m s (State.sagWrite x f0 v0) := by
  unfold State.sagWrite
  dsimp only
  repeat' (first | with_reducible assumption | exact Mask.of hm rfl | with_reducible apply Stays.clampFn | with_reducible apply Stays.cfgChanged | with_reducible apply Stays.setPwr)

theorem Stays.pwrWrite {m : Nat} {s x : State} (h : Stays m s x) (f0 : Nat) (r0 : Nat) (v0 : Nat) (hm : m &&& 0x1060014 = 0x1060014) : Stays m s (State.pwrWrite x f0 r0 v0) := by
  unfold State.pwrWrite
  dsimp only
  repeat' (first | with_reducible assumption | exact Mask.of hm rfl | with_reducible apply Stays.clampFn | with_reducible apply Stays.cfgChanged | with_reducible apply Stays.holdCheckWrite | with_reducible apply Stays.holdCapWrite | with_reducible apply Stays.sagWrite | with_reducible apply Stays.setPwr | with_reducible apply Stays.ite | split)

theorem Stays.wideWrite {m : Nat} {s x : State} (h : Stays m s x) (w0 : Who) (o0 : Nat) (v0 : Nat) (hm : m &&& 0x1af10fe = 0x1af10fe) : Stays m s (State.wideWrite x w0 o0 v0) := by
  unfold State.wideWrite
  dsimp only
  repeat' (first | with_reducible assumption | exact Mask.of hm rfl | with_reducible apply Stays.linkCfgWrite | with_reducible apply Stays.baseWrite | with_reducible apply Stays.winWrite | with_reducible apply Stays.tlyCtrlWrite | with_reducible apply Stays.chGlobalWrite | with_reducible apply Stays.cohCtrlWrite | with_reducible apply Stays.eaWrite | with_reducible apply Stays.wmWrite | with_reducible apply Stays.vctlWrite | with_reducible apply Stays.setFlt | with_reducible apply Stays.updMem | with_reducible apply Stays.ite | split)

theorem Stays.narrowWrite {m : Nat} {s x : State} (h : Stays m s x) (w0 : Who) (o0 : Nat) (v0 : Nat) (hm : m &&& 0x1bffffe = 0x1bffffe) : Stays m s (State.narrowWrite x w0 o0 v0) := by
  unfold State.narrowWrite
  dsimp only
  repeat' (first | with_reducible assumption | exact Mask.of hm rfl | with_reducible apply Stays.resetWrite | with_reducible apply Stays.hpWrite | with_reducible apply Stays.ownWrite | with_reducible apply Stays.fnWrite | with_reducible apply Stays.tlyWrite | with_reducible apply Stays.engWrite | with_reducible apply Stays.memWrite | with_reducible apply Stays.lndCtrlWrite | with_reducible apply Stays.limitWrite | with_reducible apply Stays.truWrite | with_reducible apply Stays.fltWrite | with_reducible apply Stays.pwrWrite | with_reducible apply Stays.setLnd | with_reducible apply Stays.updCoder | with_reducible apply Stays.updGrp | with_reducible apply Stays.updHome | with_reducible apply Stays.updLink | with_reducible refine Stays.foldl (fun t a ht => ?_) ?_ | with_reducible apply Stays.ite | split)

theorem Stays.regWrite {m : Nat} {s x : State} (h : Stays m s x) (w0 : Who) (off0 : Nat) (wide0 : Bool) (val0 : Nat) (hm : m &&& 0x1bffffe = 0x1bffffe) : Stays m s (State.regWrite x w0 off0 wide0 val0) := by
  unfold State.regWrite
  dsimp only
  repeat' (first | with_reducible assumption | exact Mask.of hm rfl | with_reducible apply Stays.wideWrite | with_reducible apply Stays.narrowWrite | with_reducible apply Stays.ite)

theorem Stays.vfNarrow {m : Nat} {s x : State} (h : Stays m s x) (p0 : Nat) (f0 : Nat) (r0 : Nat) (v0 : Nat) (hm : m &&& 0x1ad003e = 0x1ad003e) : Stays m s (State.vfNarrow x p0 f0 r0 v0) := by
  unfold State.vfNarrow
  repeat' (first | with_reducible assumption | exact Mask.of hm rfl | with_reducible apply Stays.ownWrite | with_reducible apply Stays.msixWrite | with_reducible apply Stays.ite)

theorem Stays.vfWrite {m : Nat} {s x : State} (h : Stays m s x) (p0 : Nat) (f0 : Nat) (off0 : Nat) (wide0 : Bool) (val0 : Nat) (hm : m &&& 0x1ad003e = 0x1ad003e) : Stays m s (State.vfWrite x p0 f0 off0 wide0 val0) := by
  unfold State.vfWrite
  dsimp only
  repeat' (first | with_reducible assumption | exact Mask.of hm rfl | with_reducible apply Stays.baseWrite | with_reducible apply Stays.vfNarrow | with_reducible apply Stays.ite)

theorem Stays.bar2Write {m : Nat} {s x : State} (h : Stays m s x) (p0 : Nat) (off0 : Nat) (wide0 : Bool) (val0 : Nat) (hm : m &&& 0x200002 = 0x200002) : Stays m s (State.bar2Write x p0 off0 wide0 val0) := by
  unfold State.bar2Write
  dsimp only
  repeat' (first | with_reducible assumption | exact Mask.of hm rfl | with_reducible apply Stays.msixWrite | with_reducible apply Stays.ite)

theorem Stays.execRegisterWrite {m : Nat} {s x : State} (h : Stays m s x) (via0 : Via) (off0 : BitVec 24) (wide0 : Bool) (val0 : W64) (hm : m &&& 0x1bffffe = 0x1bffffe) : Stays m s (taken x (Machine.execRegisterWrite via0 off0 wide0 val0 x)) := by
  unfold taken Machine.execRegisterWrite
  dsimp only
  repeat' (first | with_reducible assumption | exact Mask.of hm rfl | with_reducible apply Stays.regWrite | with_reducible apply Stays.vfWrite | with_reducible apply Stays.bar2Write | with_reducible refine Stays.when ?_ _ (fun t ht => ?_) | split)

theorem Stays.execEmptyOffsetAccess {m : Nat} {s x : State} (h : Stays m s x) (via0 : Via) (off0 : BitVec 24) (isWrite0 : Bool) (hm : m &&& 0x2d003e = 0x2d003e) : Stays m s (taken x (Machine.execEmptyOffsetAccess via0 off0 isWrite0 x)) := by
  unfold taken Machine.execEmptyOffsetAccess
  dsimp only
  repeat' (first | with_reducible assumption | exact Mask.of hm rfl | with_reducible apply Stays.repF | with_reducible apply Stays.emit | with_reducible refine Stays.when ?_ _ (fun t ht => ?_) | with_reducible apply Stays.ite)

/-! ## Sideband -/

theorem Stays.smbNack {m : Nat} {s x : State} (h : Stays m s x) (cmd0 : Nat) (hm : m &&& 0x200000 = 0x200000) : Stays m s (State.smbNack x cmd0) := by
  unfold State.smbNack
  repeat' (first | with_reducible assumption | exact Mask.of hm rfl | with_reducible apply Stays.emit)

theorem Stays.execSmbPointer {m : Nat} {s x : State} (h : Stays m s x) (val0 : W32) (pecOk0 : Bool) (hm : m &&& 0x210000 = 0x210000) : Stays m s (taken x (Machine.execSmbPointer val0 pecOk0 x)) := by
  unfold taken Machine.execSmbPointer
  dsimp only
  repeat' (first | with_reducible assumption | exact Mask.of hm rfl | with_reducible apply Stays.smbNack | with_reducible apply Stays.setFlt | with_reducible refine Stays.when ?_ _ (fun t ht => ?_) | with_reducible apply Stays.ite)

theorem Stays.execSmbRead {m : Nat} {s x : State} (h : Stays m s x) (pecOk0 : Bool) (hm : m &&& 0x210000 = 0x210000) : Stays m s (taken x (Machine.execSmbRead pecOk0 x)) := by
  unfold taken Machine.execSmbRead
  dsimp only
  repeat' (first | with_reducible assumption | exact Mask.of hm rfl | with_reducible apply Stays.smbNack | with_reducible apply Stays.emit | with_reducible apply Stays.setFlt | with_reducible refine Stays.when ?_ _ (fun t ht => ?_) | with_reducible apply Stays.ite)

theorem Stays.execSmbWrite {m : Nat} {s x : State} (h : Stays m s x) (val0 : W64) (pecOk0 : Bool) (hm : m &&& 0x2d003e = 0x2d003e) : Stays m s (taken x (Machine.execSmbWrite val0 pecOk0 x)) := by
  unfold taken Machine.execSmbWrite
  dsimp only
  repeat' (first | with_reducible assumption | exact Mask.of hm rfl | with_reducible apply Stays.rep0 | with_reducible apply Stays.clearBlaze | with_reducible apply Stays.smbNack | with_reducible refine Stays.when ?_ _ (fun t ht => ?_) | with_reducible apply Stays.ite)

theorem Stays.execAlertResponse {m : Nat} {s x : State} (h : Stays m s x) (hm : m &&& 0x200000 = 0x200000) : Stays m s (taken x (Machine.execAlertResponse x)) := by
  unfold taken Machine.execAlertResponse
  dsimp only
  repeat' (first | with_reducible assumption | exact Mask.of hm rfl | with_reducible apply Stays.emit | with_reducible refine Stays.when ?_ _ (fun t ht => ?_))

theorem Stays.execSmbusTimeout {m : Nat} {s x : State} (h : Stays m s x) (hm : m &&& 0x0 = 0x0) : Stays m s (taken x (Machine.execSmbusTimeout x)) := by
  unfold taken Machine.execSmbusTimeout
  dsimp only
  repeat' (first | with_reducible assumption)

theorem Stays.execJtagInstruction {m : Nat} {s x : State} (h : Stays m s x) (i0 : JtagIns) (hm : m &&& 0x310000 = 0x310000) : Stays m s (taken x (Machine.execJtagInstruction i0 x)) := by
  unfold taken Machine.execJtagInstruction
  dsimp only
  repeat' (first | with_reducible assumption | exact Mask.of hm rfl | with_reducible apply Stays.emit | with_reducible apply Stays.setFlt | with_reducible refine Stays.when ?_ _ (fun t ht => ?_) | split)
  all_goals (try with_reducible refine Stays.build ?_ _ _ _ _ _ _ _ _ _ _ _ _ _ _ _ _ _ _ _ _ _ ?_ ?_ ?_ ?_ ?_ ?_ ?_ ?_ ?_ ?_ ?_ ?_ ?_ ?_ ?_ ?_ ?_ ?_ ?_ ?_ ?_ ?_ ?_ ?_ ?_ ?_ ?_)
  all_goals (first | exact fun hw => hw | exact fun _ => rfl | exact fun _ => ⟨rfl, rfl⟩ | exact Mask.no hm (by decide) | skip)
  repeat' (first | with_reducible assumption | exact Mask.of hm rfl | with_reducible apply Stays.emit | with_reducible apply Stays.setFlt | with_reducible refine Stays.when ?_ _ (fun t ht => ?_) | split)
  all_goals (try with_reducible refine Stays.build ?_ _ _ _ _ _ _ _ _ _ _ _ _ _ _ _ _ _ _ _ _ _ ?_ ?_ ?_ ?_ ?_ ?_ ?_ ?_ ?_ ?_ ?_ ?_ ?_ ?_ ?_ ?_ ?_ ?_ ?_ ?_ ?_ ?_ ?_ ?_ ?_ ?_ ?_)
  all_goals (first | exact fun hw => hw | exact fun _ => rfl | exact fun _ => ⟨rfl, rfl⟩ | exact Mask.no hm (by decide) | skip)
  repeat' (first | with_reducible assumption | exact Mask.of hm rfl | with_reducible apply Stays.emit | with_reducible apply Stays.setFlt | with_reducible refine Stays.when ?_ _ (fun t ht => ?_) | split)

end Sys2Proof.Machine
end

