-- ==== Sys2Proof/Laws/StaysEngines.lean ====
section
/-! SUPPORT. No operation undoes what `Kept` names: one lemma for each operation of the engine steps. -/

namespace Sys2Proof.Machine

/-! ## EngMem -/

theorem Stays.tallyRead {m : Nat} {s x : State} (h : Stays m s x) (e0 : Nat) (a0 : Nat) (n0 : Nat) (hm : m &&& 0x2d003e = 0x2d003e) : Stays m s (State.tallyRead x e0 a0 n0).1 := by
  unfold State.tallyRead
  dsimp only
  repeat' (first | with_reducible assumption | exact Mask.of hm rfl | with_reducible apply Stays.tallyAdvise)

theorem Stays.devLoad {m : Nat} {s x : State} (h : Stays m s x) (e0 : Nat) (a0 : Nat) (n0 : Nat) (hm : m &&& 0x2d003e = 0x2d003e) : Stays m s (State.devLoad x e0 a0 n0).1 := by
  unfold State.devLoad
  repeat' (first | with_reducible assumption | exact Mask.of hm rfl | with_reducible apply Stays.repT | with_reducible apply Stays.ite | split)

theorem Stays.engReq {m : Nat} {s x : State} (h : Stays m s x) (e0 : Nat) (a0 : Nat) (hpa0 : Nat) (k0 : ReqKind) (mask0 : W64) (d0 : Sector) (hm : m &&& 0x1000 = 0x1000) : Stays m s (State.engReq x e0 a0 hpa0 k0 mask0 d0) := by
  unfold State.engReq
  repeat' (first | with_reducible assumption | exact Mask.of hm rfl | with_reducible apply Stays.sendReq)

theorem Stays.flushed {m : Nat} {s x : State} (h : Stays m s x) (c0 : Nat) (n0 : Nat) (hm : m &&& 0x2d07fe = 0x2d07fe) : Stays m s (State.flushed x c0 n0) := by
  unfold State.flushed
  repeat' (first | with_reducible assumption | exact Mask.of hm rfl | with_reducible apply Stays.l2Clean | with_reducible apply Stays.gather | with_reducible apply Stays.dropSec)

theorem Stays.l2Read {m : Nat} {s x : State} (h : Stays m s x) (e0 : Nat) (a0 : Nat) (hpa0 : Nat) (hm : m &&& 0x2d17fe = 0x2d17fe) : Stays m s (State.l2Read x e0 a0 hpa0).1 := by
  unfold State.l2Read
  dsimp only
  repeat' (first | with_reducible assumption | exact Mask.of hm rfl | with_reducible apply Stays.memCount | with_reducible apply Stays.l2Touch | with_reducible apply Stays.gather | with_reducible apply Stays.l1Fill | with_reducible apply Stays.engReq | with_reducible apply Stays.flushed | with_reducible apply Stays.ite | split)

theorem Stays.l1Use {m : Nat} {s x : State} (h : Stays m s x) (e0 : Nat) (n0 : Nat) (hm : m &&& 0x2d07fe = 0x2d07fe) : Stays m s (State.l1Use x e0 n0) := by
  unfold State.l1Use
  dsimp only
  repeat' (first | with_reducible assumption | exact Mask.of hm rfl | with_reducible apply Stays.updL1 | with_reducible apply Stays.l1Count | with_reducible apply Stays.writeBack)

theorem Stays.l1Miss {m : Nat} {s x : State} (h : Stays m s x) (e0 : Nat) (hm : m &&& 0x80 = 0x80) : Stays m s (State.l1Miss x e0) := by
  unfold State.l1Miss
  repeat' (first | with_reducible assumption | exact Mask.of hm rfl | with_reducible apply Stays.l1Count | with_reducible apply Stays.ite)

theorem Stays.cacheRead {m : Nat} {s x : State} (h : Stays m s x) (e0 : Nat) (a0 : Nat) (hpa0 : Nat) (hm : m &&& 0x2d17fe = 0x2d17fe) : Stays m s (State.cacheRead x e0 a0 hpa0).1 := by
  unfold State.cacheRead
  dsimp only
  repeat' (first | with_reducible assumption | exact Mask.of hm rfl | with_reducible apply Stays.parityFound | with_reducible apply Stays.l2Read | with_reducible apply Stays.l1Use | with_reducible apply Stays.l1Miss | with_reducible apply Stays.ite | split)

theorem Stays.fly {m : Nat} {s x : State} (h : Stays m s x) (e0 : Nat) (f0 : InFlight) (hm : m &&& 0x40 = 0x40) : Stays m s (State.fly x e0 f0) := by
  unfold State.fly
  repeat' (first | with_reducible assumption | exact Mask.of hm rfl | with_reducible apply Stays.updLe)

theorem Stays.loadCached {m : Nat} {s x : State} (h : Stays m s x) (e0 : Nat) (a0 : Nat) (n0 : Nat) (hpa0 : Nat) (hm : m &&& 0x2d17fe = 0x2d17fe) : Stays m s (State.loadCached x e0 a0 n0 hpa0) := by
  unfold State.loadCached
  dsimp only
  repeat' (first | with_reducible assumption | exact Mask.of hm rfl | with_reducible apply Stays.cacheRead | with_reducible apply Stays.fly | split)

theorem Stays.loadGo {m : Nat} {s x : State} (h : Stays m s x) (e0 : Nat) (a0 : Nat) (n0 : Nat) (hm : m &&& 0x2d17fe = 0x2d17fe) : Stays m s (State.loadGo x e0 a0 n0) := by
  unfold State.loadGo
  dsimp only
  repeat' (first | with_reducible assumption | exact Mask.of hm rfl | with_reducible apply Stays.scrCheck | with_reducible apply Stays.tallyRead | with_reducible apply Stays.devLoad | with_reducible apply Stays.fly | with_reducible apply Stays.loadCached | with_reducible apply Stays.ite | split)

theorem Stays.addStore {m : Nat} {s x : State} (h : Stays m s x) (e0 : Nat) (a0 : Nat) (n0 : Nat) (v0 : W64) (hm : m &&& 0x40 = 0x40) : Stays m s (State.addStore x e0 a0 n0 v0) := by
  unfold State.addStore
  repeat' (first | with_reducible assumption | exact Mask.of hm rfl | with_reducible apply Stays.updLe)

theorem Stays.storeLanding {m : Nat} {s x : State} (h : Stays m s x) (e0 : Nat) (a0 : Nat) (n0 : Nat) (v0 : W64) (hm : m &&& 0x2d17fe = 0x2d17fe) : Stays m s (State.storeLanding x e0 a0 n0 v0) := by
  unfold State.storeLanding
  dsimp only
  repeat' (first | with_reducible assumption | exact Mask.of hm rfl | with_reducible apply Stays.memCount | with_reducible apply Stays.l1Count | with_reducible apply Stays.l2Check | with_reducible apply Stays.l1Store | with_reducible apply Stays.performStores | with_reducible apply Stays.engReq | with_reducible apply Stays.flushed | with_reducible apply Stays.addStore | with_reducible apply Stays.ite)

theorem Stays.devStore {m : Nat} {s x : State} (h : Stays m s x) (a0 : Nat) (n0 : Nat) (v0 : W64) (hm : m &&& 0x1bffffe = 0x1bffffe) : Stays m s (State.devStore x a0 n0 v0) := by
  unfold State.devStore
  dsimp only
  repeat' (first | with_reducible assumption | exact Mask.of hm rfl | with_reducible apply Stays.regWrite | with_reducible apply Stays.ite)

theorem Stays.storeGo {m : Nat} {s x : State} (h : Stays m s x) (e0 : Nat) (a0 : Nat) (n0 : Nat) (v0 : W64) (hm : m &&& 0x1bffffe = 0x1bffffe) : Stays m s (State.storeGo x e0 a0 n0 v0) := by
  unfold State.storeGo
  dsimp only
  repeat' (first | with_reducible assumption | exact Mask.of hm rfl | with_reducible apply Stays.scrWrite | with_reducible apply Stays.dropSec | with_reducible apply Stays.engReq | with_reducible apply Stays.addStore | with_reducible apply Stays.storeLanding | with_reducible apply Stays.devStore | with_reducible apply Stays.ite | split)

theorem Stays.engGet {m : Nat} {s x : State} (h : Stays m s x) (h0 : HostIn) (e0 : Nat) (a0 : Nat) (hm : m &&& 0x2d1ffe = 0x2d1ffe) : Stays m s (State.engGet x h0 e0 a0) := by
  unfold State.engGet
  dsimp only
  repeat' (first | with_reducible assumption | exact Mask.of hm rfl | with_reducible apply Stays.parityFound | with_reducible apply Stays.l1Fill | with_reducible apply Stays.unitGet | with_reducible apply Stays.l1Use | with_reducible apply Stays.l1Miss | with_reducible apply Stays.ite | split)

theorem Stays.engFetch {m : Nat} {s x : State} (h : Stays m s x) (h0 : HostIn) (e0 : Nat) (a0 : Nat) (n0 : Nat) (hm : m &&& 0x2d1ffe = 0x2d1ffe) : Stays m s (State.engFetch x h0 e0 a0 n0) := by
  unfold State.engFetch
  dsimp only
  repeat' (first | with_reducible assumption | exact Mask.of hm rfl | with_reducible apply Stays.tallyAdvise | with_reducible apply Stays.scrFetch | with_reducible apply Stays.devLoad | with_reducible apply Stays.engGet | with_reducible refine Stays.foldl (fun t a ht => ?_) ?_ | with_reducible apply Stays.ite)

theorem Stays.flushWriter {m : Nat} {s x : State} (h : Stays m s x) (e0 : Nat) (hm : m &&& 0x2d07fe = 0x2d07fe) : Stays m s (State.flushWriter x e0) := by
  unfold State.flushWriter
  dsimp only
  repeat' (first | with_reducible assumption | exact Mask.of hm rfl | with_reducible apply Stays.l2Clean | with_reducible apply Stays.gather | with_reducible refine Stays.foldl (fun t a ht => ?_) ?_ | with_reducible apply Stays.ite)

/-! ## EngStep -/

theorem Stays.ready {m : Nat} {s x : State} (h : Stays m s x) (e0 : Nat) (hm : m &&& 0x40 = 0x40) : Stays m s (State.ready x e0) := by
  unfold State.ready
  repeat' (first | with_reducible assumption | exact Mask.of hm rfl | with_reducible apply Stays.updLe)

theorem Stays.advance0 {m : Nat} {s x : State} (h : Stays m s x) (e0 : Nat) (w0 : Nat) (a0 : Adv) (hm : m &&& 0x40 = 0x40) : Stays m s (State.advance0 x e0 w0 a0) := by
  unfold State.advance0
  dsimp only
  repeat' (first | with_reducible assumption | exact Mask.of hm rfl | with_reducible apply Stays.updLe | with_reducible apply Stays.ite)

theorem Stays.badReqOf {m : Nat} {s x : State} (h : Stays m s x) (e0 : Nat) (t0 : W32) (queue0 : Nat) (refused0 : Bool) (hm : m &&& 0x48 = 0x48) : Stays m s (State.badReqOf x e0 t0 queue0 refused0) := by
  unfold State.badReqOf
  repeat' (first | with_reducible assumption | exact Mask.of hm rfl | with_reducible apply Stays.postTo)

theorem Stays.badReq {m : Nat} {s x : State} (h : Stays m s x) (e0 : Nat) (queue0 : Nat) (refused0 : Bool) (hm : m &&& 0x48 = 0x48) : Stays m s (State.badReq x e0 queue0 refused0) := by
  unfold State.badReq
  repeat' (first | with_reducible assumption | exact Mask.of hm rfl | with_reducible apply Stays.badReqOf)

theorem Stays.chSend {m : Nat} {s x : State} (h : Stays m s x) (i0 : Nat) (g0 : Nat) (f0 : Frame) (desc0 : Bool) (expect0 : Bool) (hm : m &&& 0xad007e = 0xad007e) : Stays m s (State.chSend x i0 g0 f0 desc0 expect0) := by
  unfold State.chSend
  dsimp only
  repeat' (first | with_reducible assumption | exact Mask.of hm rfl | with_reducible apply Stays.queueFrame | with_reducible apply Stays.loseGroup | with_reducible apply Stays.cntLink | with_reducible apply Stays.updEntry | with_reducible apply Stays.updFlow | with_reducible apply Stays.ite | split)

theorem Stays.chTake {m : Nat} {s x : State} (h : Stays m s x) (h0 : HostIn) (e0 : Nat) (r0 : ChReq) (hm : m &&& 0xad1ffe = 0xad1ffe) : Stays m s (State.chTake x h0 e0 r0) := by
  unfold State.chTake
  dsimp only
  repeat' (first | with_reducible assumption | exact Mask.of hm rfl | with_reducible apply Stays.lateMessage | with_reducible apply Stays.unitFetch | with_reducible apply Stays.badReqOf | with_reducible apply Stays.chSend | with_reducible apply Stays.updFlow | with_reducible apply Stays.ite | split)

theorem Stays.takeChs {m : Nat} {s x : State} (h : Stays m s x) (h0 : HostIn) (e0 : Nat) (l0 : List ChReq) (hm : m &&& 0xad1ffe = 0xad1ffe) : Stays m s (State.takeChs x h0 e0 l0) := by
  induction l0 generalizing x with
  | nil => exact h
  | cons r rs ih =>
    rw [State.takeChs]
    exact Stays.ite (ih (Stays.chTake (Stays.updLe h _ _ (Mask.of hm rfl)) _ _ _ (Mask.of hm rfl))) h

theorem Stays.takeCh {m : Nat} {s x : State} (h : Stays m s x) (h0 : HostIn) (e0 : Nat) (hm : m &&& 0xad1ffe = 0xad1ffe) : Stays m s (State.takeCh x h0 e0) := by
  exact Stays.takeChs h _ _ _ (Mask.of hm rfl)

theorem Stays.chRequest {m : Nat} {s x : State} (h : Stays m s x) (e0 : Nat) (a0 : W64) (w0 : W64) (hm : m &&& 0x40 = 0x40) : Stays m s (State.chRequest x e0 a0 w0) := by
  unfold State.chRequest
  repeat' (first | with_reducible assumption | exact Mask.of hm rfl | with_reducible apply Stays.updLe)

theorem Stays.galRequest {m : Nat} {s x : State} (h : Stays m s x) (e0 : Nat) (w00 : W64) (w10 : W64) (w20 : W64) (w30 : W64) (hm : m &&& 0x404c = 0x404c) : Stays m s (State.galRequest x e0 w00 w10 w20 w30) := by
  unfold State.galRequest
  dsimp only
  repeat' (first | with_reducible assumption | exact Mask.of hm rfl | with_reducible apply Stays.svcDone | with_reducible apply Stays.takeGal | with_reducible apply Stays.badReq | with_reducible apply Stays.updLe | with_reducible apply Stays.ite)

theorem Stays.cphRequest {m : Nat} {s x : State} (h : Stays m s x) (e0 : Nat) (w00 : W64) (w10 : W64) (w20 : W64) (w30 : W64) (hm : m &&& 0x204c = 0x204c) : Stays m s (State.cphRequest x e0 w00 w10 w20 w30) := by
  unfold State.cphRequest
  dsimp only
  refine Stays.ite (Stays.badReq h _ _ _ (Mask.of hm rfl)) (Stays.ite (Stays.badReq h _ _ _ (Mask.of hm rfl)) (Stays.ite (Stays.svcDone h _ _ _ _ (Mask.of hm rfl)) (Stays.ite (Stays.svcDone h _ _ _ _ (Mask.of hm rfl))
    (Stays.ite ?_ (Stays.takeCph (Stays.updLe h _ _ (Mask.of hm rfl)) _ (Mask.of hm rfl))))))
  generalize hd : State.drawIv x _ = d
  have hk : Stays m s d.1 := hd ▸ Stays.drawIv h _ (Mask.of hm rfl)
  obtain ⟨t, o⟩ := d
  cases o with
  | none => exact Stays.svcDone hk _ _ _ _ (Mask.of hm rfl)
  | some v => exact Stays.takeCph (Stays.updLe hk _ _ (Mask.of hm rfl)) _ (Mask.of hm rfl)

theorem Stays.trigger {m : Nat} {s x : State} (h : Stays m s x) (e0 : Nat) (d0 : Nat) (o0 : UnitOut) (hm : m &&& 0x40 = 0x40) : Stays m s (State.trigger x e0 d0 o0) := by
  unfold State.trigger
  repeat' (first | with_reducible assumption | exact Mask.of hm rfl | with_reducible apply Stays.fly)

theorem Stays.access {m : Nat} {s x : State} (h : Stays m s x) (e0 : Nat) (w0 : Nat) (v0 : W64) (hm : m &&& 0x1bffffe = 0x1bffffe) : Stays m s (State.access x e0 w0 v0) := by
  unfold State.access
  dsimp only
  repeat' (first | with_reducible assumption | exact Mask.of hm rfl | with_reducible apply Stays.loadGo | with_reducible apply Stays.storeGo | with_reducible apply Stays.updLe | with_reducible apply Stays.ite)

theorem Stays.queueWord {m : Nat} {s x : State} (h : Stays m s x) (e0 : Nat) (d0 : Nat) (v0 : W64) (drop0 : Bool) (hm : m &&& 0x604c = 0x604c) : Stays m s (State.queueWord x e0 d0 v0 drop0) := by
  unfold State.queueWord
  dsimp only
  repeat' (first | with_reducible assumption | exact Mask.of hm rfl | with_reducible apply Stays.chRequest | with_reducible apply Stays.galRequest | with_reducible apply Stays.cphRequest | with_reducible apply Stays.updLe | with_reducible apply Stays.ite | split)

theorem Stays.doneWrite {m : Nat} {s x : State} (h : Stays m s x) (e0 : Nat) (hm : m &&& 0x604c = 0x604c) : Stays m s (State.doneWrite x e0) := by
  unfold State.doneWrite
  repeat' (first | with_reducible assumption | exact Mask.of hm rfl | with_reducible apply Stays.takeCph | with_reducible apply Stays.takeGal | with_reducible apply Stays.updLe)

theorem Stays.moveTo {m : Nat} {s x : State} (h : Stays m s x) (e0 : Nat) (w0 : Nat) (v0 : W64) (drop0 : Bool) (hm : m &&& 0x1bffffe = 0x1bffffe) : Stays m s (State.moveTo x e0 w0 v0 drop0).1 := by
  unfold State.moveTo
  dsimp only
  repeat' (first | with_reducible assumption | exact Mask.of hm rfl | with_reducible apply Stays.trigger | with_reducible apply Stays.access | with_reducible apply Stays.queueWord | with_reducible apply Stays.doneWrite | with_reducible apply Stays.updLe | with_reducible apply Stays.ite | split)

theorem Stays.gateEnter {m : Nat} {s x : State} (h : Stays m s x) (e0 : Nat) (target0 : BitVec 15) (hm : m &&& 0x40 = 0x40) : Stays m s (State.gateEnter x e0 target0) := by
  unfold State.gateEnter
  dsimp only
  repeat' (first | with_reducible assumption | exact Mask.of hm rfl | with_reducible apply Stays.updLe)

theorem Stays.gateWord {m : Nat} {s x : State} (h : Stays m s x) (e0 : Nat) (hm : m &&& 0x40 = 0x40) : Stays m s (State.gateWord x e0).1 := by
  unfold State.gateWord
  repeat' (first | with_reducible assumption | exact Mask.of hm rfl | with_reducible apply Stays.gateEnter | with_reducible apply Stays.updLe | with_reducible apply Stays.ite | split)

theorem Stays.gateReturn {m : Nat} {s x : State} (h : Stays m s x) (e0 : Nat) (hm : m &&& 0x40 = 0x40) : Stays m s (State.gateReturn x e0).1 := by
  unfold State.gateReturn
  repeat' (first | with_reducible assumption | exact Mask.of hm rfl | with_reducible apply Stays.updLe | split)

theorem Stays.control {m : Nat} {s x : State} (h : Stays m s x) (e0 : Nat) (w0 : Nat) (hm : m &&& 0x604c = 0x604c) : Stays m s (State.control x e0 w0).1 := by
  unfold State.control
  dsimp only
  repeat' (first | with_reducible assumption | exact Mask.of hm rfl | with_reducible apply Stays.takeCph | with_reducible apply Stays.takeGal | with_reducible apply Stays.gateWord | with_reducible apply Stays.gateReturn | with_reducible apply Stays.updLe | with_reducible apply Stays.ite | split)

theorem Stays.afterFreeze {m : Nat} {s x : State} (h : Stays m s x) (e0 : Nat) (x0 : Eng) (w0 : Nat) (v0 : W64) (hm : m &&& 0x40 = 0x40) : Stays m s (State.afterFreeze x e0 x0 w0 v0) := by
  unfold State.afterFreeze
  dsimp only
  repeat' (first | with_reducible assumption | exact Mask.of hm rfl | with_reducible apply Stays.freezeAt | with_reducible apply Stays.ite)

theorem Stays.doStep {m : Nat} {s x : State} (h : Stays m s x) (e0 : Nat) (drop0 : Bool) (hm : m &&& 0x1bffffe = 0x1bffffe) : Stays m s (State.doStep x e0 drop0) := by
  unfold State.doStep
  dsimp only
  repeat' (first | with_reducible assumption | exact Mask.of hm rfl | with_reducible apply Stays.peCount | with_reducible apply Stays.thaw | with_reducible apply Stays.pushStage | with_reducible apply Stays.advance0 | with_reducible apply Stays.moveTo | with_reducible apply Stays.control | with_reducible apply Stays.afterFreeze | with_reducible apply Stays.updLe | with_reducible apply Stays.updPe | with_reducible apply Stays.ite | split)

theorem Stays.checkFails {m : Nat} {s x : State} (h : Stays m s x) (e0 : Nat) (hm : m &&& 0x1ad07fe = 0x1ad07fe) : Stays m s (State.checkFails x e0) := by
  unfold State.checkFails
  dsimp only
  repeat' (first | with_reducible assumption | exact Mask.of hm rfl | with_reducible apply Stays.fire | with_reducible apply Stays.thaw | with_reducible apply Stays.lanesFaulty)

theorem Stays.compared {m : Nat} {s x : State} (h : Stays m s x) (e0 : Nat) (ok0 : Bool) (drop0 : Bool) (hm : m &&& 0x1bffffe = 0x1bffffe) : Stays m s (State.compared x e0 ok0 drop0) := by
  unfold State.compared
  dsimp only
  repeat' (first | with_reducible assumption | exact Mask.of hm rfl | with_reducible apply Stays.freezeAt | with_reducible apply Stays.doStep | with_reducible apply Stays.checkFails | with_reducible apply Stays.ite)

theorem Stays.tryStep {m : Nat} {s x : State} (h : Stays m s x) (e0 : Nat) (ok0 : Bool) (hm : m &&& 0x1bffffe = 0x1bffffe) : Stays m s (State.tryStep x e0 ok0) := by
  unfold State.tryStep
  dsimp only
  repeat' (first | with_reducible assumption | exact Mask.of hm rfl | with_reducible apply Stays.askGrant | with_reducible apply Stays.freezeAt | with_reducible apply Stays.compared | with_reducible apply Stays.ite | split)

theorem Stays.stepRow {m : Nat} {s x : State} (h : Stays m s x) (e0 : Nat) (ok0 : Bool) (mine0 : Eng → Nat → W64 → Bool) (hm : m &&& 0x1bffffe = 0x1bffffe) : Stays m s (State.stepRow x e0 ok0 mine0) := by
  unfold State.stepRow
  dsimp only
  repeat' (first | with_reducible assumption | exact Mask.of hm rfl | with_reducible apply Stays.settleParity | with_reducible apply Stays.ready | with_reducible apply Stays.tryStep | with_reducible apply Stays.ite)

/-! ## EngRows -/

theorem Stays.execMove {m : Nat} {s x : State} (h : Stays m s x) (e0 : LeId) (ok0 : Bool) (hm : m &&& 0x1bffffe = 0x1bffffe) : Stays m s (taken x (Machine.execMove e0 ok0 x)) := by
  unfold taken Machine.execMove
  dsimp only
  repeat' (first | with_reducible assumption | exact Mask.of hm rfl | with_reducible apply Stays.stepRow)

theorem Stays.execEvqRead {m : Nat} {s x : State} (h : Stays m s x) (e0 : LeId) (ok0 : Bool) (hm : m &&& 0x1bffffe = 0x1bffffe) : Stays m s (taken x (Machine.execEvqRead e0 ok0 x)) := by
  unfold taken Machine.execEvqRead
  dsimp only
  repeat' (first | with_reducible assumption | exact Mask.of hm rfl | with_reducible apply Stays.stepRow)

theorem Stays.execAluAdd {m : Nat} {s x : State} (h : Stays m s x) (e0 : LeId) (ok0 : Bool) (hm : m &&& 0x1bffffe = 0x1bffffe) : Stays m s (taken x (Machine.execAluAdd e0 ok0 x)) := by
  unfold taken Machine.execAluAdd
  dsimp only
  repeat' (first | with_reducible assumption | exact Mask.of hm rfl | with_reducible apply Stays.stepRow)

theorem Stays.execAluSub {m : Nat} {s x : State} (h : Stays m s x) (e0 : LeId) (ok0 : Bool) (hm : m &&& 0x1bffffe = 0x1bffffe) : Stays m s (taken x (Machine.execAluSub e0 ok0 x)) := by
  unfold taken Machine.execAluSub
  dsimp only
  repeat' (first | with_reducible assumption | exact Mask.of hm rfl | with_reducible apply Stays.stepRow)

theorem Stays.execAluAnd {m : Nat} {s x : State} (h : Stays m s x) (e0 : LeId) (ok0 : Bool) (hm : m &&& 0x1bffffe = 0x1bffffe) : Stays m s (taken x (Machine.execAluAnd e0 ok0 x)) := by
  unfold taken Machine.execAluAnd
  dsimp only
  repeat' (first | with_reducible assumption | exact Mask.of hm rfl | with_reducible apply Stays.stepRow)

theorem Stays.execAluOr {m : Nat} {s x : State} (h : Stays m s x) (e0 : LeId) (ok0 : Bool) (hm : m &&& 0x1bffffe = 0x1bffffe) : Stays m s (taken x (Machine.execAluOr e0 ok0 x)) := by
  unfold taken Machine.execAluOr
  dsimp only
  repeat' (first | with_reducible assumption | exact Mask.of hm rfl | with_reducible apply Stays.stepRow)

theorem Stays.execAluXor {m : Nat} {s x : State} (h : Stays m s x) (e0 : LeId) (ok0 : Bool) (hm : m &&& 0x1bffffe = 0x1bffffe) : Stays m s (taken x (Machine.execAluXor e0 ok0 x)) := by
  unfold taken Machine.execAluXor
  dsimp only
  repeat' (first | with_reducible assumption | exact Mask.of hm rfl | with_reducible apply Stays.stepRow)

theorem Stays.execAluAndn {m : Nat} {s x : State} (h : Stays m s x) (e0 : LeId) (ok0 : Bool) (hm : m &&& 0x1bffffe = 0x1bffffe) : Stays m s (taken x (Machine.execAluAndn e0 ok0 x)) := by
  unfold taken Machine.execAluAndn
  dsimp only
  repeat' (first | with_reducible assumption | exact Mask.of hm rfl | with_reducible apply Stays.stepRow)

theorem Stays.execAluShl {m : Nat} {s x : State} (h : Stays m s x) (e0 : LeId) (ok0 : Bool) (hm : m &&& 0x1bffffe = 0x1bffffe) : Stays m s (taken x (Machine.execAluShl e0 ok0 x)) := by
  unfold taken Machine.execAluShl
  dsimp only
  repeat' (first | with_reducible assumption | exact Mask.of hm rfl | with_reducible apply Stays.stepRow)

theorem Stays.execAluShr {m : Nat} {s x : State} (h : Stays m s x) (e0 : LeId) (ok0 : Bool) (hm : m &&& 0x1bffffe = 0x1bffffe) : Stays m s (taken x (Machine.execAluShr e0 ok0 x)) := by
  unfold taken Machine.execAluShr
  dsimp only
  repeat' (first | with_reducible assumption | exact Mask.of hm rfl | with_reducible apply Stays.stepRow)

theorem Stays.execAluSar {m : Nat} {s x : State} (h : Stays m s x) (e0 : LeId) (ok0 : Bool) (hm : m &&& 0x1bffffe = 0x1bffffe) : Stays m s (taken x (Machine.execAluSar e0 ok0 x)) := by
  unfold taken Machine.execAluSar
  dsimp only
  repeat' (first | with_reducible assumption | exact Mask.of hm rfl | with_reducible apply Stays.stepRow)

theorem Stays.execAluRol {m : Nat} {s x : State} (h : Stays m s x) (e0 : LeId) (ok0 : Bool) (hm : m &&& 0x1bffffe = 0x1bffffe) : Stays m s (taken x (Machine.execAluRol e0 ok0 x)) := by
  unfold taken Machine.execAluRol
  dsimp only
  repeat' (first | with_reducible assumption | exact Mask.of hm rfl | with_reducible apply Stays.stepRow)

theorem Stays.execAluEq {m : Nat} {s x : State} (h : Stays m s x) (e0 : LeId) (ok0 : Bool) (hm : m &&& 0x1bffffe = 0x1bffffe) : Stays m s (taken x (Machine.execAluEq e0 ok0 x)) := by
  unfold taken Machine.execAluEq
  dsimp only
  repeat' (first | with_reducible assumption | exact Mask.of hm rfl | with_reducible apply Stays.stepRow)

theorem Stays.execAluLt {m : Nat} {s x : State} (h : Stays m s x) (e0 : LeId) (ok0 : Bool) (hm : m &&& 0x1bffffe = 0x1bffffe) : Stays m s (taken x (Machine.execAluLt e0 ok0 x)) := by
  unfold taken Machine.execAluLt
  dsimp only
  repeat' (first | with_reducible assumption | exact Mask.of hm rfl | with_reducible apply Stays.stepRow)

theorem Stays.execAluLtu {m : Nat} {s x : State} (h : Stays m s x) (e0 : LeId) (ok0 : Bool) (hm : m &&& 0x1bffffe = 0x1bffffe) : Stays m s (taken x (Machine.execAluLtu e0 ok0 x)) := by
  unfold taken Machine.execAluLtu
  dsimp only
  repeat' (first | with_reducible assumption | exact Mask.of hm rfl | with_reducible apply Stays.stepRow)

theorem Stays.execAluAddc {m : Nat} {s x : State} (h : Stays m s x) (e0 : LeId) (ok0 : Bool) (hm : m &&& 0x1bffffe = 0x1bffffe) : Stays m s (taken x (Machine.execAluAddc e0 ok0 x)) := by
  unfold taken Machine.execAluAddc
  dsimp only
  repeat' (first | with_reducible assumption | exact Mask.of hm rfl | with_reducible apply Stays.stepRow)

theorem Stays.execAluSubb {m : Nat} {s x : State} (h : Stays m s x) (e0 : LeId) (ok0 : Bool) (hm : m &&& 0x1bffffe = 0x1bffffe) : Stays m s (taken x (Machine.execAluSubb e0 ok0 x)) := by
  unfold taken Machine.execAluSubb
  dsimp only
  repeat' (first | with_reducible assumption | exact Mask.of hm rfl | with_reducible apply Stays.stepRow)

theorem Stays.execMulLo {m : Nat} {s x : State} (h : Stays m s x) (e0 : LeId) (ok0 : Bool) (hm : m &&& 0x1bffffe = 0x1bffffe) : Stays m s (taken x (Machine.execMulLo e0 ok0 x)) := by
  unfold taken Machine.execMulLo
  dsimp only
  repeat' (first | with_reducible assumption | exact Mask.of hm rfl | with_reducible apply Stays.stepRow)

theorem Stays.execMulHiu {m : Nat} {s x : State} (h : Stays m s x) (e0 : LeId) (ok0 : Bool) (hm : m &&& 0x1bffffe = 0x1bffffe) : Stays m s (taken x (Machine.execMulHiu e0 ok0 x)) := by
  unfold taken Machine.execMulHiu
  dsimp only
  repeat' (first | with_reducible assumption | exact Mask.of hm rfl | with_reducible apply Stays.stepRow)

theorem Stays.execMulHis {m : Nat} {s x : State} (h : Stays m s x) (e0 : LeId) (ok0 : Bool) (hm : m &&& 0x1bffffe = 0x1bffffe) : Stays m s (taken x (Machine.execMulHis e0 ok0 x)) := by
  unfold taken Machine.execMulHis
  dsimp only
  repeat' (first | with_reducible assumption | exact Mask.of hm rfl | with_reducible apply Stays.stepRow)

theorem Stays.execFaddD {m : Nat} {s x : State} (h : Stays m s x) (e0 : LeId) (ok0 : Bool) (hm : m &&& 0x1bffffe = 0x1bffffe) : Stays m s (taken x (Machine.execFaddD e0 ok0 x)) := by
  unfold taken Machine.execFaddD
  dsimp only
  repeat' (first | with_reducible assumption | exact Mask.of hm rfl | with_reducible apply Stays.stepRow)

theorem Stays.execFsubD {m : Nat} {s x : State} (h : Stays m s x) (e0 : LeId) (ok0 : Bool) (hm : m &&& 0x1bffffe = 0x1bffffe) : Stays m s (taken x (Machine.execFsubD e0 ok0 x)) := by
  unfold taken Machine.execFsubD
  dsimp only
  repeat' (first | with_reducible assumption | exact Mask.of hm rfl | with_reducible apply Stays.stepRow)

theorem Stays.execFaddS {m : Nat} {s x : State} (h : Stays m s x) (e0 : LeId) (ok0 : Bool) (hm : m &&& 0x1bffffe = 0x1bffffe) : Stays m s (taken x (Machine.execFaddS e0 ok0 x)) := by
  unfold taken Machine.execFaddS
  dsimp only
  repeat' (first | with_reducible assumption | exact Mask.of hm rfl | with_reducible apply Stays.stepRow)

theorem Stays.execFsubS {m : Nat} {s x : State} (h : Stays m s x) (e0 : LeId) (ok0 : Bool) (hm : m &&& 0x1bffffe = 0x1bffffe) : Stays m s (taken x (Machine.execFsubS e0 ok0 x)) := by
  unfold taken Machine.execFsubS
  dsimp only
  repeat' (first | with_reducible assumption | exact Mask.of hm rfl | with_reducible apply Stays.stepRow)

theorem Stays.execFmulD {m : Nat} {s x : State} (h : Stays m s x) (e0 : LeId) (ok0 : Bool) (hm : m &&& 0x1bffffe = 0x1bffffe) : Stays m s (taken x (Machine.execFmulD e0 ok0 x)) := by
  unfold taken Machine.execFmulD
  dsimp only
  repeat' (first | with_reducible assumption | exact Mask.of hm rfl | with_reducible apply Stays.stepRow)

theorem Stays.execFmulS {m : Nat} {s x : State} (h : Stays m s x) (e0 : LeId) (ok0 : Bool) (hm : m &&& 0x1bffffe = 0x1bffffe) : Stays m s (taken x (Machine.execFmulS e0 ok0 x)) := by
  unfold taken Machine.execFmulS
  dsimp only
  repeat' (first | with_reducible assumption | exact Mask.of hm rfl | with_reducible apply Stays.stepRow)

theorem Stays.execFcmpD {m : Nat} {s x : State} (h : Stays m s x) (e0 : LeId) (ok0 : Bool) (hm : m &&& 0x1bffffe = 0x1bffffe) : Stays m s (taken x (Machine.execFcmpD e0 ok0 x)) := by
  unfold taken Machine.execFcmpD
  dsimp only
  repeat' (first | with_reducible assumption | exact Mask.of hm rfl | with_reducible apply Stays.stepRow)

theorem Stays.execFcmpS {m : Nat} {s x : State} (h : Stays m s x) (e0 : LeId) (ok0 : Bool) (hm : m &&& 0x1bffffe = 0x1bffffe) : Stays m s (taken x (Machine.execFcmpS e0 ok0 x)) := by
  unfold taken Machine.execFcmpS
  dsimp only
  repeat' (first | with_reducible assumption | exact Mask.of hm rfl | with_reducible apply Stays.stepRow)

theorem Stays.execFcvt {m : Nat} {s x : State} (h : Stays m s x) (e0 : LeId) (ok0 : Bool) (hm : m &&& 0x1bffffe = 0x1bffffe) : Stays m s (taken x (Machine.execFcvt e0 ok0 x)) := by
  unfold taken Machine.execFcvt
  dsimp only
  repeat' (first | with_reducible assumption | exact Mask.of hm rfl | with_reducible apply Stays.stepRow)

theorem Stays.execLd8 {m : Nat} {s x : State} (h : Stays m s x) (e0 : LeId) (ok0 : Bool) (hm : m &&& 0x1bffffe = 0x1bffffe) : Stays m s (taken x (Machine.execLd8 e0 ok0 x)) := by
  unfold taken Machine.execLd8
  dsimp only
  repeat' (first | with_reducible assumption | exact Mask.of hm rfl | with_reducible apply Stays.stepRow)

theorem Stays.execLd16 {m : Nat} {s x : State} (h : Stays m s x) (e0 : LeId) (ok0 : Bool) (hm : m &&& 0x1bffffe = 0x1bffffe) : Stays m s (taken x (Machine.execLd16 e0 ok0 x)) := by
  unfold taken Machine.execLd16
  dsimp only
  repeat' (first | with_reducible assumption | exact Mask.of hm rfl | with_reducible apply Stays.stepRow)

theorem Stays.execLd32 {m : Nat} {s x : State} (h : Stays m s x) (e0 : LeId) (ok0 : Bool) (hm : m &&& 0x1bffffe = 0x1bffffe) : Stays m s (taken x (Machine.execLd32 e0 ok0 x)) := by
  unfold taken Machine.execLd32
  dsimp only
  repeat' (first | with_reducible assumption | exact Mask.of hm rfl | with_reducible apply Stays.stepRow)

theorem Stays.execLd64 {m : Nat} {s x : State} (h : Stays m s x) (e0 : LeId) (ok0 : Bool) (hm : m &&& 0x1bffffe = 0x1bffffe) : Stays m s (taken x (Machine.execLd64 e0 ok0 x)) := by
  unfold taken Machine.execLd64
  dsimp only
  repeat' (first | with_reducible assumption | exact Mask.of hm rfl | with_reducible apply Stays.stepRow)

theorem Stays.execSt8 {m : Nat} {s x : State} (h : Stays m s x) (e0 : LeId) (ok0 : Bool) (hm : m &&& 0x1bffffe = 0x1bffffe) : Stays m s (taken x (Machine.execSt8 e0 ok0 x)) := by
  unfold taken Machine.execSt8
  dsimp only
  repeat' (first | with_reducible assumption | exact Mask.of hm rfl | with_reducible apply Stays.stepRow)

theorem Stays.execSt16 {m : Nat} {s x : State} (h : Stays m s x) (e0 : LeId) (ok0 : Bool) (hm : m &&& 0x1bffffe = 0x1bffffe) : Stays m s (taken x (Machine.execSt16 e0 ok0 x)) := by
  unfold taken Machine.execSt16
  dsimp only
  repeat' (first | with_reducible assumption | exact Mask.of hm rfl | with_reducible apply Stays.stepRow)

theorem Stays.execSt32 {m : Nat} {s x : State} (h : Stays m s x) (e0 : LeId) (ok0 : Bool) (hm : m &&& 0x1bffffe = 0x1bffffe) : Stays m s (taken x (Machine.execSt32 e0 ok0 x)) := by
  unfold taken Machine.execSt32
  dsimp only
  repeat' (first | with_reducible assumption | exact Mask.of hm rfl | with_reducible apply Stays.stepRow)

theorem Stays.execSt64 {m : Nat} {s x : State} (h : Stays m s x) (e0 : LeId) (ok0 : Bool) (hm : m &&& 0x1bffffe = 0x1bffffe) : Stays m s (taken x (Machine.execSt64 e0 ok0 x)) := by
  unfold taken Machine.execSt64
  dsimp only
  repeat' (first | with_reducible assumption | exact Mask.of hm rfl | with_reducible apply Stays.stepRow)

theorem Stays.execDivu {m : Nat} {s x : State} (h : Stays m s x) (e0 : LeId) (ok0 : Bool) (hm : m &&& 0x1bffffe = 0x1bffffe) : Stays m s (taken x (Machine.execDivu e0 ok0 x)) := by
  unfold taken Machine.execDivu
  dsimp only
  repeat' (first | with_reducible assumption | exact Mask.of hm rfl | with_reducible apply Stays.stepRow)

theorem Stays.execDivs {m : Nat} {s x : State} (h : Stays m s x) (e0 : LeId) (ok0 : Bool) (hm : m &&& 0x1bffffe = 0x1bffffe) : Stays m s (taken x (Machine.execDivs e0 ok0 x)) := by
  unfold taken Machine.execDivs
  dsimp only
  repeat' (first | with_reducible assumption | exact Mask.of hm rfl | with_reducible apply Stays.stepRow)

theorem Stays.execFdivD {m : Nat} {s x : State} (h : Stays m s x) (e0 : LeId) (ok0 : Bool) (hm : m &&& 0x1bffffe = 0x1bffffe) : Stays m s (taken x (Machine.execFdivD e0 ok0 x)) := by
  unfold taken Machine.execFdivD
  dsimp only
  repeat' (first | with_reducible assumption | exact Mask.of hm rfl | with_reducible apply Stays.stepRow)

theorem Stays.execFdivS {m : Nat} {s x : State} (h : Stays m s x) (e0 : LeId) (ok0 : Bool) (hm : m &&& 0x1bffffe = 0x1bffffe) : Stays m s (taken x (Machine.execFdivS e0 ok0 x)) := by
  unfold taken Machine.execFdivS
  dsimp only
  repeat' (first | with_reducible assumption | exact Mask.of hm rfl | with_reducible apply Stays.stepRow)

theorem Stays.execFsqrtD {m : Nat} {s x : State} (h : Stays m s x) (e0 : LeId) (ok0 : Bool) (hm : m &&& 0x1bffffe = 0x1bffffe) : Stays m s (taken x (Machine.execFsqrtD e0 ok0 x)) := by
  unfold taken Machine.execFsqrtD
  dsimp only
  repeat' (first | with_reducible assumption | exact Mask.of hm rfl | with_reducible apply Stays.stepRow)

theorem Stays.execFsqrtS {m : Nat} {s x : State} (h : Stays m s x) (e0 : LeId) (ok0 : Bool) (hm : m &&& 0x1bffffe = 0x1bffffe) : Stays m s (taken x (Machine.execFsqrtS e0 ok0 x)) := by
  unfold taken Machine.execFsqrtS
  dsimp only
  repeat' (first | with_reducible assumption | exact Mask.of hm rfl | with_reducible apply Stays.stepRow)

theorem Stays.execCrc32c {m : Nat} {s x : State} (h : Stays m s x) (e0 : LeId) (ok0 : Bool) (hm : m &&& 0x1bffffe = 0x1bffffe) : Stays m s (taken x (Machine.execCrc32c e0 ok0 x)) := by
  unfold taken Machine.execCrc32c
  dsimp only
  repeat' (first | with_reducible assumption | exact Mask.of hm rfl | with_reducible apply Stays.stepRow)

theorem Stays.execBcmp {m : Nat} {s x : State} (h : Stays m s x) (e0 : LeId) (ok0 : Bool) (hm : m &&& 0x1bffffe = 0x1bffffe) : Stays m s (taken x (Machine.execBcmp e0 ok0 x)) := by
  unfold taken Machine.execBcmp
  dsimp only
  repeat' (first | with_reducible assumption | exact Mask.of hm rfl | with_reducible apply Stays.stepRow)

theorem Stays.execBscan {m : Nat} {s x : State} (h : Stays m s x) (e0 : LeId) (ok0 : Bool) (hm : m &&& 0x1bffffe = 0x1bffffe) : Stays m s (taken x (Machine.execBscan e0 ok0 x)) := by
  unfold taken Machine.execBscan
  dsimp only
  repeat' (first | with_reducible assumption | exact Mask.of hm rfl | with_reducible apply Stays.stepRow)

theorem Stays.execPopcnt {m : Nat} {s x : State} (h : Stays m s x) (e0 : LeId) (ok0 : Bool) (hm : m &&& 0x1bffffe = 0x1bffffe) : Stays m s (taken x (Machine.execPopcnt e0 ok0 x)) := by
  unfold taken Machine.execPopcnt
  dsimp only
  repeat' (first | with_reducible assumption | exact Mask.of hm rfl | with_reducible apply Stays.stepRow)

theorem Stays.execLouBadarg {m : Nat} {s x : State} (h : Stays m s x) (e0 : LeId) (ok0 : Bool) (hm : m &&& 0x1bffffe = 0x1bffffe) : Stays m s (taken x (Machine.execLouBadarg e0 ok0 x)) := by
  unfold taken Machine.execLouBadarg
  dsimp only
  repeat' (first | with_reducible assumption | exact Mask.of hm rfl | with_reducible apply Stays.stepRow)

theorem Stays.execTlActivate {m : Nat} {s x : State} (h : Stays m s x) (e0 : LeId) (ok0 : Bool) (hm : m &&& 0x1bffffe = 0x1bffffe) : Stays m s (taken x (Machine.execTlActivate e0 ok0 x)) := by
  unfold taken Machine.execTlActivate
  dsimp only
  repeat' (first | with_reducible assumption | exact Mask.of hm rfl | with_reducible apply Stays.stepRow)

theorem Stays.execTlMark {m : Nat} {s x : State} (h : Stays m s x) (e0 : LeId) (ok0 : Bool) (hm : m &&& 0x1bffffe = 0x1bffffe) : Stays m s (taken x (Machine.execTlMark e0 ok0 x)) := by
  unfold taken Machine.execTlMark
  dsimp only
  repeat' (first | with_reducible assumption | exact Mask.of hm rfl | with_reducible apply Stays.stepRow)

theorem Stays.execTlCommit {m : Nat} {s x : State} (h : Stays m s x) (e0 : LeId) (ok0 : Bool) (hm : m &&& 0x1bffffe = 0x1bffffe) : Stays m s (taken x (Machine.execTlCommit e0 ok0 x)) := by
  unfold taken Machine.execTlCommit
  dsimp only
  repeat' (first | with_reducible assumption | exact Mask.of hm rfl | with_reducible apply Stays.stepRow)

theorem Stays.execTlFail {m : Nat} {s x : State} (h : Stays m s x) (e0 : LeId) (ok0 : Bool) (hm : m &&& 0x1bffffe = 0x1bffffe) : Stays m s (taken x (Machine.execTlFail e0 ok0 x)) := by
  unfold taken Machine.execTlFail
  dsimp only
  repeat' (first | with_reducible assumption | exact Mask.of hm rfl | with_reducible apply Stays.stepRow)

theorem Stays.execBrIf {m : Nat} {s x : State} (h : Stays m s x) (e0 : LeId) (ok0 : Bool) (hm : m &&& 0x1bffffe = 0x1bffffe) : Stays m s (taken x (Machine.execBrIf e0 ok0 x)) := by
  unfold taken Machine.execBrIf
  dsimp only
  repeat' (first | with_reducible assumption | exact Mask.of hm rfl | with_reducible apply Stays.stepRow)

theorem Stays.execBrJump {m : Nat} {s x : State} (h : Stays m s x) (e0 : LeId) (ok0 : Bool) (hm : m &&& 0x1bffffe = 0x1bffffe) : Stays m s (taken x (Machine.execBrJump e0 ok0 x)) := by
  unfold taken Machine.execBrJump
  dsimp only
  repeat' (first | with_reducible assumption | exact Mask.of hm rfl | with_reducible apply Stays.stepRow)

theorem Stays.execBrCall {m : Nat} {s x : State} (h : Stays m s x) (e0 : LeId) (ok0 : Bool) (hm : m &&& 0x1bffffe = 0x1bffffe) : Stays m s (taken x (Machine.execBrCall e0 ok0 x)) := by
  unfold taken Machine.execBrCall
  dsimp only
  repeat' (first | with_reducible assumption | exact Mask.of hm rfl | with_reducible apply Stays.stepRow)

theorem Stays.execBrEret {m : Nat} {s x : State} (h : Stays m s x) (e0 : LeId) (ok0 : Bool) (hm : m &&& 0x1bffffe = 0x1bffffe) : Stays m s (taken x (Machine.execBrEret e0 ok0 x)) := by
  unfold taken Machine.execBrEret
  dsimp only
  repeat' (first | with_reducible assumption | exact Mask.of hm rfl | with_reducible apply Stays.stepRow)

theorem Stays.execRqCh {m : Nat} {s x : State} (h : Stays m s x) (e0 : LeId) (ok0 : Bool) (host0 : HostIn) (hm : m &&& 0x1bffffe = 0x1bffffe) : Stays m s (taken x (Machine.execRqCh e0 ok0 host0 x)) := by
  unfold taken Machine.execRqCh
  dsimp only
  repeat' (first | with_reducible assumption | exact Mask.of hm rfl | with_reducible apply Stays.takeCh | with_reducible apply Stays.stepRow | with_reducible refine Stays.when ?_ _ (fun t ht => ?_))

theorem Stays.execGalCompress {m : Nat} {s x : State} (h : Stays m s x) (e0 : LeId) (ok0 : Bool) (hm : m &&& 0x1bffffe = 0x1bffffe) : Stays m s (taken x (Machine.execGalCompress e0 ok0 x)) := by
  unfold taken Machine.execGalCompress
  dsimp only
  repeat' (first | with_reducible assumption | exact Mask.of hm rfl | with_reducible apply Stays.stepRow)

theorem Stays.execGalExpand {m : Nat} {s x : State} (h : Stays m s x) (e0 : LeId) (ok0 : Bool) (hm : m &&& 0x1bffffe = 0x1bffffe) : Stays m s (taken x (Machine.execGalExpand e0 ok0 x)) := by
  unfold taken Machine.execGalExpand
  dsimp only
  repeat' (first | with_reducible assumption | exact Mask.of hm rfl | with_reducible apply Stays.stepRow)

theorem Stays.execCphSeal {m : Nat} {s x : State} (h : Stays m s x) (e0 : LeId) (ok0 : Bool) (hm : m &&& 0x1bffffe = 0x1bffffe) : Stays m s (taken x (Machine.execCphSeal e0 ok0 x)) := by
  unfold taken Machine.execCphSeal
  dsimp only
  repeat' (first | with_reducible assumption | exact Mask.of hm rfl | with_reducible apply Stays.stepRow)

theorem Stays.execCphUnseal {m : Nat} {s x : State} (h : Stays m s x) (e0 : LeId) (ok0 : Bool) (hm : m &&& 0x1bffffe = 0x1bffffe) : Stays m s (taken x (Machine.execCphUnseal e0 ok0 x)) := by
  unfold taken Machine.execCphUnseal
  dsimp only
  repeat' (first | with_reducible assumption | exact Mask.of hm rfl | with_reducible apply Stays.stepRow)

theorem Stays.execCphRawEncrypt {m : Nat} {s x : State} (h : Stays m s x) (e0 : LeId) (ok0 : Bool) (hm : m &&& 0x1bffffe = 0x1bffffe) : Stays m s (taken x (Machine.execCphRawEncrypt e0 ok0 x)) := by
  unfold taken Machine.execCphRawEncrypt
  dsimp only
  repeat' (first | with_reducible assumption | exact Mask.of hm rfl | with_reducible apply Stays.stepRow)

theorem Stays.execCphRawDecrypt {m : Nat} {s x : State} (h : Stays m s x) (e0 : LeId) (ok0 : Bool) (hm : m &&& 0x1bffffe = 0x1bffffe) : Stays m s (taken x (Machine.execCphRawDecrypt e0 ok0 x)) := by
  unfold taken Machine.execCphRawDecrypt
  dsimp only
  repeat' (first | with_reducible assumption | exact Mask.of hm rfl | with_reducible apply Stays.stepRow)

theorem Stays.execDone {m : Nat} {s x : State} (h : Stays m s x) (e0 : LeId) (ok0 : Bool) (hm : m &&& 0x1bffffe = 0x1bffffe) : Stays m s (taken x (Machine.execDone e0 ok0 x)) := by
  unfold taken Machine.execDone
  dsimp only
  repeat' (first | with_reducible assumption | exact Mask.of hm rfl | with_reducible apply Stays.stepRow)

theorem Stays.execImmx {m : Nat} {s x : State} (h : Stays m s x) (e0 : LeId) (ok0 : Bool) (hm : m &&& 0x1bffffe = 0x1bffffe) : Stays m s (taken x (Machine.execImmx e0 ok0 x)) := by
  unfold taken Machine.execImmx
  dsimp only
  repeat' (first | with_reducible assumption | exact Mask.of hm rfl | with_reducible apply Stays.stepRow)

theorem Stays.execRepeatN {m : Nat} {s x : State} (h : Stays m s x) (e0 : LeId) (ok0 : Bool) (hm : m &&& 0x1bffffe = 0x1bffffe) : Stays m s (taken x (Machine.execRepeatN e0 ok0 x)) := by
  unfold taken Machine.execRepeatN
  dsimp only
  repeat' (first | with_reducible assumption | exact Mask.of hm rfl | with_reducible apply Stays.stepRow)

theorem Stays.execRepeatG {m : Nat} {s x : State} (h : Stays m s x) (e0 : LeId) (ok0 : Bool) (hm : m &&& 0x1bffffe = 0x1bffffe) : Stays m s (taken x (Machine.execRepeatG e0 ok0 x)) := by
  unfold taken Machine.execRepeatG
  dsimp only
  repeat' (first | with_reducible assumption | exact Mask.of hm rfl | with_reducible apply Stays.stepRow)

theorem Stays.execGate {m : Nat} {s x : State} (h : Stays m s x) (e0 : LeId) (ok0 : Bool) (hm : m &&& 0x1bffffe = 0x1bffffe) : Stays m s (taken x (Machine.execGate e0 ok0 x)) := by
  unfold taken Machine.execGate
  dsimp only
  repeat' (first | with_reducible assumption | exact Mask.of hm rfl | with_reducible apply Stays.stepRow)

theorem Stays.execReturnGate {m : Nat} {s x : State} (h : Stays m s x) (e0 : LeId) (ok0 : Bool) (hm : m &&& 0x1bffffe = 0x1bffffe) : Stays m s (taken x (Machine.execReturnGate e0 ok0 x)) := by
  unfold taken Machine.execReturnGate
  dsimp only
  repeat' (first | with_reducible assumption | exact Mask.of hm rfl | with_reducible apply Stays.stepRow)

theorem Stays.execEntry {m : Nat} {s x : State} (h : Stays m s x) (e0 : LeId) (ok0 : Bool) (hm : m &&& 0x1bffffe = 0x1bffffe) : Stays m s (taken x (Machine.execEntry e0 ok0 x)) := by
  unfold taken Machine.execEntry
  dsimp only
  repeat' (first | with_reducible assumption | exact Mask.of hm rfl | with_reducible apply Stays.stepRow)

theorem Stays.execNop {m : Nat} {s x : State} (h : Stays m s x) (e0 : LeId) (ok0 : Bool) (hm : m &&& 0x1bffffe = 0x1bffffe) : Stays m s (taken x (Machine.execNop e0 ok0 x)) := by
  unfold taken Machine.execNop
  dsimp only
  repeat' (first | with_reducible assumption | exact Mask.of hm rfl | with_reducible apply Stays.stepRow)

theorem Stays.execBarOrder {m : Nat} {s x : State} (h : Stays m s x) (e0 : LeId) (ok0 : Bool) (hm : m &&& 0x1bffffe = 0x1bffffe) : Stays m s (taken x (Machine.execBarOrder e0 ok0 x)) := by
  unfold taken Machine.execBarOrder
  dsimp only
  repeat' (first | with_reducible assumption | exact Mask.of hm rfl | with_reducible apply Stays.stepRow)

theorem Stays.execBarDone {m : Nat} {s x : State} (h : Stays m s x) (e0 : LeId) (ok0 : Bool) (hm : m &&& 0x1bffffe = 0x1bffffe) : Stays m s (taken x (Machine.execBarDone e0 ok0 x)) := by
  unfold taken Machine.execBarDone
  dsimp only
  repeat' (first | with_reducible assumption | exact Mask.of hm rfl | with_reducible apply Stays.stepRow)

theorem Stays.execWaitLong {m : Nat} {s x : State} (h : Stays m s x) (e0 : LeId) (ok0 : Bool) (hm : m &&& 0x1bffffe = 0x1bffffe) : Stays m s (taken x (Machine.execWaitLong e0 ok0 x)) := by
  unfold taken Machine.execWaitLong
  dsimp only
  repeat' (first | with_reducible assumption | exact Mask.of hm rfl | with_reducible apply Stays.stepRow)

/-! ## EngEnd -/

theorem Stays.tallyOp {m : Nat} {s x : State} (h : Stays m s x) (e0 : Nat) (code0 : Nat) (a0 : W64) (b0 : W64) (hm : m &&& 0x180007c = 0x180007c) : Stays m s (State.tallyOp x e0 code0 a0 b0).1 := by
  unfold State.tallyOp
  dsimp only
  repeat' (first | with_reducible assumption | exact Mask.of hm rfl | with_reducible apply Stays.abortEntry | with_reducible apply Stays.commitEntry | with_reducible apply Stays.setEntry | with_reducible apply Stays.ite | split)

theorem Stays.tallyAdmit {m : Nat} {s x : State} (h : Stays m s x) (e0 : Nat) (o0 : LongOp) (hm : m &&& 0x180007c = 0x180007c) : Stays m s (State.tallyAdmit x e0 o0).1 := by
  unfold State.tallyAdmit
  dsimp only
  repeat' (first | with_reducible assumption | exact Mask.of hm rfl | with_reducible apply Stays.tallyOp | with_reducible refine Stays.setTlyIn ?_ _ (fun _ => ⟨rfl, rfl⟩) (Mask.of hm rfl) | with_reducible refine Stays.setTly ?_ _ (Mask.of hm rfl) | with_reducible apply Stays.ite | split)

theorem Stays.crcOp {m : Nat} {s x : State} (h : Stays m s x) (h0 : HostIn) (e0 : Nat) (a0 : W64) (b0 : W64) (hm : m &&& 0x2d1ffe = 0x2d1ffe) : Stays m s (State.crcOp x h0 e0 a0 b0).1 := by
  unfold State.crcOp
  dsimp only
  repeat' (first | with_reducible assumption | exact Mask.of hm rfl | with_reducible apply Stays.engFetch | with_reducible apply Stays.ite | split)

theorem Stays.bcmpOp {m : Nat} {s x : State} (h : Stays m s x) (h0 : HostIn) (e0 : Nat) (a0 : W64) (b0 : W64) (hm : m &&& 0x2d1ffe = 0x2d1ffe) : Stays m s (State.bcmpOp x h0 e0 a0 b0).1 := by
  unfold State.bcmpOp
  dsimp only
  repeat' (first | with_reducible assumption | exact Mask.of hm rfl | with_reducible apply Stays.engFetch | with_reducible apply Stays.ite | split)

theorem Stays.longResult {m : Nat} {s x : State} (h : Stays m s x) (h0 : HostIn) (e0 : Nat) (o0 : LongOp) (hm : m &&& 0x1ad1ffe = 0x1ad1ffe) : Stays m s (State.longResult x h0 e0 o0).1 := by
  unfold State.longResult
  dsimp only
  repeat' (first | with_reducible assumption | exact Mask.of hm rfl | with_reducible apply Stays.tallyAdmit | with_reducible apply Stays.crcOp | with_reducible apply Stays.bcmpOp | with_reducible apply Stays.ite | split)

theorem Stays.microResult {m : Nat} {s x : State} (h : Stays m s x) (h0 : HostIn) (e0 : Nat) (o0 : LongOp) (m0 : Mic) (r0 : MicEnd) (hm : m &&& 0x1ad1ffe = 0x1ad1ffe) : Stays m s (State.microResult x h0 e0 o0 m0 r0).1 := by
  unfold State.microResult
  repeat' (first | with_reducible assumption | exact Mask.of hm rfl | with_reducible apply Stays.longResult | with_reducible apply Stays.ite | split)

theorem Stays.longEnds {m : Nat} {s x : State} (h : Stays m s x) (e0 : Nat) (o0 : LongOp) (r0 : LongOut) (hm : m &&& 0x40 = 0x40) : Stays m s (State.longEnds x e0 o0 r0) := by
  unfold State.longEnds
  dsimp only
  repeat' (first | with_reducible assumption | exact Mask.of hm rfl | with_reducible apply Stays.thaw | with_reducible apply Stays.updLe | with_reducible apply Stays.ite)

theorem Stays.runMicro {m : Nat} {s x : State} (h : Stays m s x) (h0 : HostIn) (e0 : Nat) (o0 : LongOp) (p0 : MicroAt) (hm : m &&& 0x1ad1ffe = 0x1ad1ffe) : Stays m s (State.runMicro x h0 e0 o0 p0) := by
  unfold State.runMicro
  dsimp only
  repeat' (first | with_reducible assumption | exact Mask.of hm rfl | with_reducible apply Stays.peReport | with_reducible apply Stays.microResult | with_reducible apply Stays.longEnds | with_reducible apply Stays.updLe | with_reducible apply Stays.ite)

theorem Stays.execLongOpComplete {m : Nat} {s x : State} (h : Stays m s x) (e0 : LeId) (host0 : HostIn) (micro0 : Option MicroAt) (hm : m &&& 0x1bd1ffe = 0x1bd1ffe) : Stays m s (taken x (Machine.execLongOpComplete e0 host0 micro0 x)) := by
  unfold taken Machine.execLongOpComplete
  dsimp only
  repeat' (first | with_reducible assumption | exact Mask.of hm rfl | with_reducible apply Stays.drawn | with_reducible apply Stays.tallyAdmit | with_reducible apply Stays.longResult | with_reducible apply Stays.longEnds | with_reducible apply Stays.runMicro | with_reducible apply Stays.updLe | with_reducible refine Stays.when ?_ _ (fun t ht => ?_) | with_reducible apply Stays.ite | split)

theorem Stays.execMicrowordRewrite {m : Nat} {s x : State} (h : Stays m s x) (e0 : LeId) (ev0 : MicroEvent) (hm : m &&& 0x1ad07fe = 0x1ad07fe) : Stays m s (taken x (Machine.execMicrowordRewrite e0 ev0 x)) := by
  unfold taken Machine.execMicrowordRewrite
  dsimp only
  repeat' (first | with_reducible assumption | exact Mask.of hm rfl | with_reducible apply Stays.peReport | with_reducible apply Stays.laneCheck | with_reducible apply Stays.updPe | with_reducible refine Stays.when ?_ _ (fun t ht => ?_) | with_reducible apply Stays.ite | split)

theorem Stays.execProgramWordRewrite {m : Nat} {s x : State} (h : Stays m s x) (w0 : WordAt) (hm : m &&& 0x1ad07fe = 0x1ad07fe) : Stays m s (taken x (Machine.execProgramWordRewrite w0 x)) := by
  unfold taken Machine.execProgramWordRewrite
  dsimp only
  repeat' (first | with_reducible assumption | exact Mask.of hm rfl | with_reducible apply Stays.freezeAt | with_reducible apply Stays.thaw | with_reducible apply Stays.peReport | with_reducible apply Stays.laneCheck | with_reducible apply Stays.updEngCl | with_reducible refine Stays.when ?_ _ (fun t ht => ?_) | with_reducible apply Stays.ite | split)

theorem Stays.takeTrap {m : Nat} {s x : State} (h : Stays m s x) (e0 : Nat) (cause0 : Nat) (tcause0 : Nat) (hm : m &&& 0x40 = 0x40) : Stays m s (State.takeTrap x e0 cause0 tcause0) := by
  unfold State.takeTrap
  dsimp only
  repeat' (first | with_reducible assumption | exact Mask.of hm rfl | with_reducible apply Stays.peCount | with_reducible apply Stays.thaw | with_reducible apply Stays.updLe)

theorem Stays.execTrapEntry {m : Nat} {s x : State} (h : Stays m s x) (e0 : LeId) (hm : m &&& 0x1ad87fe = 0x1ad87fe) : Stays m s (taken x (Machine.execTrapEntry e0 x)) := by
  unfold taken Machine.execTrapEntry
  dsimp only
  repeat' (first | with_reducible assumption | exact Mask.of hm rfl | with_reducible apply Stays.freezeAt | with_reducible apply Stays.terminalTrap | with_reducible apply Stays.settleParity | with_reducible apply Stays.ready | with_reducible apply Stays.takeTrap | with_reducible apply Stays.ite | split)

theorem Stays.execBarrierComplete {m : Nat} {s x : State} (h : Stays m s x) (e0 : LeId) (hm : m &&& 0x2d67fe = 0x2d67fe) : Stays m s (taken x (Machine.execBarrierComplete e0 x)) := by
  unfold taken Machine.execBarrierComplete
  dsimp only
  repeat' (first | with_reducible assumption | exact Mask.of hm rfl | with_reducible apply Stays.takeCph | with_reducible apply Stays.takeGal | with_reducible apply Stays.thaw | with_reducible apply Stays.flushWriter | with_reducible apply Stays.updLe | with_reducible refine Stays.when ?_ _ (fun t ht => ?_) | with_reducible apply Stays.ite | split)

theorem Stays.execEndpointTimeoutExpiry {m : Nat} {s x : State} (h : Stays m s x) (e0 : LeId) (hm : m &&& 0x2d007e = 0x2d007e) : Stays m s (taken x (Machine.execEndpointTimeoutExpiry e0 x)) := by
  unfold taken Machine.execEndpointTimeoutExpiry
  dsimp only
  repeat' (first | with_reducible assumption | exact Mask.of hm rfl | with_reducible apply Stays.peReport | with_reducible apply Stays.updLe | with_reducible apply Stays.updPe | with_reducible refine Stays.when ?_ _ (fun t ht => ?_) | with_reducible refine Stays.foldl (fun t a ht => ?_) ?_ | split)

theorem Stays.withdrawRequests {m : Nat} {s x : State} (h : Stays m s x) (e0 : Nat) (hm : m &&& 0x2d007e = 0x2d007e) : Stays m s (State.withdrawRequests x e0) := by
  unfold State.withdrawRequests
  dsimp only
  repeat' (first | with_reducible assumption | exact Mask.of hm rfl | with_reducible apply Stays.peReport | with_reducible apply Stays.updLe | with_reducible refine Stays.foldl (fun t a ht => ?_) ?_)

theorem Stays.qwaitStep {m : Nat} {s x : State} (h : Stays m s x) (e0 : Nat) (hm : m &&& 0x1bffffe = 0x1bffffe) : Stays m s (State.qwaitStep x e0) := by
  unfold State.qwaitStep
  dsimp only
  repeat' (first | with_reducible assumption | exact Mask.of hm rfl | with_reducible apply Stays.ready | with_reducible apply Stays.compared | with_reducible apply Stays.updLe | with_reducible apply Stays.ite)

theorem Stays.execQwaitExpiry {m : Nat} {s x : State} (h : Stays m s x) (e0 : LeId) (hm : m &&& 0x1bffffe = 0x1bffffe) : Stays m s (taken x (Machine.execQwaitExpiry e0 x)) := by
  unfold taken Machine.execQwaitExpiry
  dsimp only
  repeat' (first | with_reducible assumption | exact Mask.of hm rfl | with_reducible apply Stays.takeCph | with_reducible apply Stays.takeGal | with_reducible apply Stays.withdrawRequests | with_reducible apply Stays.qwaitStep | with_reducible apply Stays.updLe | with_reducible refine Stays.when ?_ _ (fun t ht => ?_) | with_reducible apply Stays.ite | split)

theorem Stays.openAtDone {m : Nat} {s x : State} (h : Stays m s x) (e0 : Nat) (word0 : BitVec 15) (hm : m &&& 0x1ad007e = 0x1ad007e) : Stays m s (State.openAtDone x e0 word0) := by
  unfold State.openAtDone
  dsimp only
  repeat' (first | with_reducible assumption | exact Mask.of hm rfl | with_reducible apply Stays.failEntry | with_reducible apply Stays.peReport | with_reducible apply Stays.ite)

theorem Stays.execProgramEnd {m : Nat} {s x : State} (h : Stays m s x) (e0 : LeId) (hm : m &&& 0x1ad67fe = 0x1ad67fe) : Stays m s (taken x (Machine.execProgramEnd e0 x)) := by
  unfold taken Machine.execProgramEnd
  dsimp only
  repeat' (first | with_reducible assumption | exact Mask.of hm rfl | with_reducible apply Stays.takeCph | with_reducible apply Stays.takeGal | with_reducible apply Stays.goIdle | with_reducible apply Stays.flushWriter | with_reducible apply Stays.openAtDone | with_reducible apply Stays.updLe | with_reducible refine Stays.when ?_ _ (fun t ht => ?_) | with_reducible apply Stays.ite | split)

theorem Stays.stepAgain {m : Nat} {s x : State} (h : Stays m s x) (e0 : Nat) (hm : m &&& 0x1bffffe = 0x1bffffe) : Stays m s (State.stepAgain x e0) := by
  unfold State.stepAgain
  repeat' (first | with_reducible assumption | exact Mask.of hm rfl | with_reducible apply Stays.ready | with_reducible apply Stays.compared | with_reducible apply Stays.ite)

theorem Stays.execLaneRetry {m : Nat} {s x : State} (h : Stays m s x) (e0 : LeId) (ok0 : Bool) (hm : m &&& 0x1bffffe = 0x1bffffe) : Stays m s (taken x (Machine.execLaneRetry e0 ok0 x)) := by
  unfold taken Machine.execLaneRetry
  dsimp only
  repeat' (first | with_reducible assumption | exact Mask.of hm rfl | with_reducible apply Stays.fire | with_reducible apply Stays.peCount | with_reducible apply Stays.thaw | with_reducible apply Stays.dupLog | with_reducible apply Stays.peReport | with_reducible apply Stays.persist | with_reducible apply Stays.stepAgain | with_reducible apply Stays.updPe | with_reducible refine Stays.when ?_ _ (fun t ht => ?_) | with_reducible apply Stays.ite)

theorem Stays.execMigrationComplete {m : Nat} {s x : State} (h : Stays m s x) (e0 : LeId) (hm : m &&& 0x1bffffe = 0x1bffffe) : Stays m s (taken x (Machine.execMigrationComplete e0 x)) := by
  unfold taken Machine.execMigrationComplete
  dsimp only
  repeat' (first | with_reducible assumption | exact Mask.of hm rfl | with_reducible apply Stays.thaw | with_reducible apply Stays.dupLogP | with_reducible apply Stays.takeSpare | with_reducible apply Stays.noSpare | with_reducible apply Stays.stepAgain | with_reducible apply Stays.updPe | with_reducible refine Stays.when ?_ _ (fun t ht => ?_) | with_reducible apply Stays.ite | split)

end Sys2Proof.Machine
end

