-- ==== Sys2Proof/Laws/Step.lean ====
section
/-! SUPPORT. A step of an engine: what a row does on a word that executes, and what the step of a word with an effect on its own engine alone changes. -/

open Sys2Proof Sys2Proof.Machine

namespace Sys2Proof.Machine

theorem stepRow_executes {s : State} {e w : Nat} {v : W64} (h : Executes s e w v) (mine : Eng → Nat → W64 → Bool)
    (hm : mine ((s.atStep e).le e) w v = true) : s.stepRow e true mine = (s.atStep e).doStep e false := by
  obtain ⟨hmay, hw, hv, ht, hb, h1, h2⟩ := h
  subst hw hv
  rw [State.stepRow]
  simp only [State.atStep] at *
  simp only [hmay, Bool.not_true, Bool.false_eq_true, if_false, hm, ht, Option.isNone_none, Bool.and_self, if_true]
  rw [State.tryStep, hb]
  simp only [State.compared, h1, h2]
  simp

/-- An engine that an update of its order changes in nothing else. -/
def Eng.ordered (x : Eng) (pc : BitVec 15) (p0 p1 : Option Target) (rep : Option (Nat × Nat)) : Eng := { x with pc := pc, p0 := p0, p1 := p1, rep := rep }

theorem advance0_seq (s : State) (e w : Nat) (b : Option Target) :
    s.advance0 e w ⟨b, none, false⟩ = s.updLe e (fun _ => (s.le e).seqNext (unitLen w) b) := by
  rfl


theorem Eng.endUnit_spec (x : Eng) (len : BitVec 15) (b : Option Target) (h : x.p0 ≠ some .eret) :
    ((x.endUnit len b).rep = none ∧ (x.endUnit len b).p0 = x.p1 ∧ (x.endUnit len b).p1 = b ∧
      (x.p0 = none → (x.endUnit len b).pc = x.pc + len) ∧ (∀ a, x.p0 = some (.to a) → (x.endUnit len b).pc = a)) ∧
      ∃ pc p0 p1 rep, x.endUnit len b = x.ordered pc p0 p1 rep := by
  unfold Eng.endUnit
  split
  · rename_i hp
    exact ⟨⟨rfl, rfl, rfl, fun _ => rfl, fun a h => (by rw [hp] at h; cases h)⟩, _, _, _, _, rfl⟩
  · rename_i a hp
    exact ⟨⟨rfl, rfl, rfl, fun h => (by rw [hp] at h; cases h), fun c h => (by rw [hp] at h; cases h; rfl)⟩, _, _, _, _, rfl⟩
  · rename_i hp; exact absurd hp h

theorem Eng.seqNext_spec (x : Eng) (len : BitVec 15) (b : Option Target) (h : x.p0 ≠ some .eret) :
    Order x (x.seqNext len b) len b ∧ ∃ pc p0 p1 rep, x.seqNext len b = x.ordered pc p0 p1 rep := by
  obtain ⟨fin, ho⟩ := x.endUnit_spec len b h
  unfold Eng.seqNext
  split
  · rename_i n m hr
    split
    · refine ⟨⟨fun k l h _ => ?_, fun h3 => ?_⟩, x.pc, x.p0, x.p1, some (n - 1, m), rfl⟩
      · rw [hr] at h; cases h; exact ⟨rfl, rfl, rfl, rfl⟩
      · exact absurd (h3 n m hr) (by omega)
    · rename_i h2
      refine ⟨⟨fun k l h h3 => ?_, fun _ => fin⟩, ho⟩
      rw [hr] at h; cases h; exact absurd h3 h2
  · rename_i hr
    exact ⟨⟨fun n m h => (by rw [hr] at h; cases h), fun _ => fin⟩, ho⟩


@[simp] theorem peCount_le (s : State) (e j n k : Nat) : (s.peCount e j n).le k = s.le k := by
  unfold State.peCount; split <;> simp
@[simp] theorem peCount_prog (s : State) (e j n : Nat) : (s.peCount e j n).eng.prog = s.eng.prog := by
  unfold State.peCount; split <;> rfl
theorem peCount_out (s : State) (e j n : Nat) : s.peCount e j n = { s with eng := (s.peCount e j n).eng } := by
  unfold State.peCount; split <;> rfl
@[simp] theorem pushStage_le (s : State) (e k : Nat) (ts : List (RecvQueue × W64 × W64)) : (s.pushStage e ts).le k = s.le k := by unfold State.pushStage; simp
@[simp] theorem pushStage_prog (s : State) (e : Nat) (ts : List (RecvQueue × W64 × W64)) : (s.pushStage e ts).eng.prog = s.eng.prog := rfl

/-- The state in which a word takes effect: the freeze is over and the step is counted. -/
def State.begun (s0 : State) (e : Nat) : State := (s0.thaw e).peCount e 0 1

theorem begun_le (s : State) (e : Nat) : (s.begun e).le e = { s.le e with freeze := none } := by
  simp [State.begun, State.thaw]
theorem begun_other (s : State) (e k : Nat) (h : k ≠ e) : (s.begun e).le k = s.le k := by
  rw [State.begun, peCount_le, State.thaw, State.updLe_le_ne _ _ _ _ h]
theorem begun_prog (s : State) (e : Nat) : (s.begun e).eng.prog = s.eng.prog := by
  rw [State.begun, peCount_prog]; rfl
theorem begun_out (s : State) (e : Nat) : s.begun e = { s with eng := (s.begun e).eng } := by
  rw [State.begun]; exact peCount_out _ _ _ _

theorem begun_word (s : State) (e : Nat) : (s.begun e).wordAt e = s.wordAt e := by
  unfold State.wordAt State.progWord; rw [begun_le, begun_prog]
theorem begun_src (s : State) (e p : Nat) : (s.begun e).srcRead e p = s.srcRead e p := by
  have ht : (s.begun e).tick = s.tick := by rw [begun_out]
  unfold State.srcRead
  rw [begun_le, ht]
  rfl

/-- A word whose effect is a change of its own engine: what its step does. -/
theorem doStep_local (s : State) (e : Nat) (f : Eng → Eng) (b : Option Target) (hp : NoReturnDue s e)
    (hev : fromEvq (s.wordAt e) = false)
    (hs : ({ s.le e with freeze := none } : Eng).transports (s.wordAt e) (s.srcRead e (srcOf (s.wordAt e))) = [])
    (hfp : ({ s.le e with freeze := none } : Eng).fpHolds (s.wordAt e) (s.srcRead e (srcOf (s.wordAt e))) = false)
    (hr : (if isCtl (s.wordAt e) then (s.begun e).control e (s.wordAt e)
        else (s.begun e).moveTo e (s.wordAt e) (s.srcRead e (srcOf (s.wordAt e))) false) = ((s.begun e).updLe e f, ⟨b, none, false⟩))
    (hf : ∀ x : Eng, (f x).rep = x.rep ∧ (f x).p0 = x.p0 ∧ (f x).p1 = x.p1 ∧ (f x).pc = x.pc ∧ (f x).barrier = x.barrier ∧
      (f x).doneAt = x.doneAt ∧ (f x).steps = x.steps ∧ (f x).stepSeq = x.stepSeq ∧ (f x).freeze = x.freeze ∧
      (f x).gsave = x.gsave ∧ (f x).bits.getLsbD 26 = x.bits.getLsbD 26)
    (hb : (s.le e).barrier = none) (hd : (s.le e).doneAt = none) :
    StepTo s (s.doStep e false) e
      ((f { s.le e with freeze := none }).stepped (s.le e).mustEntry (isCtl (s.wordAt e) && srcOf (s.wordAt e) < 0x40))
      (unitLen (s.wordAt e)) b := by
  have hdo : s.doStep e false = (((((((s.begun e).updLe e f).updLe e (fun y => y.stepped (s.le e).mustEntry
      (isCtl (s.wordAt e) && srcOf (s.wordAt e) < 0x40))).advance0 e (s.wordAt e) ⟨b, none, false⟩).updLe e Eng.aged).pushStage e []).updPe ((s.begun e).peOf e)
      (fun p => { p with stepSeq := (s.le e).stepSeq + 1, retryNow := 0 })).afterFreeze e ({ s.le e with freeze := none } : Eng) (s.wordAt e)
      (s.srcRead e (srcOf (s.wordAt e))) := by
    unfold State.doStep
    change State.afterFreeze _ e _ _ _ = _
    have hw := begun_word s e
    have hv := begun_src s e (srcOf (s.wordAt e))
    have hl := begun_le s e
    unfold State.begun at hw hv hl hr ⊢
    rw [hw, hv, hl, hev, hs]
    simp only [Bool.false_eq_true, if_false]
    rw [hr]
  rw [hdo, advance0_seq]
  generalize hx : ({ s.le e with freeze := none } : Eng) = x at *
  generalize hz : (f x).stepped (s.le e).mustEntry (isCtl (s.wordAt e) && srcOf (s.wordAt e) < 0x40) = z
  have hle : (s.begun e).le e = x := by rw [begun_le, hx]
  obtain ⟨f1, f2, f3, f4, f5, f6, f7, f8, f9, f10, f11⟩ := hf x
  have hz0 : z.p0 ≠ some .eret := by rw [← hz]; show (f x).p0 ≠ _; rw [f2, ← hx]; exact hp
  obtain ⟨ho, pc, p0, p1, rep, hord⟩ := z.seqNext_spec (unitLen (s.wordAt e)) b hz0
  set y := Eng.aged (z.seqNext (unitLen (s.wordAt e)) b) with hy
  have hyo : y = Eng.aged (z.ordered pc p0 p1 rep) := by rw [hy, hord]
  have hbar : y.barrier = none := by rw [hyo]; show z.barrier = none; rw [← hz]; show (f x).barrier = none; rw [f5, ← hx]; exact hb
  have hdon : y.doneAt = none := by rw [hyo]; show z.doneAt = none; rw [← hz]; show (f x).doneAt = none; rw [f6, ← hx]; exact hd
  have hW : (((s.begun e).updLe e f).updLe e (fun y => y.stepped (s.le e).mustEntry
      (isCtl (s.wordAt e) && srcOf (s.wordAt e) < 0x40))).le e = z := by
    rw [State.updLe_le, State.updLe_le, hle, hz]
  rw [hW]
  generalize hW2 : ((s.begun e).updLe e f).updLe e (fun y => y.stepped (s.le e).mustEntry
      (isCtl (s.wordAt e) && srcOf (s.wordAt e) < 0x40)) = W
  have hWo : ∀ k, k ≠ e → W.le k = s.le k := by
    intro k hk; rw [← hW2, State.updLe_le_ne _ _ _ _ hk, State.updLe_le_ne _ _ _ _ hk, begun_other _ _ _ hk]
  have hWs : W = { s with eng := W.eng } := by
    rw [← hW2]; have := begun_out s e
    generalize s.begun e = B at this ⊢
    rw [this]; rfl
  have hWp : W.eng.prog = s.eng.prog := by rw [← hW2]; exact begun_prog s e
  generalize hF : (((W.updLe e (fun _ => z.seqNext (unitLen (s.wordAt e)) b)).updLe e Eng.aged).pushStage e []).updPe ((s.begun e).peOf e)
      (fun p => { p with stepSeq := (s.le e).stepSeq + 1, retryNow := 0 }) = F
  have hFe : F.le e = y := by rw [← hF, State.updPe_le, pushStage_le, State.updLe_le, State.updLe_le]
  have hsw : x.switched y = false := by
    rw [hyo]
    show (x.gsave.isSome != z.gsave.isSome || (x.bits.getLsbD 26 && !z.bits.getLsbD 26)) = false
    rw [← hz]
    show (x.gsave.isSome != (f x).gsave.isSome || (x.bits.getLsbD 26 && !(f x).bits.getLsbD 26)) = false
    rw [f10, f11]
    simp
  have hFa : F.afterFreeze e x (s.wordAt e) (s.srcRead e (srcOf (s.wordAt e))) = F := by
    unfold State.afterFreeze; dsimp only; rw [hFe, hdon, hbar, hfp, hsw]; rfl
  rw [hFa]
  refine ⟨?_, ?_, ?_, ?_, ?_⟩
  · rw [hFe]
    have e1 : z.rep = (s.le e).rep := by rw [← hz]; show (f x).rep = _; rw [f1, ← hx]
    have e2 : z.p0 = (s.le e).p0 := by rw [← hz]; show (f x).p0 = _; rw [f2, ← hx]
    have e3 : z.p1 = (s.le e).p1 := by rw [← hz]; show (f x).p1 = _; rw [f3, ← hx]
    have e4 : z.pc = (s.le e).pc := by rw [← hz]; show (f x).pc = _; rw [f4, ← hx]
    obtain ⟨h1, h2⟩ := ho
    rw [e1, e2, e3, e4] at h1 h2
    exact ⟨h1, h2⟩
  · rw [hFe]
    have e7 : z.steps = (s.le e).steps + 1 := by rw [← hz]; show (f x).steps + 1 = _; rw [f7, ← hx]
    have e8 : z.stepSeq = (s.le e).stepSeq + 1 := by rw [← hz]; show (f x).stepSeq + 1 = _; rw [f8, ← hx]
    have e9 : z.freeze = none := by rw [← hz]; show (f x).freeze = none; rw [f9, ← hx]
    rw [hyo, ← e7, ← e8]
    simp only [Eng.aged, Eng.ordered, closer, e9]
  · intro k hk
    rw [← hF, State.updPe_le, pushStage_le, State.updLe_le_ne _ _ _ _ hk, State.updLe_le_ne _ _ _ _ hk, hWo k hk]
  · rw [← hF]
    generalize (s.begun e).peOf e = n
    rw [hWs]; rfl
  · rw [← hF]; exact hWp

theorem mayStep_parts {s : State} {e : Nat} (h : s.settleParity.mayStep e = true) :
    ((s.atStep e).le e).barrier = none ∧ ((s.atStep e).le e).doneAt = none := by
  unfold State.atStep State.ready
  rw [State.updLe_le]
  generalize s.settleParity = t at h
  unfold State.mayStep at h
  simp only [Bool.and_eq_true, Option.isNone_iff_eq_none] at h
  have key : ∀ x : Eng, x.shown.barrier = x.barrier ∧ x.shown.doneAt = x.doneAt := by
    intro x
    unfold Eng.shown
    have : ∀ (l : List InFlight) (y : Eng), (l.foldl Eng.show1 y).barrier = y.barrier ∧ (l.foldl Eng.show1 y).doneAt = y.doneAt := by
      intro l
      induction l with
      | nil => intro y; exact ⟨rfl, rfl⟩
      | cons f l ih =>
        intro y
        have h1 : (y.show1 f).barrier = y.barrier ∧ (y.show1 f).doneAt = y.doneAt := by
          unfold Eng.show1 Eng.unitBits; split <;> exact ⟨rfl, rfl⟩
        exact ⟨(ih _).1.trans h1.1, (ih _).2.trans h1.2⟩
    exact this _ _
  rw [(key _).1, (key _).2]
  exact ⟨h.1.1.2, h.1.2⟩

theorem mustEntry_false {s : State} {e w : Nat} {v : W64} (h : Executes s e w v) (hw : w ≠ 0x3FD2) : ((s.atStep e).le e).mustEntry = false := by
  have ht := h.noTrap
  by_contra hm
  simp only [Bool.not_eq_false] at hm
  have hb := h.noFreeze
  have hi : (s.atStep e).illegal e w = true := by
    unfold State.illegal
    simp [hm, hw]
  have hbad : (s.atStep e).badWord e = false := by
    by_contra hl
    simp only [Bool.not_eq_false] at hl
    unfold State.blocked at hb
    simp [hl] at hb
  have hlate : ((s.atStep e).le e).late = false := by
    by_contra hl
    simp only [Bool.not_eq_false] at hl
    unfold State.blocked at hb
    simp [hbad, hl] at hb
  unfold State.trapOf at ht
  rw [h.word] at ht
  simp [hbad, hlate, hi] at ht

end Sys2Proof.Machine
end

