-- ==== Sys2Proof/Machine/DeckBytes.lean ====
section
/-! DEFINITION. The Tally region of the Deck as bytes: image headers and bodies, notes, the doubt table (R7, R123, R124, R129, R137, Tables 4.12, 4.13). The machine holds these records as the values they encode (log 23). -/

namespace Sys2Proof.Machine

/-- KIND of a header (Table 4.13). -/
def ImgKind.code : ImgKind → Nat
  | .full => 1 | .priority => 2 | .checkpoint => 3

/-- A header of Table 4.13 over a body: its 60 bytes, HDR_CRC, and zeros to 4 KiB. -/
def deckHeader (kind flags seq stamp records secLimit hold period : Nat) (body : List Byte) : List Byte :=
  let h := leBytes 0x7A119256 4 ++ leBytes 1 2 ++ leBytes kind 1 ++ leBytes flags 1 ++ leBytes seq 8 ++ leBytes stamp 8 ++ leBytes records 4 ++
    leBytes secLimit 4 ++ leBytes hold 4 ++ leBytes period 4 ++ leBytes (crc32c body).toNat 4 ++ leBytes 0 16
  h ++ leBytes (crc32c h).toNat 4 ++ leBytes 0 4032

/-- The generation of index i in an image. -/
def Image.gen (im : Image) (i : Nat) : BitVec 12 := Sp.look im.gens im.base i

/-- Two 12-bit values in 3 bytes, the even one in bits 11:0 (R124, R137). -/
def twelves (a b : BitVec 12) : List Byte := leBytes (fields [(0, a.toNat), (12, b.toNat)]) 3

/-- The generation table of n pairs from pair k on (R124). -/
def Image.genTable (im : Image) (k n : Nat) : List Byte := (upTo n).flatMap (fun j => twelves (im.gen (2 * (k + j))) (im.gen (2 * (k + j) + 1)))

/-- The entry of index i in a full image: FREE ones carry their next generation (R124). -/
def Image.entryAt (im : Image) (i : Nat) : Entry := (im.entries.find? (fun x => x.1 = i)).elim (Entry.free (im.gen i)) (fun x => x.2)

/-- The entries of n indices from k on, 32 bytes each (R124). -/
def Image.entryTable (im : Image) (k n : Nat) : List Byte := (upTo n).flatMap (fun j => leBytes (im.entryAt (k + j)).toNat 32)

/-- The priority records: an index and the entry, 36 bytes each (R124). -/
def Image.records (im : Image) : List Byte := im.entries.flatMap (fun x => leBytes x.1 4 ++ leBytes x.2.toNat 32)

/-- The body of an image (R124); that of a STALE header is empty (R128). -/
def Image.body (im : Image) : List Byte :=
  if im.stale then [] else if im.kind = .full then im.entryTable 0 1048576 else im.genTable 0 524288 ++ im.records

/-- RECORDS of an image (Table 4.13, R128). -/
def Image.count (im : Image) : Nat := if im.stale then 0 else if im.kind = .full then 1048576 else im.entries.length

/-- The header of an image (Table 4.13). -/
def Image.header (im : Image) : List Byte :=
  deckHeader im.kind.code (fields [(0, 1), (1, b2n im.stale)]) im.seq im.stamp im.count im.secLimit.toNat im.reuseHold.toNat im.ckptPeriod.toNat im.body

/-- A note (R129); one that has been freed is zero. -/
def Note.bytes (n : Note) : List Byte :=
  leBytes n.tid.toNat 4 ++ leBytes n.func.toNat 2 ++ leBytes (b2n n.commit) 1 ++ leBytes 0 1

/-- The doubt windows of n indices from k on (R137). -/
def Doubt.windows (d : Doubt) (k n : Nat) : List Byte := (upTo n).flatMap (fun j => twelves (d.win (k + j)).w (d.win (k + j)).n)

end Sys2Proof.Machine
end

