-- ==== Sys2Proof/Tests/Slice0.lean ====
section
/-! SUPPORT. Tests: ill-formed commands are refused by the checks, single steps give what the manual's tables give, and every statement's hypotheses are met by a state written out here. -/

open Sys2Proof Sys2Proof.Machine Sys2Proof.Cert

set_option Elab.async false
set_option maxRecDepth 100000

namespace Sys2Proof.Tests

/-! ## Helpers -/

/-- The next state of an outcome, or the reset state. -/
def after (o : Host.Outcome State Fault Refusal) : State := match o with | .next t => t | _ => State.reset

/-- A module at work: every start-up phase has ended, the Landing is ready, both ports are up. -/
def base : State :=
  { State.reset with
    tick := 1000000
    ports := [(0, { Port.init with up := true, trained := true, trainDue := none, answering := true }), (1, { Port.init with up := true, trained := true, trainDue := none, answering := true })]
    start := { State.reset.start with phase := 4, done := [.B, .C, .D, .E, .F, .G, .H, .I, .J, .K], loaded := true }
    mp := { State.reset.mp with run := 0 }
    lnd := { State.reset.lnd with init := 2, stackOk := 15 }
    pwr := { State.reset.pwr with pool := 400, idleA := 100, vHold := 12000 } }

/-- An engine that runs a program of the function 3, at address 0. -/
def eng0 : Eng := { Eng.init with running := true, tid := 0x00100005 }

/-- The module with engine E000 as given, and these words from program address 0 on. -/
def withEng (x : Eng) (ws : List Nat) : State :=
  { base with eng := { base.eng with les := [(0, x)], prog := ws.zipIdx.map (fun p => (p.2, BitVec.ofNat 14 p.1)) } }

/-- The word of a move (R173). -/
def mv (dst src : Nat) : Nat := 128 * dst + src

/-- Engine e executes word w with value v at this step, as a Bool. -/
def exB (s : State) (e w : Nat) (v : W64) : Bool :=
  s.settleParity.mayStep e && (s.atStep e).wordAt e == w && (s.atStep e).srcRead e (srcOf w) == v && (s.atStep e).trapOf e == none &&
    (s.atStep e).blocked e == none && !(s.atStep e).armed (uPe ((s.atStep e).peOf e)) 0x300 && !(s.atStep e).armed (uPe ((s.atStep e).peOf e)) 0x10000

theorem exB_executes (s : State) (e w : Nat) (v : W64) (h : exB s e w v = true) : Executes s e w v := by
  simp only [exB, Bool.and_eq_true, beq_iff_eq, Bool.not_eq_true'] at h
  obtain ⟨⟨⟨⟨⟨⟨h1, h2⟩, h3⟩, h4⟩, h5⟩, h6⟩, h7⟩ := h
  exact ⟨h1, h2, h3, h4, h5, h6, h7⟩

/-- A move of v to d is executed, from a source other than EVQ, and no return from a trap falls due. -/
def mvB (s : State) (d : Nat) (v : W64) : Bool :=
  let w := (s.atStep 0).wordAt 0
  exB s 0 w v && dstOf w == d && srcOf w != 0x6C && ((s.atStep 0).le 0).p0 != some .eret

theorem mvB_moves (s : State) (d : Nat) (v : W64) (h : mvB s d v = true) : Moves s 0 d v := by
  simp only [mvB, Bool.and_eq_true, beq_iff_eq, bne_iff_ne] at h
  exact ⟨⟨_, exB_executes _ _ _ _ h.1.1.1, h.1.1.2, h.1.2⟩, h.2⟩

/-- A control word w is executed, and no return from a trap falls due. -/
def ctlB (s : State) (w : Nat) : Bool := exB s 0 w ((s.atStep 0).srcRead 0 (srcOf w)) && ((s.atStep 0).le 0).p0 != some .eret

theorem ctlB_controls (s : State) (w : Nat) (h : ctlB s w = true) : Controls s 0 w := by
  simp only [ctlB, Bool.and_eq_true, bne_iff_ne] at h
  exact ⟨⟨_, exB_executes _ _ _ _ h.1⟩, h.2⟩

/-- The result a step of E000 put in flight: value and flag bits. -/
def gave (o : Host.Outcome State Fault Refusal) : W64 × W32 := match ((after o).le 0).flight with | [f] => (f.val, f.bits) | _ => (0, 0xFFFFFFFF)

/-- E000 about to move G1 to port d, its A latches a, G1 = t, CARRY c. -/
def alu (d : Nat) (a t : W64) (c : Bool) : State :=
  withEng { eng0 with g := [(1, t)], lat := { Latches.init with aluA := a, mulA := a, fpA := a, louA := a, louB := t }, bits := if c then bitsReset ||| 1 else bitsReset } [mv d 1]
def aluG (d : Nat) (a t : W64) : State := { alu d a t false with pwr := { base.pwr with grants := [⟨3, 1, 0x80⟩] } }

/-! ## Engines: function units (Table 7.2) -/

theorem test_add_overflows : gave (exec (.aluAdd 0 true) (alu 0x11 0x7FFFFFFFFFFFFFFF 1 false)) = (0x8000000000000000, 0b1010) := by decide +kernel
theorem test_add_carries : gave (exec (.aluAdd 0 true) (alu 0x11 0xFFFFFFFFFFFFFFFF 1 false)) = (0, 0b0101) := by decide +kernel
theorem test_sub_borrows : gave (exec (.aluSub 0 true) (alu 0x12 0 1 false)) = (0xFFFFFFFFFFFFFFFF, 0b1001) := by decide +kernel
theorem test_sub_overflows : gave (exec (.aluSub 0 true) (alu 0x12 0x8000000000000000 1 false)) = (0x7FFFFFFFFFFFFFFF, 0b0010) := by decide +kernel
theorem test_addc : gave (exec (.aluAddc 0 true) (alu 0x1E 0xFFFFFFFFFFFFFFFF 0 true)) = (0, 0b0101) := by decide +kernel
theorem test_subb : gave (exec (.aluSubb 0 true) (alu 0x1F 0 0 true)) = (0xFFFFFFFFFFFFFFFF, 0b1001) := by decide +kernel
theorem test_shl : gave (exec (.aluShl 0 true) (alu 0x17 1 64 false)) = (1, 0) ∧ gave (exec (.aluShl 0 true) (alu 0x17 0x8000000000000000 1 false)) = (0, 0b0101) := by decide +kernel
theorem test_sar : gave (exec (.aluSar 0 true) (alu 0x19 0x8000000000000000 63 false)) = (0xFFFFFFFFFFFFFFFF, 0b1000) := by decide +kernel
theorem test_shr : gave (exec (.aluShr 0 true) (alu 0x18 0xFFFFFFFFFFFFFFFF 63 false)) = (1, 1) := by decide +kernel
theorem test_rol : gave (exec (.aluRol 0 true) (alu 0x1A 0x8000000000000001 1 false)) = (3, 1) := by decide +kernel
theorem test_mul : gave (exec (.mulLo 0 true) (alu 0x21 0xFFFFFFFFFFFFFFFF 0xFFFFFFFFFFFFFFFF false)) = (1, 0) ∧
    gave (exec (.mulHiu 0 true) (alu 0x22 0xFFFFFFFFFFFFFFFF 0xFFFFFFFFFFFFFFFF false)) = (0xFFFFFFFFFFFFFFFE, 0) ∧
    gave (exec (.mulHis 0 true) (alu 0x23 0x8000000000000000 0x8000000000000000 false)) = (0x4000000000000000, 0) := by decide +kernel
theorem wit_alu_moves : (∀ d ∈ (List.range 15).map (· + 0x11), mvB (alu d 0xFFFFFFFFFFFFFFFF 63 true) d 63 = true) ∧
    (∀ d ∈ [0x21, 0x22, 0x23], mvB (alu d 7 9 false) d 9 = true) ∧ (∀ d ∈ (List.range 9).map (· + 0x25), mvB (aluG d 7 9) d 9 = true) := by decide +kernel

/-! ## Engines: floating point -/

theorem test_fp_values : gave (exec (.faddD 0 true) (aluG 0x25 0x3FF0000000000000 0x3FF0000000000000)) = (0x4000000000000000, 0) ∧
    gave (exec (.fsubS 0 true) (aluG 0x28 0x3F800000 0x40000000)) = (0xBF800000, 0) ∧
    gave (exec (.fmulD 0 true) (aluG 0x29 0x7FE0000000000000 0x7FE0000000000000)) = (0x7FF0000000000000, 0xA0000) := by decide +kernel
theorem test_fp_underflow : gave (exec (.fmulS 0 true) (aluG 0x2A 0x00800000 0x80800000)) = (0x80000000, 0x60000) ∧
    gave (exec (.faddS 0 true) (aluG 0x27 0x00000001 0x00000000)) = (0, 0x400000) := by decide +kernel
theorem test_fp_nan : gave (exec (.fsubD 0 true) (aluG 0x26 0x7FF0000000000001 0)) = (0x7FF8000000000000, 0x200000) ∧
    gave (exec (.faddD 0 true) (aluG 0x25 0xFFF8000000000123 0)) = (0x7FF8000000000000, 0) := by decide +kernel
theorem test_fcmp : gave (exec (.fcmpD 0 true) (aluG 0x2B 0x8000000000000000 0)) = (2, 0x1000000) ∧
    gave (exec (.fcmpS 0 true) (aluG 0x2C 0x3F800000 0x7FC00000)) = (8, 0x2000000) := by decide +kernel
theorem test_fcvt : gave (exec (.fcvt 0 true) (aluG 0x2D 4 0xBFF0000000000000)) = (0, 0x200000) ∧
    gave (exec (.fcvt 0 true) (aluG 0x2D 3 0xC004000000000000)) = (0xFFFFFFFFFFFFFFFE, 0x20000) := by decide +kernel
theorem wit_fp_nan : nanEnc fpD 0xFFF8000000000123 ∧ nanEnc fpS 0x7F800001 ∧ snanEnc fpS 0x7F800001 ∧ ¬ nanEnc fpD 0x7FF0000000000000 ∧ isEnc fpD 0xFFF8000000000123 ∧
    isEnc fpS 0xFFFFFFFF ∧ nanEnc fpD (fpD.op 4 0 0xBFF0000000000000 0).val ∧ nanEnc fpS (fcvtOp 0 0 0x7FF8000000000000).val ∧ nanEnc fpD (fcvtOp 1 0 0x7FC00000).val ∧
    nanEnc fpD (fcvtOp 9 0 0x7FF0000000000001).val := by decide +kernel
theorem wit_fp_numbers : subEnc fpD 1 ∧ subEnc fpS 0x807FFFFF ∧ normEnc fpD 0x0010000000000000 ∧ normEnc fpS 0xFF7FFFFF ∧ isEnc fpD 1 ∧ isEnc fpS 0x807FFFFF ∧
    ¬ nanEnc fpS 0x807FFFFF := by decide +kernel

/-! ## Engines: moves, branches, control words -/

/-- E000 about to move G1 = v to port d. -/
def moveTo (d : Nat) (v : W64) : State := withEng { eng0 with g := [(1, v)] } [mv d 1]

theorem test_move_registers : ((after (exec (.move 0 true) (moveTo 0xF 77))).le 0).g = [(1, 77), (15, 77)] := by decide +kernel
theorem test_move_readonly_bit : ((after (exec (.move 0 true) (moveTo 0x45 0))).le 0).bits.getLsbD 5 = true ∧
    ((after (exec (.move 0 true) (moveTo 0x43 1))).le 0).bits.getLsbD 3 = true := by decide +kernel
theorem test_fpctl_reserved : ((after (exec (.move 0 true) (moveTo 0x68 0xFFFFFFFFFFFFFFFF))).le 0).fpctl = 0x71F7 := by decide +kernel
theorem test_evq_read : ((after (exec (.evqRead 0 true) (withEng { eng0 with evq := [9, 8] } [mv 2 0x6C]))).le 0).g = [(2, 9)] ∧
    ((after (exec (.evqRead 0 true) (withEng { eng0 with evq := [9, 8] } [mv 2 0x6C]))).le 0).evq = [8] := by decide +kernel
theorem wit_moves_store : (∀ d ∈ List.range 0x71, (d ≤ 0x10 ∨ d = 0x20 ∨ d = 0x24 ∨ d = 0x2E ∨ d = 0x2F ∨ d = 0x38 ∨ d = 0x39 ∨ d = 0x3B ∨ (0x40 ≤ d ∧ d ≤ 0x65) ∨ d = 0x67 ∨ d = 0x68 ∨
      d = 0x6D ∨ d = 0x6E ∨ d = 0x6F) → mvB (moveTo d 5) d 5 = true) ∧
    exB (withEng { eng0 with evq := [9, 8] } [mv 2 0x6C]) 0 (mv 2 0x6C) 9 = true ∧
    mvB (withEng { eng0 with g := [(1, 5)], rqGal := [1, 2], rqCph := [1, 2] } [mv 0x6E 1]) 0x6E 5 = true := by decide +kernel
theorem wit_moves_storing : storing 0 ∧ storing 0x10 ∧ storing 0x65 ∧ storing 0x68 ∧ ¬ storing 0x66 := by simp [storing]

theorem test_branch_if : ((after (exec (.brIf 0 true) (withEng { eng0 with g := [(1, 0x40)], lat := { Latches.init with brCond := 0x101F } } [mv 0x3C 1]))).le 0).p1 = some (.to 0x40) ∧
    ((after (exec (.brIf 0 true) (withEng { eng0 with g := [(1, 0x40)], lat := { Latches.init with brCond := 0x001F } } [mv 0x3C 1]))).le 0).p1 = none := by decide +kernel
theorem test_branch_call : ((after (exec (.brCall 0 true) (withEng { eng0 with g := [(1, 0x40)] } [mv 0x3E 1, 0x3FD0, 3, 0x3FFF]))).le 0).brLink = 4 ∧
    ((after (exec (.brJump 0 true) (moveTo 0x3D 0x8001))).le 0).p1 = some (.to 1) := by decide +kernel
theorem wit_branches : (∀ d ∈ [0x3C, 0x3D, 0x3E], mvB (moveTo d 0x40) d 0x40 = true) ∧
    mvB (withEng { eng0 with bits := bitsReset ||| (1 <<< 26) } [mv 0x3F 1]) 0x3F 0 = true := by decide +kernel

/-- E000 about to execute control word w. -/
def control (w : Nat) : State := withEng eng0 [w, 3]

theorem test_immx_run : ((after (exec (.immx 0 true) (withEng { eng0 with limm := 4, immx := true } [0x3F80]))).le 0).limm = 0x100 ∧
    ((after (exec (.immx 0 true) (withEng { eng0 with limm := 0x80, immx := true } [0x3FA0]))).le 0).limm = 0x2020 := by decide +kernel
theorem test_immx_new : ((after (exec (.immx 0 true) (withEng { eng0 with limm := 99 } [0x3F84]))).le 0).limm = 4 := by decide +kernel
theorem test_repeat : ((after (exec (.repeatN 0 true) (control 0x3FC3))).le 0).rep = some (4, 4) ∧ ((after (exec (.repeatN 0 true) (control 0x3FC3))).le 0).pc = 1 := by decide +kernel
theorem test_repeat_g : ((after (exec (.repeatG 0 true) (withEng { eng0 with g := [(3, 0x20000)] } [0x3FD0, 3]))).le 0).rep = some (65535, 65535) ∧
    ((after (exec (.repeatG 0 true) (withEng eng0 [0x3FD0, 3, 0x3FFF]))).le 0).pc = 3 := by decide +kernel
theorem wit_control : (∀ w ∈ [0x3F80, 0x3FBF, 0x3FFF, 0x3FD2, 0x3FD6, 0x3FD4, 0x3FD5, 0x3FC0, 0x3FCF, 0x3FD0], ctlB (control w) w = true) := by decide +kernel
theorem wit_bar_order_waits : ctlB (withEng { eng0 with stores := [⟨64, 8, 1, 5, false⟩] } [0x3FD4]) 0x3FD4 = true ∧
    (((withEng { eng0 with stores := [⟨64, 8, 1, 5, false⟩] } [0x3FD4]).atStep 0).le 0).openStores = true := by decide +kernel
/-- A handler of E000 whose return falls due. -/
def returning : State := withEng { eng0 with bits := bitsReset ||| (1 <<< 26), p0 := some .eret, tsave := some ⟨Latches.init, Ports.init, true, false⟩, trap := { TrapRegs.init with erpc1 := 9, erpc2 := 10, ercnt := 2 } } [0x3FFF]
theorem test_eret : ((after (exec (.nop 0 true) returning)).le 0).pc = 9 ∧ ((after (exec (.nop 0 true) returning)).le 0).rep = some (2, 0) := by decide +kernel
theorem wit_trap_returns : exB returning 0 0x3FFF ((returning.atStep 0).srcRead 0 (srcOf 0x3FFF)) = true ∧ ((returning.atStep 0).le 0).p0 = some .eret ∧ ((returning.atStep 0).le 0).tsave.isSome = true := by decide +kernel

/-! ## Engines: loads and stores -/

/-- E000 about to load or store at address a. -/
def access (d a : Nat) (v : W64) : State := withEng { eng0 with g := [(1, v)], lat := { Latches.init with lsuAddr := BitVec.ofNat 48 a, lsuAuto := true } } [mv d 1]
/-- Scratch with bytes 1 to 8 at 0x1100000000. -/
def scratch8 (s : State) : State := { s with bytes := (List.range 8).map (fun i => (0x1100000000 + i, BitVec.ofNat 8 (i + 1))) }
/-- Cluster 0 holds Landing sector 4, its L1s off. -/
def held (s : State) : State :=
  (s.updMem 0 (fun m => { m with
    l1 := (List.range 9).map (fun j => (j, { L1.init with enable := false, state := 0 }))
    l2 := [(16 * 2, some { blk := 2, s0 := { L2Sec.init with st := .E, data := 0x0807060504030201 }, s1 := L2Sec.init, used := 1 })] }))

theorem test_load_scratch : gave (exec (.ld16 0 true) (scratch8 (access 0x31 0x1000000002 0))) = (0x0403, 0) ∧
    ((after (exec (.ld16 0 true) (scratch8 (access 0x31 0x1000000002 0)))).le 0).lat.lsuAddr = 0x1000000004 := by decide +kernel
theorem test_load_l2 : gave (exec (.ld32 0 true) (held (access 0x32 0x100 4))) = (0x08070605, 0) := by decide +kernel
theorem test_load_asks : ((after (exec (.ld64 0 true) (access 0x33 0x100 0))).le 0).openLoads = [(0x100, 8)] ∧ gave (exec (.ld8 0 true) (scratch8 (access 0x30 0x1100000007 0))) = (8, 0) := by decide +kernel
theorem wit_loads : (∀ k ∈ [0, 1, 2, 3], mvB (scratch8 (access (0x30 + k) 0x1000000000 0)) (0x30 + k) 0 = true ∧ mvB (held (access (0x30 + k) 0x100 0)) (0x30 + k) 0 = true ∧
      mvB (access (0x30 + k) 0x100 0) (0x30 + k) 0 = true) ∧ zoneOf 0 0x1000000000 = .scratch 0 ∧ zoneOf 0 0x100 = .landing ∧
    (((held (access 0x30 0x100 0)).memCl 0).sector 4).st ≠ .I ∧ (((access 0x30 0x100 0).memCl 0).sector 4).st = .I ∧
    ((held (access 0x30 0x100 0)).l1 0 0).enable = false := by decide +kernel
/-- PF0's window 0 maps the host region's start. -/
def hosted (s : State) : State := { s with qm := { s.qm with wins := [(0, ⟨true, true, true, 0x3FF, 0, 1⟩)] } }
theorem test_store_scratch : (after (exec (.st16 0 true) (access 0x35 0x1000000006 0xBEEF))).bytes = [(0x1100000006, 0xEF), (0x1100000007, 0xBE)] := by decide +kernel
theorem test_store_waits : ((after (exec (.st8 0 true) (access 0x34 0x101 5))).le 0).stores = [⟨0x101, 1, 5, 1000000, false⟩] ∧ (after (exec (.st8 0 true) (access 0x34 0x101 5))).bytes = [] := by decide +kernel
theorem test_store_sizes : (after (exec (.st32 0 true) (access 0x36 0x1000000008 0x1122334455667788))).bytes.length = 4 ∧
    (after (exec (.st64 0 true) (access 0x37 0x1000000008 0x1122334455667788))).bytes.length = 8 := by decide +kernel
theorem wit_stores : (∀ k ∈ [0, 1, 2, 3], mvB (access (0x34 + k) 0x1000000000 7) (0x34 + k) 7 = true ∧ mvB (access (0x34 + k) 0x100 7) (0x34 + k) 7 = true ∧
      mvB (hosted (access (0x34 + k) 0x8000000000 7)) (0x34 + k) 7 = true) ∧ zoneOf 0 0x8000000000 = .host := by decide +kernel

/-! ## Engines: long operations -/

/-- E000 with long operation `code` in flight on a and b; where its microcode stands is the patch's (the ROM is opaque). -/
def louing (code : Byte) (a b : W64) : State :=
  let s := withEng { eng0 with lou := some ⟨code, false, a, b, 0, 5, false, false⟩, bits := bitsReset &&& ~~~(1#4096 <<< 5) } [0x3FFF]
  { s with eng := { s.eng with disp := [(code.toNat, if louAssigned code.toNat then some 0x8C00 else none)] } }
/-- LOU.OUT0, LOU.OUT1, LFAIL after the operation. -/
def louGave (o : Host.Outcome State Fault Refusal) : W64 × W64 × Bool := (((after o).le 0).ports.lou0, ((after o).le 0).ports.lou1, ((after o).le 0).bits.getLsbD 7)
def lend (s : State) : Host.Outcome State Fault Refusal := exec (.longOpComplete 0 HostIn.empty none) s

theorem test_div : louGave (lend (louing 1 7 0)) = (0xFFFFFFFFFFFFFFFF, 7, false) ∧ louGave (lend (louing 1 0x8000000000000000 0xFFFFFFFFFFFFFFFF)) = (0, 0x8000000000000000, false) ∧
    louGave (lend (louing 2 0x8000000000000000 0xFFFFFFFFFFFFFFFF)) = (0x8000000000000000, 0, false) := by decide +kernel
theorem test_divs_signs : louGave (lend (louing 2 (-7) 2)) = (0xFFFFFFFFFFFFFFFD, 0xFFFFFFFFFFFFFFFF, false) ∧ louGave (lend (louing 2 7 (-2))) = (0xFFFFFFFFFFFFFFFD, 1, false) := by decide +kernel
theorem test_bscan_popcnt : louGave (lend (louing 9 0 0)) = (64, 64, false) ∧ louGave (lend (louing 9 0x50 0)) = (4, 6, false) ∧ louGave (lend (louing 10 0xFF00000000000001 0)) = (9, 0, false) := by decide +kernel
theorem test_fp_long : louGave (lend (louing 3 0x3FF0000000000000 0)) = (0x7FF0000000000000, 0, false) ∧ louGave (lend (louing 5 0x4010000000000000 0)) = (0x4000000000000000, 0, false) ∧
    louGave (lend (louing 6 0xBF800000 0)) = (0x7FC00000, 0, false) := by decide +kernel
theorem test_crc32c : crc32c [0x31, 0x32, 0x33, 0x34, 0x35, 0x36, 0x37, 0x38, 0x39] = 0xE3069283 := by decide +kernel
theorem test_bcmp : louGave (lend (scratch8 (louing 8 0x1100000000 (0x0003000000000000 ||| 0x1100000000)))) = (4, 0, false) ∧
    louGave (lend (scratch8 (louing 8 0x1100000000 (0x0003000000000000 ||| 0x1100000004)))) = (0, 0x10105, false) := by decide +kernel
theorem test_badarg : louGave (lend (louing 0x30 1 2)) = (0, 4, true) := by decide +kernel
/-- LOU.GO of value v about to execute. -/
def going1 (v : W64) : State := { moveTo 0x3A v with pwr := { base.pwr with grants := [⟨3, 1, 0x80⟩] } }
theorem wit_lou_starts : (∀ v ∈ [1, 2, 3, 4, 5, 6, 7, 8, 9, 10, 0x10, 0x11, 0x12, 0x13, 0x14, 0x100], mvB (going1 (BitVec.ofNat 64 v)) 0x3A (BitVec.ofNat 64 v) = true) := by decide +kernel
theorem wit_lou_runs (code : Byte) (a b : W64) : LongRuns (louing code a b) 0 ⟨code, false, a, b, 0, 5, false, false⟩ :=
  ⟨rfl, rfl, rfl, rfl, rfl, rfl, fun _ _ h => by cases h⟩
theorem wit_lou_codes : louRows.all (fun p => p.1 != 0x30) = true := by decide +kernel
theorem wit_clean_scratch : clean (scratch8 (louing 7 0x1100000000 8)) := fun _ => rfl
theorem wit_scratch_bytes : (∀ k ∈ List.range 8, zoneOf 0 (0x1100000000 + k) = .scratch 0 ∧ (scratch8 (louing 7 0x1100000000 8)).engByteOk 0 (0x1100000000 + k) false = true) ∧
    ((scratch8 (louing 7 0x1100000000 8)).le 0).ownStore 0 0x1100000000 8 = none := by decide +kernel
/-- The same with the transaction's entry in state st, its group A required. -/
def ledger (code : Byte) (st : TState) (ack : BitVec 3) : State :=
  (louing code 7 9).setEntry 5 { Entry.free 1 with state := st, func := 3, reqMask := 1, ackMask := ack }
theorem test_tl_operations : louGave (lend (ledger 0x10 .opened 0)) = (0, 2, false) ∧ ((after (lend (ledger 0x10 .opened 0))).entry 5).state = .active ∧
    louGave (lend (ledger 0x12 .active 0)) = (3, 2, true) ∧ ((after (lend (ledger 0x12 .active 1))).entry 5).state = .committed := by decide +kernel
theorem wit_tl_gen : ((ledger 0x12 .active 1).entry 5).gen = tidGen ((ledger 0x12 .active 1).le 0).tid ∧ (((louing 0x12 7 9).setEntry 5 (Entry.free 2)).entry 5).gen ≠ 1 := by decide +kernel

/-! ## Engines: requests, DONE, gates -/

/-- An ACTIVE transaction of PF0 on group 7 in slot A. -/
def txn : Entry := { Entry.free 1 with state := .active, groupA := 7, reqMask := 1 }
/-- E000 with the request words kept, about to submit v. -/
def asking (d : Nat) (x : Eng) (v : W64) : State := (withEng { x with g := [(1, v)] } [mv d 1]).setEntry 5 txn
def rq2 (a v : W64) : State := asking 0x6D { eng0 with rqCh := some a } v

theorem test_rqch_badreq : ((after (exec (.rqCh 0 true HostIn.empty) (rq2 0x1000000000 0))).le 0).evq = [0x0010000580000001] := by decide +kernel
theorem test_rqch_frame : (((after (exec (.rqCh 0 true HostIn.empty) (scratch8 (rq2 0x1000000000 0x30004)))).flow 5 0).stored.map (fun f => (f.f.seq, f.f.payload))) = [(3, [1, 2, 3, 4])] := by decide +kernel
theorem wit_rqch : mvB (rq2 0x1000000000 0) 0x6D 0 = true ∧ fld 0 0 13 = 0 ∧ mvB (rq2 0x1000000000 4096) 0x6D 4096 = true ∧
    (rq2 0 1).tidLive ((rq2 0 1).le 0).tid = true ∧ ((rq2 0 1).entry 5).names 0 = true ∧ (rq2 0 1).reqRange 0 0x1000000000 4096 false = true ∧
    (rq2 0 1).reqRange 0 0xFF0000000000 4096 false = false ∧ mvB (rq2 0x1000000000 0x2001000000) 0x6D 0x2001000000 = true ∧
    (rq2 0 1).reqRange 0 0x1000000000 1 true = true := by decide +kernel
theorem wit_chword : chWordOk 4096 ∧ chWordOk 0x2001000000 ∧ ¬ chWordOk 4097 ∧ ¬ chWordOk 0x300000001 := by simp [chWordOk, fld]

/-- Galley and cipher requests of E000 at their last word. -/
def gal4 (w0 w1 w2 w3 : W64) : State := asking 0x6E { eng0 with rqGal := [w0, w1, w2] } w3
def cph4 (w0 w1 w2 w3 : W64) : State := asking 0x6F { eng0 with rqCph := [w0, w1, w2] } w3
theorem test_gal_badreq : ((after (exec (.galCompress 0 true) (gal4 0x1000000000 0x1000002000 0 0))).le 0).evq = [0x0010000580000002] := by decide +kernel
theorem test_gal_queues : ((after (exec (.galExpand 0 true) (gal4 0x1000000000 0x1000002000 0 0x500001000))).coder 0).queue.map (fun r => (r.op, r.ratio, r.len)) = [(1, 1, 4096)] := by decide +kernel
theorem wit_gal : (∀ v ∈ [0x100000001, 0x100100000, 0x500001000, 0, 0x400000000], mvB (gal4 0x1000000000 0x1000002000 0 (BitVec.ofNat 64 v)) 0x6E (BitVec.ofNat 64 v) = true) ∧
    (gal4 0 0 0 1).reqRange 0 0x1000000000 8192 true = true ∧ (gal4 0 0 0 1).engCoder false 0 = some 0 ∧ ((gal4 0 0 0 1).coder 0).room 0 = true ∧
    (gal4 0 0 0 1).reqRange 0 0xFF0000000000 8 true = false := by decide +kernel
theorem wit_gal_words : galWordsOk 0 0x1000000000 0x1000002000 0 0x100000001 ∧ ¬ galWordsOk 0 0x1000000000 0x1000002000 0 1 := by
  constructor
  · simp [galWordsOk, galLens, fld]; decide +kernel
  · simp [galWordsOk, galLens, fld]
theorem wit_gal_full : (((gal4 0 0 0 1).updCoder 0 (fun x => { x with queue := List.replicate 32 ((gal4 0 0 0 1).svcOf 0 0 0 0 1) })).coder 0).room 0 = false := by decide +kernel
theorem test_cph_seal : ((after (exec (.cphSeal 0 true) (cph4 0x1000000000 0x1000002000 0 16))).grp 0).queue.map (fun r => (r.op, r.len, r.aadLen)) = [(0, 16, 0)] := by decide +kernel
theorem test_cph_raw_mode : ((after (exec (.cphRawEncrypt 0 true) ({ cph4 0x1000000000 0x1000002000 0 0x800000010 with deck := { Deck.blank with lc := .field } }))).le 0).evq = [0x001000057000000F] := by decide +kernel
theorem test_cph_badreq : ((after (exec (.cphRawDecrypt 0 true) (cph4 0x1000000000 0x1000002000 0 0xC00000001))).le 0).evq = [0x0010000580000003] := by decide +kernel
theorem wit_cph : (∀ v ∈ [16, 0x1000000, 0x400000001, 0x400010000, 0x800000010, 0xC00000010, 0, 0xC00000001], mvB (cph4 0x1000000000 0x1000002000 0 (BitVec.ofNat 64 v)) 0x6F (BitVec.ofNat 64 v) = true) ∧
    (cph4 0 0 0 1).reqRange 0 0x1000000000 44 true = true ∧ (cph4 0 0 0 1).engGrp false 0 = some 0 ∧ ((cph4 0 0 0 1).grp 0).room 0 = true ∧
    (cph4 0 0 0 1).deck.lc = .manufacture ∧ (cph4 0 0 0 1).reqRange 0 0xFF0000000000 44 true = false ∧ ((cph4 0 0 0 1).slot 4096).invoc ≠ BitVec.allOnes 40 := by decide +kernel
theorem wit_cph_words : cphWordsOk 0 0 1 ∧ cphWordsOk 0 (4096 <<< 48) 0x1000000 ∧ ¬ cphWordsOk 0 (4097 <<< 48) 1 := by simp [cphWordsOk, fld]

/-- A secure image whose entry 0 is at 0x20; the secure world runs and has one gate. -/
def gated (x : Eng) (w : Nat) : State :=
  let s := withEng x [w]
  { s with
    tru := { s.tru with secState := 1, gates := 1, wm := ⟨0, (if x.gsave.isSome then 1 else 0), 0, 0⟩ }
    eng := { s.eng with prog := s.eng.prog ++ [(0x20, 0x3FD2)], secImg := some ⟨false, true, 0x20, [0], 0xFFFF, [0x3FD2], []⟩ } }
/-- What a gate call saved. -/
def saved : GateSave :=
  { g := [(8, 5)], bits := bitsReset, bwin := 3, fpctl := 1, trap := TrapRegs.init, lat := Latches.init, ports := Ports.init, tsave := none, intrap := false, pc := 0x55, p0 := none, p1 := none, fore := false, rep := none, micro := none }
theorem test_done : ((after (exec (.done 0 true) (moveTo 0x70 0))).le 0).doneAt = some (0, 1000000) := by decide +kernel
theorem test_gate : ((after (exec (.gate 0 true) (gated eng0 0x3FD1))).le 0).pc = 0x20 ∧ ((after (exec (.gate 0 true) (gated eng0 0x3FD1))).le 0).bits.getLsbD 15 = true ∧
    ((after (exec (.gate 0 true) (withEng eng0 [0x3FD1]))).le 0).g = [(0, 0xE)] := by decide +kernel
theorem test_return_gate : ((after (exec (.returnGate 0 true) (gated { eng0 with gsave := some saved, bits := bitsReset ||| 0x8000, g := [(0, 1), (8, 9)] } 0x3FD3))).le 0).g = [(0, 1), (8, 5)] := by decide +kernel
theorem wit_gates : mvB (moveTo 0x70 0) 0x70 0 = true ∧ ctlB (gated eng0 0x3FD1) 0x3FD1 = true ∧ (gated eng0 0x3FD1).gateDenied 0 = false ∧
    (gated eng0 0x3FD1).gateTarget 0 = some 0x20 ∧ ctlB (withEng eng0 [0x3FD1]) 0x3FD1 = true ∧ (withEng eng0 [0x3FD1]).gateDenied 0 = true ∧
    ctlB (gated { eng0 with gsave := some saved, bits := bitsReset ||| 0x8000 } 0x3FD3) 0x3FD3 = true := by decide +kernel

/-! ## Engines: mismatches, traps, dispatch, ends -/

/-- E000 with TRAPVEC 0x40 about to divide an FP number by nothing: NV traps. -/
def fpTrap (intrap : Bool) : State :=
  let s := aluG 0x25 0x7FF0000000000001 0
  s.updLe 0 (fun x => { x with fpctl := 0x100, trap := { TrapRegs.init with vec := 0x40 }, bits := if intrap then bitsReset ||| (1 <<< 26) else bitsReset })
theorem test_trap_entry : ((after (exec (.trapEntry 0) (fpTrap false))).le 0).pc = 0x40 ∧ ((after (exec (.trapEntry 0) (fpTrap false))).le 0).trap.ecause = 4 ∧
    ((after (exec (.trapEntry 0) (fpTrap false))).le 0).trap.erpc1 = 1 := by decide +kernel
theorem test_illegal_ends : ((after (exec (.trapEntry 0) (withEng eng0 [0x3FF0]))).le 0).running = false ∧
    (after (exec (.trapEntry 0) (withEng eng0 [0x3FF0]))).flt.log.map (fun r => (r.kind, r.detail)) = [(4, 1)] := by decide +kernel
theorem wit_traps : (fpTrap false).settleParity.mayStep 0 = true ∧ ((fpTrap false).atStep 0).trapOf 0 = some 4 ∧ (((fpTrap false).atStep 0).le 0).terminal 4 = false ∧
    (((fpTrap false).atStep 0).le 0).lou = none ∧ (((fpTrap true).atStep 0).le 0).terminal 4 = true ∧ ((fpTrap true).atStep 0).trapOf 0 = some 4 ∧
    ((withEng eng0 [0x3FF0]).atStep 0).trapOf 0 = some 1 ∧ ((withEng eng0 [0x3FF0]).atStep 0).trapOf 0 = some 1 := by decide +kernel
theorem wit_mismatch : exB (withEng eng0 [0x3FFF]) 0 0x3FFF (((withEng eng0 [0x3FFF]).atStep 0).srcRead 0 (srcOf 0x3FFF)) = true ∧
    ((after (exec (.nop 0 false) (withEng eng0 [0x3FFF]))).le 0).freeze = some (8, 1000000) := by decide +kernel
theorem wit_one_row : exec (.nop 0 true) (withEng eng0 [0x3FFF]) ≠ .next (withEng eng0 [0x3FFF]).settleParity := by
  intro h
  have : ((after (exec (.nop 0 true) (withEng eng0 [0x3FFF]))).le 0).steps = (((withEng eng0 [0x3FFF]).settleParity).le 0).steps := by rw [h]; rfl
  revert this; decide +kernel

/-- An entry of PF0 waits for an engine; E000 is idle and has its base grant. -/
def waiting (st : TState) : State :=
  let s := withEng { Eng.init with stepSeq := 6 } [0x3FD2]
  { s.setEntry 5 { txn with state := st, opc := 0, qpair := 0 } with
    deck := { s.deck with images := [(1, some ⟨false, false, 0, [0], 0xFFFF, [0x3FD2], []⟩)], order := [1] }
    mp := { s.mp with binds := [] }
    pwr := { s.pwr with grants := [⟨3, 1, 0⟩] }
    qm := { s.qm with work := [(5, some { word := 0, pkt := 0, iv := 0, gen := 0, image := 1, entry := 0, gate := false })] } }
theorem test_dispatch : ((after (exec (.dispatch 5 0) (waiting .opened))).le 0).tid = 0x00100005 ∧ ((after (exec (.dispatch 5 0) (waiting .opened))).le 0).mustEntry = true := by decide +kernel
theorem wit_dispatch : (∀ st ∈ [TState.opened, TState.active], (waiting st).live = true ∧ (waiting st).isReady = true ∧ (waiting st).tly.stopped = false ∧ (waiting st).engineIdle 0 = true ∧
      (waiting st).waitsEngine 5 = true ∧ (waiting st).mayServe 5 0 = true ∧ ((waiting st).dispatchTarget 5).isSome = true ∧ (waiting st).hasGrant 3 (whoBase 0) = true) := by decide +kernel
/-- E000 has executed DONE. -/
def doneState (st : TState) : State := (withEng { eng0 with doneAt := some (3, 999999), freeze := some (11, 999999) } []).setEntry 5 { txn with state := st }
theorem test_program_end : ((after (exec (.programEnd 0) (doneState .committed))).le 0).running = false ∧ ((after (exec (.programEnd 0) (doneState .active))).entry 5).result1 = 0x12 := by decide +kernel
theorem wit_program_end : (doneState .active).live = true ∧ (doneState .active).inService 0 = true ∧ ((doneState .active).le 0).running = true ∧ ((doneState .active).le 0).openLoads = [] ∧
    (doneState .active).tidLive 0x00100005 = true ∧ ((doneState .committed).entry 5).state = .committed := by decide +kernel
/-- E000 in a barrier, and one that waits for an event since TICK 0. -/
def barring (b : Bool) (ss : List Store) : State := withEng { eng0 with barrier := some (b, 5), freeze := some (5, 5), stores := ss } []
def qwaiting : State := { withEng { eng0 with freeze := some (2, 0) } [mv 2 0x6C] with tick := 10000000 }
theorem test_barrier_complete : ((after (exec (.barrierComplete 0) (barring false []))).le 0).barrier = none := by decide +kernel
theorem test_endpoint_timeout : ((after (exec (.endpointTimeoutExpiry 0) (barring true [⟨0x200, 8, 1, 5, true⟩]))).pe 0).barErrAddr = 0x200 := by decide +kernel
theorem test_qwait : ((after (exec (.qwaitExpiry 0) qwaiting)).le 0).bits.getLsbD 8 = true ∧ ((after (exec (.qwaitExpiry 0) qwaiting)).le 0).pc = 1 := by decide +kernel
theorem wit_engine_waits : (barring true []).live = true ∧ (barring true []).inService 0 = true ∧ (barring true []).earlyAck 0x200 = false ∧ qwaiting.mayStep 0 = true ∧
    (qwaiting.ready 0).trapOf 0 = none ∧ (qwaiting.ready 0).wordAt 0 = mv 2 0x6C ∧ 0 + 100000 * (qwaiting.engCl 0).qwait.toNat ≤ qwaiting.tick := by decide +kernel
/-- A word of program memory at E000's counter with a bit inverted. -/
def flipped : State := withEng { eng0 with pc := 0x77 } []
theorem test_word_rewrite : ((after (exec (.programWordRewrite ⟨0, (.fails 1 false)⟩) flipped)).le 0).freeze = some (10, 1000000) ∧
    (let t := after (exec (.programWordRewrite ⟨0, .rewritten⟩) (after (exec (.programWordRewrite ⟨0, (.fails 1 false)⟩) flipped)));
      (t.flt.log.map (fun r => (r.source, r.kind, r.detail)), (t.le 0).freeze, t.progFails 0 0x77)) = ([(0x1000, 0x12, 0x77)], none, false) := by decide +kernel
theorem test_microword_rewrite : (after (exec (.microwordRewrite 0 (.rewritten (.micro 0xC00))) (after (exec (.microwordRewrite 0 (.fails (.micro 0xC00) false)) (louing 1 1 1))))).flt.log.map (fun r => (r.kind, r.cls, r.detail)) = [(0x12, 1, 0xC00)] ∧
    ((after (exec (.microwordRewrite 0 (.fails (.micro 0xC00) false)) (louing 1 1 1))).pe 0).louBad.isSome = true := by decide +kernel
theorem test_cnt_clear : ((after (exec (.engCntClear 0 3 1) (base.updPe 3 (fun p => { p with cnt := [(0, 5)] })))).pe 3).cnt = [] := by decide +kernel
theorem wit_engine_records : base.whoOk (.pf 0) = true ∧ base.secUnit (uPe 3) = false ∧ ((louing 1 1 1).le 0).lou.isSome = true := by decide +kernel

/-! ## Engines: lanes, spares, transports -/

/-- E000 frozen by a mismatch; its physical engine as given. -/
def mismatched (f : Pe → Pe) : State := (withEng { eng0 with freeze := some (8, 5) } [0x3FFF]).updPe 0 f
theorem test_lane_retry : ((after (exec (.laneRetry 0 false) (mismatched (fun p => { p with retryNow := 2 })))).pe 0).persistent = true ∧
    ((after (exec (.laneRetry 0 true) (mismatched id))).le 0).pc = 1 := by decide +kernel
theorem wit_lane_retry : (mismatched id).live = true ∧ (mismatched id).inService 0 = true ∧ ((mismatched id).pe 0).role = .active ∧ ((mismatched id).pe 0).testing = none ∧
    ((mismatched id).pe 0).retryNow.toNat < 7 ∧ (mismatched id).armed (uPe ((mismatched id).peOf 0)) 0x10000 = false ∧ (mismatched id).wordAt 0 = 0x3FFF ∧
    (mismatched id).trapOf 0 = none ∧ (mismatched id).blocked 0 = none := by decide +kernel
theorem test_lane_resync : ((after (exec (.laneResyncComplete 0) (mismatched (fun p => { p with testing := some true, laneB := 2, repairs := 15 })))).pe 0).repairs = 15 := by decide +kernel
theorem test_lane_test : ((after (exec (.laneTestComplete 0 ⟨true, true⟩) (mismatched (fun p => { p with testing := some false, laneA := 1 })))).pe 0).laneA = 2 ∧
    ((after (exec (.laneTestComplete 0 ⟨false, true⟩) (mismatched (fun p => { p with testing := some false, laneA := 1 })))).pe 0).role = .retired := by decide +kernel
theorem test_referee : ((after (exec (.refereeDecision 0 false true ⟨.none, true⟩) (mismatched (fun p => { p with persistent := true })))).pe 0).testing = some true := by decide +kernel
theorem wit_referee : ((mismatched (fun p => { p with persistent := true })).pe 0).repairs.toNat < ((mismatched id).engCl 0).repairLimit.toNat := by decide +kernel
/-- PE000 has retired and its idle engine moves to the spare, slot 8. -/
def migrating : State := (base.updPe 0 (fun p => { p with role := .retired, migrating := true }))
theorem test_migration : (after (exec (.migrationComplete 0) migrating)).peOf 0 = 8 := by decide +kernel
theorem wit_migration : migrating.spareOf 0 = some 8 ∧ (migrating.pe (migrating.peOf 0)).migrating = true ∧ (migrating.le 0).running = false ∧ migrating.live = true := by decide +kernel
def staged : State := base.updPe 0 (fun p => { p with stage := [⟨5, .ch, 1, 2, false, false⟩] })
theorem test_transport : ((after (exec (.transportAccept 0 .ch ⟨5, true⟩) staged)).pe 0).stage = [] ∧
    ((after (exec (.transportAccept 0 .ch ⟨5, true⟩) (after (exec (.transportAccept 0 .ch ⟨5, false⟩) staged)))).engCl 0).dupDrop = 0 ∧
    ((after (exec (.transportAccept 0 .ch ⟨5, false⟩) staged)).pe 0).stage.map (fun x => x.accepted) = [true] := by decide +kernel

/-! ## Ports, configuration, DOE, SPDM -/

/-- The module with port 0 changed. -/
def port0 (f : Port → Port) : State := base.updPort 0 f
/-- VFs 1 to 8 are enabled through port 0. -/
def vfs : State := port0 (fun x => { x with vfEnable := true, numVfs := 8 })

theorem test_refclk_return : ((after (exec (.refclkReturn 0) (port0 (fun x => { x with refclk := false, up := false })))).port 0).trainDue = some 3000000 ∧
    ((after (exec (.perstDeassert 0) (port0 (fun x => { x with perst := true, up := false })))).port 0).trainDue = some 3000000 := by decide +kernel
theorem test_training : ((after (exec (.portTrainingEnd 0 true 5 8) (port0 (fun x => { x with up := false, trained := false })))).port 0).trained = true ∧
    (after (exec (.portTrainingEnd 0 false 5 8) (port0 (fun x => { x with up := false, trained := false })))).flt.log.map (fun r => (r.source, r.kind)) = [(0x1604, 0x32)] := by decide +kernel
theorem wit_port_pins : base.on = true ∧ ((port0 (fun x => { x with refclk := false })).port 0).refclk = false ∧ ((port0 (fun x => { x with perst := true })).port 0).refclk = true ∧
    (base.port 0).up = true ∧ ((port0 (fun x => { x with up := false })).port 0).up = false ∧ (base.port 0).refclk = true ∧ (base.port 0).perst = false := by decide +kernel
theorem test_port_loss : ((after (exec (.portLoss 0 .dataLinkDown) vfs)).port 0).numVfs = 0 ∧ ((after (exec (.perstAssert 0) vfs)).port 0).perst = true ∧
    ((after (exec (.refclkLoss 0) vfs)).port 0).refclk = false := by decide +kernel
theorem test_viral : ((after (exec (.viralReceived 0) vfs)).port 0).viral = true ∧ ((after (exec (.viralReceived 0) vfs)).port 0).numVfs = 8 := by decide +kernel
theorem test_port_up : ((after (exec (.portUp 0) (port0 (fun x => { x with up := false })))).port 0).up = true ∧
    ((after (exec (.vfEnableWrite 0 true 300) base)).port 0).numVfs = 256 := by decide +kernel
theorem wit_port_up : ((port0 (fun x => { x with up := false })).port 0).trained = true ∧ ((port0 (fun x => { x with up := false })).port 0).linkFault = false ∧ Answers base 0 :=
  ⟨rfl, rfl, rfl, rfl, rfl⟩
theorem test_config : (after (exec (.configRequest ⟨0, .other⟩) (port0 (fun x => { x with answering := false, waitCfg := true })))).out = [.config 0 false []] ∧
    (after (exec (.configRequest ⟨0, .other⟩) (port0 (fun x => { x with answering := false })))).out = [.config 0 true []] ∧
    (after (exec (.configRequest ⟨1, .sriov⟩) base)).out = [.config 1 false [256, 256, 1, 1, 0, 0]] := by decide +kernel
theorem test_doe : (after (exec (.doeDiscovery 0 3) base)).out = [.doe 0 0 [0x98, 0x1E, 2, 0]] ∧ (after (exec (.doeUnsupportedObject 0 1 9) base)).out = [.doe 0 1 []] ∧
    (after (exec (.cdatTableAccess 0 0) base)).out.length = 1 := by decide +kernel
theorem wit_doe : ¬ (((1 : W16) = 1 ∧ (9 : Byte).toNat ≤ 2) ∨ ((1 : W16) = 0x1E98 ∧ (9 : Byte) = 2)) ∧ (port0 (fun x => { x with answering := false, waitCfg := true })).on = true := by decide +kernel
/-- An SPDM connection with an established session 7 and a new session 8. -/
def connected : State := port0 (fun x => { x with spdm := 3, sessions := [⟨7, true, 0, 0⟩, ⟨8, false, 0, 0⟩] })
theorem test_spdm_order : ((after (exec (.getVersion 0) base)).port 0).spdm = 1 ∧ (after (exec (.getDigests 0) base)).out = [.doe 0 0x7F [4]] ∧
    ((after (exec (.negotiateAlgorithms 0 true true true true) (port0 (fun x => { x with spdm := 2 })))).port 0).spdm = 3 ∧
    ((after (exec (.getCapabilities 0) (port0 (fun x => { x with spdm := 1 })))).port 0).spdm = 2 := by decide +kernel
theorem test_spdm_answers : (after (exec (.getCertificate 0 2 0 0) connected)).out = [.doe 0 0x7F [1]] ∧ (after (exec (.challenge 0 0 5) connected)).out.length = 1 ∧
    (after (exec (.getMeasurements 0 32) connected)).out = [.doe 0 0x60 (List.replicate 48 0)] := by decide +kernel
theorem test_spdm_sessions : ((after (exec (.keyExchange 0 0 0) connected)).port 0).sessions.length = 3 ∧ ((after (exec (.finish 0 8 true) connected)).port 0).sessions.map (·.established) = [true, true] ∧
    ((after (exec (.heartbeat 0 7) connected)).port 0).sessions.map (·.alive) = [1000000, 0] ∧ ((after (exec (.keyUpdate 0 7) connected)).port 0).sessions.map (·.keyGen) = [1, 0] ∧
    ((after (exec (.endSession 0 7) connected)).port 0).sessions.map (·.id) = [8] := by decide +kernel
theorem test_ide_key : ((after (exec (.ideKeyManagement 0 7 ⟨.ioSelective, 1⟩ 2 3) connected)).port 0).ideKeys = [⟨.ioSelective, 1, 2, 3⟩] ∧ (after (exec (.heartbeat 0 9) connected)).out = [.doe 0 0x7F [1]] := by decide +kernel
theorem wit_spdm : Spdm connected 0 3 ∧ Spdm (port0 (fun x => { x with spdm := 2 })) 0 2 ∧ Spdm base 0 0 ∧ (base.port 0).spdm < 3 ∧
    (∃ z ∈ (connected.port 0).sessions, z.id = 7 ∧ z.established = true) ∧ (∃ z ∈ (connected.port 0).sessions, z.id = 8 ∧ z.established = false) ∧ (connected.port 0).ideKeys = [] :=
  ⟨⟨⟨rfl, rfl, rfl⟩, rfl, by decide⟩, ⟨⟨rfl, rfl, rfl⟩, rfl, by decide⟩, ⟨⟨rfl, rfl, rfl⟩, rfl, by decide⟩, by decide, ⟨_, List.mem_cons_self, rfl, rfl⟩,
    ⟨_, List.mem_cons_of_mem _ List.mem_cons_self, rfl, rfl⟩, rfl⟩
theorem wit_spdm_key : Spdm { connected with deck := { connected.deck with ownerKey := some [1] } } 0 3 ∧ connected.deck.ownerKey = none ∧
    Answers { base with mp := { base.mp with run := 2 } } 0 ∧ ({ base with mp := { base.mp with run := 2 } } : State).mp.run ≠ 0 :=
  ⟨⟨⟨rfl, rfl, rfl⟩, rfl, by decide⟩, rfl, ⟨rfl, rfl, rfl⟩, by decide⟩
/-- VF1 holds a key in its slot 2. -/
def keyed : State := vfs.setSlot 2 { KeySlot.init with type := 1, key := 99, gen := 0xFFFFFF }
theorem test_flr : ((after (exec (.functionLevelReset 0 0) keyed)).slot 2).gen = 1 ∧ ((after (exec (.functionLevelReset 0 0) keyed)).fn 1).flrBusy = true ∧
    ((after (exec (.flrComplete 0) (vfs.updFn 1 (fun x => { x with flrBusy := true })))).fn 1).flrBusy = false := by decide +kernel
theorem wit_flr : vfs.on = true ∧ (vfs.port 0).answering = true ∧ vfs.reach 0 1 = true ∧ (vfs.updFn 1 (fun x => { x with flrBusy := true })).flrQuiet 1 = true := by decide +kernel

/-! ## Registers, queues, CXL.mem -/

theorem test_clamp : (after (exec (.registerWrite (.pf 1) 0x301800 true 0x3FF0009) base)).ch.frameLife = 1000 ∧
    ((after (exec (.registerWrite (.pf 1) 0x301800 true 0x3FF0009) base)).fn 0x101).clamp = 1 ∧ (after (exec (.registerWrite (.pf 0) 0x301800 true 0) base)).ch.frameLife = 1 := by decide +kernel
theorem test_empty_offset : (after (exec (.emptyOffsetAccess (.pf 0) 0xFFFFF0 false) base)).out = [.regRead 0] ∧
    (after (exec (.emptyOffsetAccess (.pf 0) 0xFFFFF0 true) base)).flt.log.map (fun r => (r.kind, r.detail)) = [(1, 0xFFFFF0)] := by decide +kernel
theorem wit_registers : base.viaOk (.pf 0) = true ∧ base.viaOk (.pf 1) = true ∧ base.hasReg (.pf 0) 0xFFFFF0 false = false ∧ base.hasReg (.pf 0) 0 false = true := by decide +kernel
/-- PF0's queue register 1 runs through port 0 with 4 slots, positions as given. -/
def queued (f : Queue → Queue) : State :=
  base.updQueue 0 1 (fun x => f { x with enable := true, sizeM1 := 3, state := .running, cqBase := 0x1000, sqBase := 0x2000 })
theorem test_tail : ((after (exec (.sqTailDoorbell (.pf 0) 1 9) (queued id))).queue 0 1).sqTail = 3 ∧ ((after (exec (.sqTailDoorbell (.pf 0) 1 9) (queued id))).fn 0).clamp = 1 := by decide +kernel
/-- One final completion of the COMPLETE entry 5 posted and not consumed. -/
def postedQ : State :=
  (queued (fun x => { x with cqTail := 1, posted := [⟨0, [], 0, some 0x00100005⟩] })).setEntry 5 { Entry.free 1 with state := .complete, posted := true }
theorem test_head : ((after (exec (.cqHeadDoorbell (.pf 0) 1 1) postedQ)).entry 5).state = .free ∧ ((after (exec (.cqHeadDoorbell (.pf 0) 1 3) postedQ)).queue 0 1).cqHead = 1 := by decide +kernel
theorem wit_doorbells : viaHasQ (.pf 0) 1 = true ∧ viaHasQ (.pf 0) 8 = true ∧ postedQ.tidAt 5 = 0x00100005 ∧ postedQ.tidLive (postedQ.tidAt 5) = true ∧ (postedQ.entry 5).outPend = 0 := by decide +kernel
theorem test_enable : ((after (exec (.queueEnable (.pf 0) 1 0x900000FF) base)).queue 0 1).state = .running ∧
    ((after (exec (.queueEnable (.pf 0) 1 0xE0000000) base)).queue 0 1).sizeM1 = 1 ∧ ((after (exec (.queueEnable (.pf 0) 1 0xE0000000) (queued (fun x => { x with enable := false, state := .draining, sqHead := 2 })))).queue 0 1).sqHead = 0 := by decide +kernel
theorem test_disable : ((after (exec (.queueDisable (.pf 0) 1 0x60000003) (queued id))).queue 0 1).state = .draining ∧
    ((after (exec (.queueDrained 0 1) (queued (fun x => { x with enable := false, state := .draining })))).queue 0 1).state = .disabled := by decide +kernel
theorem wit_queue_pairs : base.mayEnable 0 1 = true ∧ (base.queue 0 1).state = .disabled ∧ (base.updFn 0 (fun x => { x with maxQp := 0 })).mayEnable 0 1 = false ∧
    (queued (fun x => { x with enable := false, state := .draining })).drained 0 1 = true := by decide +kernel
/-- A packet in the queue of PF0, pair 0, waits. -/
def fetching (qv : Nat) : State := base.updQueue 0 qv (fun x => { x with enable := true, sizeM1 := 3, state := .running, sqTail := 1 })
theorem test_fetch : (after (exec (.commandFetch 0x00070001 false) (fetching 0))).qm.cmds.map (·.handle) = [1] ∧
    ((after (exec (.commandFetch 0x00070001 true) (fetching 0))).queue 0 0).due.map (·.cmdId) = [0xFFFF] ∧
    ((after (exec (.commandFetch 0x000700EE false) (fetching 0))).queue 0 0).due.map (·.kind) = [.direct 2 0 0 0] := by decide +kernel
theorem wit_fetch : (fetching 0).nextFetch = some (0, 0) ∧ (fetching 1).nextFetch = some (0, 1) ∧ (fetching 0).assigned 0 0xEE = false ∧ (fetching 0).assigned 0 1 = true ∧
    (fetching 0).fetchCheck 0 0 0 0x00070001 false = none ∧ pfOnly.contains 0x40 = true ∧ (fetching 0).assigned 0 0x10 = true ∧
    (vfs.updQueue 1 0 (fun x => { x with enable := true, sizeM1 := 3, state := .running, sqTail := 1 })).nextFetch = some (1, 0) ∧ (fetching 0).assigned 1 0x40 = true := by decide +kernel
theorem test_post : (after (exec (.completionPost 0 1) (queued (fun x => { x with due := [⟨.direct 3 9 4 5, 7, false, 1, false, 0⟩] })))).out.take 1 =
    [.hostWrite 0 0x1000 [7, 0, 3, 1, 9, 0, 0, 0, 4, 0, 0, 0, 5, 0, 0, 0]] := by decide +kernel
/-- A final completion of the COMMITTED entry 5 due. -/
def finalDue : State :=
  (queued (fun x => { x with due := [⟨.finalOf 5, 7, false, 1, false, 0⟩] })).setEntry 5 { Entry.free 1 with state := .committed }
theorem test_final_completes : ((after (exec (.completionPost 0 1) finalDue)).entry 5).state = .complete := by decide +kernel
theorem test_coalesce : ((after (exec (.coalesceDelayExpiry 0 1) (queued (fun x => { x with unsig := 2, oldest := 0, delay := 0x3FF })))).queue 0 1).unsig = 0 ∧
    (after (exec (.msixVectorUnmask 0 0 9) (port0 (fun x => { x with msix := [(9, { Msix.init with pending := true, addr := 5, data := 6 })] })))).out = [.msix 0 5 6] := by decide +kernel
theorem wit_vectors : 0 + 100 * (0x3FF : Nat) ≤ base.tick ∧ (Sp.look ((port0 (fun x => { x with msix := [(9, { Msix.init with pending := true })] })).port 0).msix Msix.init 9).masked = true ∧
    base.reach 0 0 = true ∧ finalDue.tly.rlogWait = [] ∧ (finalDue.entry 5).consumed = false ∧ (Sp.look (base.port 0).msix Msix.init 1).masked = true := by decide +kernel
theorem test_cxl_mem : (after (exec (.cxlMemRead 0 0x0) base)).coh.reqs.map (fun r => (r.r, r.a)) = [(16, 0)] ∧
    (after (exec (.cxlMemRead 0 0xFC0000000) base)).out = [.memData 0 0xFC0000000 0 true] ∧ (after (exec (.cxlMemWrite 1 0xFBFFFFFC0 1 2 false) base)).coh.reqs.map (fun r => (r.r, r.a)) = [(17, 0x3EFFFFFF)] := by decide +kernel
theorem wit_cxl_mem : base.isReady = true ∧ (base.lnd.watermark.toNat * 0x200000 + 0xFFFFFFF) / 0x10000000 * 0x10000000 = 0 ∧
    (({ base with lnd := { base.lnd with watermark := 1 } } : State).lnd.watermark.toNat * 0x200000 + 0xFFFFFFF) / 0x10000000 * 0x10000000 = 0x10000000 := by decide +kernel

/-! ## Host commands -/

/-- A command packet: its OPCODE and fields given as offset and value (Table 3.1). -/
def pk (op : Nat) (fs : List (Nat × Nat)) : Sector := BitVec.ofNat 512 (fs.foldl (fun a x => a + x.2 <<< (8 * x.1)) op)
/-- The command of a packet, with handle 7, of a function in its queue register 1 (a PF's pair 0). -/
def cmdOf (f : Nat) (p : Sector) : Cmd := ⟨7, f, 1, 0, p, .checked, false⟩
/-- The state with that command alone next. -/
def asked (s : State) (f : Nat) (p : Sector) : State := { s with qm := { s.qm with cmds := [cmdOf f p] } }
def pf0 (op : Nat) (fs : List (Nat × Nat)) : State := asked base 0 (pk op fs)
/-- Status and results of the completion that fell due. -/
def said (o : Host.Outcome State Fault Refusal) (f : Nat) : Option (Byte × W32 × W32 × W32) :=
  match ((after o).queue f 1).due with | [⟨.direct st tid r0 r1, _, _, _, _, _⟩] => some (st, tid, r0, r1) | _ => none

/-- A command is next and, if `adm`, the MP runs, as a Bool. -/
def readyB (s : State) (op : Nat) (adm : Bool) : Bool :=
  match s.cmd 7 with
  | some c => c.stage == .checked && c.opcode == op && s.nextUp c && s.on && !s.start.warm && !s.start.ready && !s.flt.grave && (!adm || s.mp.run == 0)
  | none => false
theorem readyB_ready (s : State) (op : Nat) (h : readyB s op true = true) : ∃ c, AdminReady s 7 op c := by
  simp only [readyB] at h
  split at h
  · rename_i c hc
    simp only [Bool.and_eq_true, beq_iff_eq, Bool.not_eq_true', Bool.or_eq_true, Bool.not_true, Bool.false_eq_true, false_or] at h
    obtain ⟨⟨⟨⟨⟨⟨⟨h1, h2⟩, h3⟩, h4⟩, h5⟩, h6⟩, h7⟩, h8⟩ := h
    exact ⟨c, ⟨hc, h1, h2, h3, h4, h5, h6, h7⟩, h8⟩
  · cases h

theorem wit_ready : (∀ op ∈ [0x00, 0x01, 0x02, 0x03, 0x20, 0x21, 0x22, 0x34, 0x35, 0x40, 0x41, 0x42, 0x50, 0x51, 0x52, 0x60, 0x61, 0x62, 0x63, 0x70, 0x71, 0x72, 0x80, 0x81, 0x82, 0x83],
      readyB (pf0 op []) op true = true) ∧ (∀ op ∈ [0x10, 0x11, 0x12, 0x13, 0x14, 0x15, 0x30, 0x31, 0x32, 0x33], readyB (pf0 op []) op false = true) := by decide +kernel

theorem test_identify : said (exec (.identify 7) (pf0 0 [(8, 1)])) 0 = some (0, 0, 8, 0x1000) ∧ said (exec (.identify 7) (pf0 0 [(8, 4)])) 0 = some (2, 0, 8, 0) := by decide +kernel
theorem test_power_status : said (exec (.powerStatus 7) (pf0 0x50 [])) 0 = some (0, 0, 0, 600) ∧ said (exec (.linkStatus 7) (pf0 0x83 [(8, 256)])) 0 = some (3, 0, 8, 0) ∧
    said (exec (.linkStatus 7) (pf0 0x83 [(8, 255)])) 0 = some (0, 0, 0x200, 0) := by decide +kernel
/-- Handle 1 holds an image of two words bound to no function. -/
def imaged (s : State) : State :=
  { s with deck := { s.deck with images := [(1, some ⟨true, false, 0x100, [0], 0xFFFF, [0x3FD2, 0x3FFF], []⟩)], order := [1] } }
theorem test_image_info : said (exec (.imageInfo 7) (imaged (pf0 0x42 [(8, 1)]))) 0 = some (0, 0, 2, 1) ∧ said (exec (.imageInfo 7) (pf0 0x42 [(8, 1)])) 0 = some (3, 0, 8, 0) := by decide +kernel
theorem test_measure_get : said (exec (.measureGet 7) (pf0 0x72 [(8, 32)])) 0 = some (3, 0, 8, 0) ∧ said (exec (.measureGet 7) (pf0 0x72 [(16, 0x1000)])) 0 = some (0, 0, 0, 0) := by decide +kernel
theorem test_get_log : said (exec (.getLog 7) (pf0 1 [(16, 3)])) 0 = some (2, 0, 16, 0) ∧ said (exec (.getLog 7) (pf0 1 [(8, 0x1000), (16, 1), (20, 64)])) 0 = some (0, 0, 4, 0) := by decide +kernel
theorem test_fault_read : said (exec (.faultRead 7) (pf0 0x60 [(8, 0x1000)])) 0 = some (0, 0, 0, 0) ∧ said (exec (.faultRead 7) (pf0 0x60 [(16, 2)])) 0 = some (2, 0, 16, 0) := by decide +kernel
theorem wit_queries : (base.rangePerm 0 false 0 0x1000 48 true) = true ∧ base.rangePerm 0 false 0 0xFF0000000000 48 true = false ∧ (imaged base).img 1 = some ⟨true, false, 0x100, [0], 0xFFFF, [0x3FD2, 0x3FFF], []⟩ ∧
    base.img 1 = none ∧ base.flt.blaze = none ∧ base.rangePerm 0 false 0 0x1000 65536 true = true ∧ base.rangePerm 0 false 0 0x1000 64 true = true := by decide +kernel
theorem test_quota : (((after (exec (.setQuota 7) (pf0 2 [(8, 3), (12, 0xFFFFFFFF), (16, 9)]))).fn 3).tallyLimit, ((after (exec (.setQuota 7) (pf0 2 [(8, 3), (12, 0xFFFFFFFF), (16, 9)]))).fn 3).maxQp,
    ((after (exec (.setQuota 7) (pf0 2 [(8, 3), (12, 0xFFFFFFFF), (16, 9)]))).fn 3).event) = (0x100000, 8, 2) ∧ said (exec (.setQuota 7) (pf0 2 [(8, 257)])) 0 = some (3, 0, 8, 0) := by decide +kernel
theorem test_expert : ((after (exec (.setExpert 7) (pf0 3 [(8, 256), (10, 1)]))).fn 256).event = 4 ∧ said (exec (.setExpert 7) (pf0 3 [(8, 1), (10, 2)])) 0 = some (2, 0, 10, 0) := by decide +kernel
theorem test_envelope : (after (exec (.setEnvelope 7) (pf0 0x51 [(8, 349)]))).pwr.envelope = 350 ∧ (after (exec (.setEnvelope 7) (pf0 0x51 [(8, 604)]))).pwr.envelope = 600 := by decide +kernel
theorem test_fault_mode : ((after (exec (.faultMode 7) (pf0 0x61 [(8, 3), (9, 1), (12, 4000)]))).flt.hold, Sp.look (after (exec (.faultMode 7) (pf0 0x61 [(8, 3), (9, 1), (12, 4000)]))).flt.quiet 10 3) = (4, 3600) ∧
    said (exec (.faultMode 7) (pf0 0x61 [(8, 4)])) 0 = some (2, 0, 8, 0) := by decide +kernel
/-- Group 9 has link 17 with partner 5. -/
def grouped (s : State) : State := s.setGroup 9 ⟨true, 1, 0, 5, 0x111, 0, 0, 0⟩
theorem test_group_create : (after (exec (.groupCreate 7) (pf0 0x80 [(8, 9), (10, 17), (12, 0xFFFF), (14, 0xFFFF), (16, 0xFFFF), (18, 5)]))).group 9 = ⟨true, 1, 0x1FF, 5, 0x111, 0, 0, 0⟩ ∧
    said (exec (.groupCreate 7) (grouped (pf0 0x80 [(8, 9)]))) 0 = some (3, 0, 8, 0) := by decide +kernel
theorem test_group_delete : ((after (exec (.groupDelete 7) (grouped (pf0 0x81 [(8, 9)])))).group 9).valid = false ∧ said (exec (.groupDelete 7) (pf0 0x81 [(8, 9)])) 0 = some (3, 0, 8, 0) := by decide +kernel
theorem test_group_assign : ((after (exec (.groupAssign 7) (grouped (pf0 0x82 [(8, 9), (10, 256)])))).group 9).func = 256 ∧ said (exec (.groupAssign 7) (grouped (pf0 0x82 [(8, 9), (10, 257)]))) 0 = some (3, 0, 10, 0) := by decide +kernel
theorem wit_groups : (grouped base).groupUsed 9 = false ∧ ((grouped base).setEntry 5 { Entry.free 1 with state := .active, groupA := 9, reqMask := 1 }).groupUsed 9 = true ∧
    (grouped base).ch.groups.all (fun e => !e.2.has 17 || e.2.partner.toNat = 5) = true := by decide +kernel
theorem test_bank_state : ((after (exec (.bankState 7) (pf0 0x52 [(8, 15), (9, 15), (10, 2)]))).memCl 15).bankWait = [(15, 2, 7)] ∧ said (exec (.bankState 7) (pf0 0x52 [(8, 16)])) 0 = some (3, 0, 8, 0) := by decide +kernel
theorem test_inject : (after (exec (.inject 7) (pf0 0x62 [(8, 0x1403), (12, 1)]))).flt.inj = [⟨0x1403, 1, some 7, 1000000, false, 0, 0⟩] ∧ said (exec (.inject 7) (pf0 0x62 [(8, 0x1600)])) 0 = some (3, 0, 8, 0) := by decide +kernel
/-- The module in a lifecycle state. -/
def living (l : Lc) (s : State) : State := { s with deck := { s.deck with lc := l } }
theorem test_selftest : said (exec (.selftest 7) (living .field (pf0 0x63 [(1, 1), (8, 1), (9, 0xFFFF)]))) 0 = some (0x0F, 0, 0, 0) ∧
    (after (exec (.selftest 7) (living .service (pf0 0x63 [(1, 1), (8, 1), (9, 0x1400)])))).flt.selftests = [(0x1400, 7)] := by decide +kernel
/-- The secure world runs with 2 gates. -/
def secured (s : State) : State := { s with tru := { s.tru with secState := 1, gates := 2 } }
theorem test_gateway : said (exec (.gatewayCall 7) (pf0 0x70 [])) 0 = some (0x0E, 0, 0, 0) ∧ said (exec (.gatewayCall 7) (secured (pf0 0x70 [(8, 2)]))) 0 = some (3, 0, 8, 0) := by decide +kernel
theorem wit_gateway : ({ secured base with tru := { (secured base).tru with sec := [(3, true)] } } : State).secEngines = true ∧ (secured base).tru.gates = 2 := by decide +kernel
theorem test_handover : said (exec (.handover 7) (pf0 0x71 [(8, 0x400)])) 0 = some (0x0E, 0, 0, 0) ∧ (after (exec (.handover 7) (secured (pf0 0x71 [(8, 0x7F), (10, 1)])))).tru.pending.length = 1 := by decide +kernel
theorem test_service : exec (.serviceOpcode 7 .other) (pf0 0xF0 []) = .refused .unpublishedService ∧ (after (exec (.serviceOpcode 7 .toProvision) (pf0 0xF0 []))).deck.lcNext = some .provision := by
  constructor
  · rfl
  · decide +kernel
theorem wit_units : base.secBlock 0x30F = false ∧ isUnit 0x1700 = false ∧ base.secBlock 0x7F = false ∧ ((base.link 0).cfg.enable = false) ∧ (pf0 0xF0 []).pwr.stop = false ∧
    (living .field (pf0 0xF0 [])).deck.lc ≠ .manufacture := by decide +kernel

/-- Group 9 valid for PF0; its engines' cluster is 1. -/
def tx (op : Nat) (fs : List (Nat × Nat)) : State := grouped (pf0 op ([(8, 9), (10, 0xFFFF), (12, 0xFFFF)] ++ fs))
theorem test_transactions : (∀ op ∈ [0x10, 0x11, 0x13], ((after (exec (txCmd op 7) (tx op [(16, 0x1000), (32, 64)]))).cmd 7).map (·.stage) = some .alloc) ∧
    said (exec (.write 7) (tx 0x10 [(16, 0x1000), (32, 0x1000001)])) 0 = some (3, 0, 32, 0) ∧ said (exec (.write 7) (pf0 0x10 [(8, 9)])) 0 = some (3, 0, 8, 0) := by decide +kernel
theorem test_exchange : ((after (exec (.exchange 7) (tx 0x14 [(16, 0x1000), (24, 0x2000), (32, 64), (36, 65536)]))).cmd 7).map (·.stage) = some .alloc ∧
    said (exec (.exchange 7) (tx 0x14 [(16, 0x1000), (24, 0x2000), (32, 64), (36, 65537)])) 0 = some (3, 0, 36, 0) ∧ said (exec (.mirrorWrite 7) (tx 0x12 [])) 0 = some (3, 0, 10, 0) := by decide +kernel
theorem test_run : said (exec (.run 7) (grouped (pf0 0x15 [(8, 9), (10, 3)]))) 0 = some (3, 0, 10, 0) ∧
    ((after (exec (.run 7) (imaged { grouped (pf0 0x15 [(8, 9), (10, 1)]) with mp := { base.mp with binds := [(1, 1)] } }))).cmd 7).isSome = true := by decide +kernel
theorem wit_transactions : rangeOk 1 0x1000 64 = true ∧ base.clDead 1 = false ∧ rangeOk 1 0xFF0000000000 64 = false ∧ (grouped base).imgFor 0 3 = none ∧
    ({ base with eng := { base.eng with bind := (List.range 8).map (fun k => (8 + k, 0xF)) } } : State).clDead 1 = true := by decide +kernel
theorem wit_mirror : ((grouped base).setGroup 10 ⟨true, 1, 0, 6, 0x112, 0, 0, 0⟩).groupOk 0 10 = true := by decide +kernel
/-- A WRITE that waits for its entry. -/
def allocating : State := { tx 0x10 [(16, 0x1000), (32, 64)] with qm := { base.qm with cmds := [{ cmdOf 0 (pk 0x10 [(2, 0x77), (8, 9), (16, 0x1000), (32, 64)]) with stage := .alloc }] } }
theorem test_allocate : ((after (exec (.entryAllocate 7) allocating)).entry 0).state = .opened ∧ ((after (exec (.entryAllocate 7) allocating)).entry 0).groupA = 9 := by decide +kernel
theorem test_allocate_limits : said (exec (.entryAllocate 7) (allocating.updFn 0 (fun x => { x with tallyLimit := 0 }))) 0 = some (0x11, 0, 0, 0) ∧
    said (exec (.entryAllocate 7) { allocating with tly := { allocating.tly with prioCap := 0 } }) 0 = some (0x11, 0, 1, 0) := by decide +kernel
theorem wit_allocate : allocating.live = true ∧ allocating.guardHolds = false ∧ sealedTx (cmdOf 0 (pk 0x10 [(8, 9)])) = false ∧ allocating.inUse 0 < (allocating.fn 0).tallyLimit.toNat ∧
    allocating.prioCount < allocating.tly.prioCap.toNat ∧ allocating.anyFree false = true ∧ (allocating.pickIndex false).isSome = true ∧
    ({ allocating with tly := { allocating.tly with secLimit := 0x100 } } : State).anyFree false = false := by decide +kernel
/-- A command that names TID 0x00100005, whose entry is in state st. -/
def onEntry (op : Nat) (st : TState) : State := (pf0 op [(4, 0x00100005)]).setEntry 5 { Entry.free 1 with state := st, posted := true }
theorem test_abort : said (exec (.abort 7) (onEntry 0x20 .committed)) 0 = some (5, 0x00100005, 0, 0) ∧ said (exec (.abort 7) (onEntry 0x20 .free)) 0 = some (3, 0x00100005, 0, 0) ∧
    ((after (exec (.abort 7) (onEntry 0x20 .active))).entry 5).result1 = 6 := by decide +kernel
theorem test_resume : ((after (exec (.resume 7) (onEntry 0x21 .held))).entry 5).state = .active ∧ said (exec (.resume 7) (onEntry 0x21 .active)) 0 = some (3, 0x00100005, 1, 0) := by decide +kernel
theorem test_query : said (exec (.query 7) (onEntry 0x22 .active)) 0 = some (0, 0x00100005, 0x12, 0) ∧ said (exec (.query 7) (onEntry 0x22 .free)) 0 = some (3, 0x00100005, 0, 0) := by decide +kernel

theorem test_sets_stages : (after (exec (.resume 7) (onEntry 0x21 .held))).entry 5 = { (onEntry 0x21 .held).entry 5 with state := .active, lostMask := 0, interimSent := false } := by decide +kernel
theorem wit_tally_commands : readyB (onEntry 0x20 .active) 0x20 false = true ∧ readyB (onEntry 0x20 .aborted) 0x20 false = true ∧ readyB (onEntry 0x21 .held) 0x21 false = true ∧
    readyB (onEntry 0x22 .free) 0x22 false = true ∧ ((onEntry 0x20 .aborted).entry 5).posted = true ∧ ((onEntry 0x20 .active).entry 5).gen.toNat = 0x00100005 / 2 ^ 20 := by decide +kernel
/-- COMPRESS of n blocks from 0x10000 to 0x800000 at a ratio. -/
def galCmd (op n ratio : Nat) : State := pf0 op [(8, 0x10000), (16, 0x800000), (24, n), (28, ratio)]
theorem test_compress : said (exec (.compress 7) (galCmd 0x30 1 0)) 0 = some (3, 0, 28, 0) ∧ said (exec (.compress 7) (galCmd 0x30 257 1)) 0 = some (3, 0, 24, 0) ∧
    (((after (exec (.compress 7) (galCmd 0x30 1 3))).coder 0).queue.map (fun r => (r.op, r.len, r.ratio))) = [(0, 0x1000, 3)] := by decide +kernel
theorem test_expand : said (exec (.expand 7) (galCmd 0x31 0 1)) 0 = some (3, 0, 24, 0) ∧
    (((after (exec (.expand 7) (galCmd 0x31 1 1))).coder 0).queue.map (fun r => (r.op, r.src, r.dst))) = [(1, 0x10000, 0x800000)] := by decide +kernel
theorem wit_data : (galCmd 0x30 1 3).hostCoder false = some 0 ∧ base.rangePerm 0 false 0 0x10000 0x1000 false = true ∧ base.rangePerm 0 false 0 0x800000 (galSize 3) true = true ∧
    base.rangePerm 0 false 0 0xFF0000000000 4096 false = false ∧ base.hostGrp false = some 0 := by decide +kernel
/-- SEAL or UNSEAL of n bytes with the key slot k. -/
def cphCmd (op n k : Nat) : State :=
  let s := pf0 op [(8, 0x10000), (16, 0x800000), (24, n), (28, k)]
  { s with cph := { s.cph with slots := [(keyIndex 0 false 5, { KeySlot.init with type := 2, gen := 3, invoc := 4 })] } }
theorem test_seal : said (exec (.seal 7) (cphCmd 0x32 0 5)) 0 = some (3, 0, 24, 0) ∧ said (exec (.seal 7) (cphCmd 0x32 64 6)) 0 = some (3, 0, 28, 0) ∧
    (((after (exec (.seal 7) (cphCmd 0x32 64 5))).grp 0).queue.map (fun r => (r.op, r.len, r.iv))) = [(0, 64, 0x30000000004#96)] ∧
    ((after (exec (.seal 7) (cphCmd 0x32 64 5))).slot (keyIndex 0 false 5)).invoc = 5 := by decide +kernel
theorem test_unseal : said (exec (.unseal 7) (cphCmd 0x33 1 6)) 0 = some (3, 0, 28, 0) ∧
    (((after (exec (.unseal 7) (cphCmd 0x33 1 5))).grp 0).queue.map (fun r => (r.op, r.len, r.iv))) = [(1, 1, 0#96)] ∧
    ((after (exec (.unseal 7) (cphCmd 0x33 1 5))).slot (keyIndex 0 false 5)).invoc = 4 := by decide +kernel
theorem wit_expert_cipher : said (exec (.seal 7) (pf0 0x32 [(1, 1), (8, 0x10000), (24, 16), (29, 2)])) 0 = some (2, 0, 29, 0) ∧
    said (exec (.seal 7) (living .field (asked (base.updFn 0 (fun x => { x with expert := true })) 0 (pk 0x32 [(1, 1), (29, 1)])))) 0 = some (0x0F, 0, 0, 0) := by decide +kernel

/-- The module with these bytes at the start of the scratch memory of cluster 0. -/
def landed (bs : List Byte) (s : State) : State := { s with bytes := (bs.zipIdx.map (fun p => (0x1100000000 + p.2, p.1))).filter (fun c => c.2 != 0) }
/-- A key record (Table 11.3). -/
def keyRec (key : Nat) (good : Bool) : List Byte :=
  let b := leBytes key 32
  b ++ leBytes ((crc32c b).toNat + if good then 0 else 1) 4 ++ List.replicate 28 0
def keyCmd (r : List Byte) (fs : List (Nat × Nat)) : State := landed r (pf0 0x34 ([(8, 0x1100000000)] ++ fs))
def key5 (o : Host.Outcome State Fault Refusal) : KeySlot := (after o).slot (keyIndex 0 false 5)
theorem test_key_load : key5 (exec (.keyLoad 7 HostIn.empty) (keyCmd (keyRec 0x1234 true) [(28, 5)])) = { KeySlot.init with type := 1, key := 0x1234, gen := 1 } ∧
    said (exec (.keyLoad 7 HostIn.empty) (keyCmd (keyRec 0x1234 true) [(28, 5)])) 0 = some (0, 0, 1, 0) ∧
    said (exec (.keyLoad 7 HostIn.empty) (keyCmd (keyRec 0x1234 false) [(28, 5)])) 0 = some (3, 0, 8, 0) := by decide +kernel
theorem test_key_load_fails : said (exec (.keyLoad 7 HostIn.empty) (keyCmd (keyRec (2 ^ 200) true) [(28, 5)])) 0 = some (3, 0, 8, 0) ∧
    said (exec (.keyLoad 7 HostIn.empty) { keyCmd (keyRec 1 true) [(28, 5)] with poison := [(0x1100000000, true)] }) 0 = some (0x0C, 0, 0, 0) ∧
    said (exec (.keyLoad 7 HostIn.empty) (keyCmd [] [(28, 16)])) 0 = some (3, 0, 28, 0) ∧ said (exec (.keyLoad 7 HostIn.empty) (keyCmd [] [(29, 2)])) 0 = some (2, 0, 29, 0) ∧
    said (exec (.keyLoad 7 HostIn.empty) (pf0 0x34 [(8, 0xFF0000000000)])) 0 = some (3, 0, 8, 0) := by decide +kernel
theorem test_key_erase : key5 (exec (.keyErase 7) { cphCmd 0x35 0 5 with tick := 5 }) = { KeySlot.init with gen := 4 } ∧ said (exec (.keyErase 7) (pf0 0x35 [(28, 16)])) 0 = some (3, 0, 28, 0) := by decide +kernel
/-- A window of the function that names host memory, and a read of it that times out. -/
def lateKey : State :=
  let s := pf0 0x34 [(8, 0x8000000000), (28, 5)]
  { s with qm := { s.qm with wins := [(0, ⟨true, true, true, 0, 0, 1⟩)] } }

/-- A module whose image area is empty loads a file of the words ws, entry 0, at word address 0x400. -/
def imgFile (flags : Nat) (ws : List Nat) : List Byte :=
  leBytes 0x544E5849 4 ++ leBytes 1 2 ++ leBytes flags 2 ++ leBytes 0x400 2 ++ leBytes ws.length 2 ++ leBytes 1 2 ++ leBytes 0xFFFF 2 ++ List.replicate 48 0 ++
    leBytes 0 2 ++ ws.flatMap (fun w => leBytes w 2) ++ List.replicate 96 0
def imgCmd (flags : Nat) (ws : List Nat) (len : Nat) : State := landed (imgFile flags ws) (pf0 0x40 [(8, 0x1100000000), (16, len), (20, 3)])
theorem test_image_load : said (exec (.imageLoad 7 HostIn.empty) (imgCmd 0 [wordEntry.toNat, 0] 63)) 0 = some (3, 0, 16, 0) ∧
    said (exec (.imageLoad 7 HostIn.empty) (imgCmd 0 [0, 0] 166)) 0 = some (0x0E, 0, 0, 0) := by decide +kernel
theorem wit_image_file : let s := imgCmd 0 [wordEntry.toNat, 7] 166
    (parseImage (s.unitRead HostIn.empty 0 false 0 0x1100000000 166).1 false 0 0 true).map (fun x => (x.base, x.words, x.entries)) = some (0x400, [wordEntry, 7], [0]) ∧
    (parseImage (s.unitRead HostIn.empty 0 false 0 0x1100000000 165).1 false 0 0 true) = none ∧ (parseImage (imgFile 2 [wordEntry.toNat]) false 2 2 true) = none ∧
    (parseImage (imgFile 2 [wordEntry.toNat]) true 2 2 true).isSome = true ∧ (s.unitRead HostIn.empty 0 false 0 0x1100000000 166).2 = (false, none) := by decide +kernel
/-- The image of two words at 0x400. -/
def img2 : Img := ⟨false, false, 0x400, [0], 0xFFFF, [wordEntry, 7], imgFile 0 [wordEntry.toNat, 7]⟩
def loading (x : Img) : State := { base with mp := { base.mp with load := some (3, x, 7) } }
theorem test_image_loaded : ((after (exec .imageLoadComplete (loading img2))).eng.prog, (after (exec .imageLoadComplete (loading img2))).deck.order, (after (exec .imageLoadComplete (loading img2))).mp.load) =
    ([(0x400, wordEntry), (0x401, 7)], [3], none) ∧ (after (exec .imageLoadComplete (loading { img2 with secure := true }))).deck.secImage = some { img2 with secure := true } := by decide +kernel
theorem test_image_bind : said (exec (.imageBind 7) (imaged (pf0 0x41 [(8, 1), (10, 257)]))) 0 = some (3, 0, 10, 0) ∧ said (exec (.imageBind 7) (pf0 0x41 [(8, 1)])) 0 = some (3, 0, 8, 0) ∧
    ((after (exec (.imageBind 7) (imaged (pf0 0x41 [(8, 1), (10, 256)])))).imgFor 256 1).isSome = true ∧ (after (exec (.imageBind 7) (imaged (pf0 0x41 [(8, 1), (10, 256)])))).imgFor 0 1 = none := by decide +kernel
theorem wit_image_bind : (imaged base).imageUsed 1 ⟨true, false, 0x100, [0], 0xFFFF, [0x3FD2, 0x3FFF], []⟩ (fun _ => true) = false ∧ (loading img2).live = true ∧ base.pwr.stop = false ∧ base.flt.inj = [] := by decide +kernel
theorem test_key_load_late : said (exec (.keyLoad 7 ⟨[], [], some 0x8000000000⟩) lateKey) 0 = some (0x0D, 0, 0, 0) ∧ said (exec (.keyLoad 7 HostIn.empty) lateKey) 0 = some (3, 0, 8, 0) := by decide +kernel

/-! ## The Tally's timers and the links -/

def tly (f : Tally → Tally) (s : State) : State := { s with tly := f s.tly }
/-- The result of a command on a state, as its next state. -/
def after1 (i : Instr) (s : State) : State := after (exec i s)
/-- Index 5's hold is over; index 6's is not. -/
def freedBase : State := tly (fun t => { t with freed := [(5, 1000000, false), (6, 1000001, false)] }) base
theorem test_reuse_hold : (after1 (.reuseHoldExpiry 5) freedBase).tly.freed = [(5, 1000000, true), (6, 1000001, false)] ∧ after1 (.reuseHoldExpiry 6) freedBase = freedBase := by decide +kernel
def oldCkpt : State := tly (fun t => { t with reuseHold := 10, lastCkpt := 0 }) base
theorem test_guard : (after1 .checkpointGuardExpiry oldCkpt).tly.guard = true ∧ (after1 .checkpointGuardExpiry base).tly.guard = false := by decide +kernel
def noteAsked : State := tly (fun t => { t with noteDue := [(5, 1000000)] }) (base.setEntry 5 { Entry.free 1 with state := .aborted, outPend := 1, func := 3 })
theorem test_abort_note : (after1 (.abortNoteDelayExpiry 5) noteAsked).deck.notes = [⟨0x00100005, 3, false, false, none, false⟩] := by decide +kernel
def noteQueued : State := let s := base.setEntry 5 { Entry.free 1 with state := .committed }; { s with deck := { s.deck with notes := [⟨0x00100005, 0, true, false, none, false⟩] } }
theorem test_note_written : ((after1 (.noteWritten 5) noteQueued).entry 5).noted = true ∧ (after1 (.noteWritten 5) noteQueued).deck.notes = [⟨0x00100005, 0, true, true, none, false⟩] := by decide +kernel
theorem wit_tally_timers : base.on = true ∧ base.live = true ∧ base.start.loaded = true ∧ base.tly.stopped = false ∧ base.tly.guard = false ∧ noteAsked.tidAt 5 = 0x00100005 ∧
    noteAsked.hasNote (noteAsked.tidAt 5) false = false ∧ noteQueued.notesUsed < 65536 ∧ base.pwr.stop = false := by decide +kernel

def ckptRun (toB : Bool) : State :=
  let s := tly (fun t => { t with guard := true, ckpt := some ⟨toB, 900000, 0, base.image .checkpoint false⟩ }) base
  { s with deck := { s.deck with notes := [⟨1, 0, true, true, some 899999, false⟩, ⟨2, 0, true, true, some 900000, false⟩, ⟨3, 0, false, true, none, false⟩] } }
theorem test_checkpoint : ((after1 .checkpointStart noteAsked).tly.ckpt.map (fun r => (r.began, r.image.seq))) = some (1000000, 1) ∧
    (after1 .checkpointComplete (ckptRun true)).deck.notes.map (·.tid) = [2, 3] ∧ (after1 .checkpointComplete (ckptRun true)).tly.lastCkpt = 900000 ∧
    (after1 .checkpointComplete (ckptRun false)).deck.ckptA.isSome = true := by decide +kernel
theorem wit_checkpoint : base.isReady = true ∧ base.tly.ckpt = none ∧ base.tly.nextCkpt ≤ base.tick ∧ (ckptRun true).tly.ckpt.isSome = true := by decide +kernel

def doubted (d : List InDoubt) : State :=
  let s := tly (fun t => { t with inDoubt := d, resolveWait := 10 }) base
  { s with tick := 30000000, deck := { s.deck with doubt := some ⟨[], ⟨0, 0, false⟩, 0, 0, []⟩ } }
theorem test_resolve_wait : ((after1 (.resolveWaitExpiry 0x00100005) (doubted [⟨0x00100005, [9], 3, [], 0, false⟩])).tly.inDoubt.map (·.logged)) = [true] ∧
    ((after1 (.resolveWaitExpiry 0x00100005) (doubted [⟨0x00100005, [9], 3, [], 0, false⟩])).flt.log.map (fun r => (r.source, r.kind))) = [(0x1600, 0x06)] := by decide +kernel
theorem test_doubt_closes : (after1 .doubtTableClose (doubted [])).deck.doubt = none ∧ after1 .doubtTableClose (doubted [⟨1, [], 3, [], 0, false⟩]) = doubted [⟨1, [], 3, [], 0, false⟩] := by decide +kernel
def rrec (k : Nat) : RRec := ⟨BitVec.ofNat 32 k, 0, 0, 0, 0, 0⟩
theorem test_rlog_next : (after1 (.tlyRlogNext 0 1) (tly (fun t => { t with rlog := [rrec 1, rrec 2], rlogWait := [rrec 3] }) base)).tly.rlog = [rrec 2, rrec 3] ∧
    (after1 (.tlyRlogNext 0 1) (tly (fun t => { t with rlog := [rrec 1, rrec 2] }) base)).tly.rlog = [rrec 2] := by decide +kernel
theorem wit_doubt : base.whoOk (.pf 0) = true ∧ base.whoOk (.pf 1) = true ∧ (doubted []).live = true ∧ (doubted []).pwr.stop = false := by decide +kernel

/-- Link 17 as given. -/
def linked (x : Link) (s : State) : State := { s with ch := { s.ch with links := [(17, x)] } }
/-- Link 17 in a state it entered at tick 0. -/
def inState (st : LState) : State := { linked { Link.init with state := st, cfg := { LinkCfg.init with enable := true }, dataQ := [], lastRx := 0 } base with tick := 60000000 }
def link17 (o : State) : LState × BitVec 4 := ((o.link 17).state, (o.link 17).downCause)
theorem test_link_enable : link17 (after1 (.linkEnable 0 17 0x7D0088012C1E05) base) = (.training, 0) ∧ ((after1 (.linkEnable 0 17 0x0000000000000005) base).link 17).cfg = ⟨10, 1, 1, 200, 20, true, true⟩ ∧
    ((after1 (.linkEnable 0 17 5) base).fn 0).clamp.toNat = 5 := by decide +kernel
theorem test_link_disable : link17 (after1 (.linkDisable 1 17 0) (inState .up)) = (.disabled, 6) := by decide +kernel
theorem test_link_training : link17 (after1 (.trainingComplete 17) (inState .training)) = (.probing, 0) ∧ link17 (after1 (.trainingLimitExpiry 17) (inState .training)) = (.down, 7) := by decide +kernel
theorem test_probing : link17 (after1 (.probingLimitExpiry 17) (inState .probing)) = (.down, 7) ∧
    ((after1 (.probeInterval 17) (inState .probing)).out.map (fun o => match o with | .frame l b => (l, b.length, b.headD 0) | _ => (0, 0, 0))) = [(17, 36, 0x16)] := by decide +kernel
theorem test_link_down : link17 (after1 (.downHoldExpiry 17) (inState .down)) = (.training, 0) ∧ link17 (after1 (.lockLoss 17) (inState .up)) = (.down, 1) ∧
    link17 (after1 (.linkSilenceExpiry 17) (inState .up)) = (.down, 2) := by decide +kernel
theorem wit_links : (inState .up).live = true ∧ (inState .up).on = true ∧ (inState .up).tly.entries = [] ∧ base.ch.lref.getLsbD (17 / 16) = true ∧ (base.link 17).cfg.enable = false ∧
    ((inState .down).link 17).cfg.enable = true := by decide +kernel
/-- LREF of cluster 1 is away and link 17 is DISABLED and enabled. -/
def noRef : State := let s := inState .disabled; { s with ch := { s.ch with lref := 0xFFFD } }
theorem test_lref : link17 (after1 (.lrefLoss 1) (inState .up)) = (.down, 4) ∧ link17 (after1 (.lrefLoss 2) (inState .up)) = (.up, 0) ∧ link17 (after1 (.lrefReturn 1) noRef) = (.training, 0) ∧
    noRef.ch.lref.getLsbD 1 = false := by decide +kernel

/-! ## Frames -/

/-- Link 17 of group 9 is UP with the limits of an empty receiver; the entry 5 sends to that group in state st. -/
def upLink : Link := { Link.init with state := .up, cfg := { LinkCfg.init with enable := true }, advData := 128, advCtrl := 32, dataLimit := 128, ctrlLimit := 32, rxLseq := 3, ackLseq := 1, txLseq := 2 }
def upState (x : Link) (st : TState) : State :=
  (linked x (grouped base)).setEntry 5 { Entry.free 1 with state := st, groupA := 9, reqMask := 1, outPend := if st == .aborted || st == .complete then 1 else 0, consumed := st == .complete }
/-- A frame of a type with flags and payload, from partner 5 for group 9 and TID 0x00100005. -/
def fr (type flags : Nat) (seq : W16) (pl : List Byte) : Frame := ⟨BitVec.ofNat 4 type, BitVec.ofNat 8 flags, 5, 9, 3, 3, 0x00100005, seq, pl⟩
def active : State := upState upLink .active
def cnt17 (s : State) (j : Nat) : Nat := (Sp.look (s.link 17).cnt 0 j).toNat
/-- The frames sent, read back from their bytes: type, flags, SEQ, payload bytes. -/
def sentOn (s : State) : List (Nat × Nat × Nat × List Byte) :=
  s.out.filterMap (fun o => match o with | .frame _ bs => (match readFrame bs with | .frame f => some (f.type.toNat, f.flags.toNat, f.seq.toNat, f.payload) | _ => none) | _ => none)

theorem test_wrong_partner : (let t := after1 (.dataFrame 17 { fr 1 0 1 [7] with partner := 6 }) active; (cnt17 t 9, t.flt.log.map (fun r => (r.source, r.kind)), t.out)) = (1, [(0x1411, 0x05)], []) ∧
    cnt17 (after1 (.ackFrame 17 { fr 2 0 1 [] with partner := 6 }) active) 9 = 1 := by decide +kernel
theorem test_lseq : sentOn (after1 (.dataFrame 17 { fr 1 0 1 [7] with lseq := 4 }) active) = [(3, 0, 0, [0, 0, 3, 0, 0, 0, 0, 0])] ∧
    (after1 (.dataFrame 17 { fr 1 0 1 [7] with lseq := 2 }) active).out = [] ∧
    cnt17 (after1 (.queryFrame 17 (fr 7 0 0 [])) (upState { upLink with advCtrl := 0 } .active)) 9 = 1 := by decide +kernel
theorem test_late_drop : cnt17 (after1 (.dataFrame 17 { fr 1 0 1 [7] with tid := 0x00200005 }) active) 0 = 1 ∧ cnt17 (after1 (.ackFrame 17 { fr 2 0 1 [] with group := 10 }) active) 9 = 1 := by decide +kernel
theorem test_framing : sentOn (after1 (.framingError 17 false (.bytes [])) active) = [(3, 0, 0, [0, 0, 3, 0, 0, 0, 0, 0])] ∧ cnt17 (after1 (.framingError 17 true (.bytes [])) active) 3 = 1 ∧
    (let t := after1 (.framingError 17 true (.bytes (frameBytes (fr 1 0x80 1 [7]) 0))) active; (cnt17 t 9, (t.link 17).rxLseq)) = (1, 4) := by decide +kernel
theorem wit_receive : active.live = true ∧ (active.link 17).state = .up ∧ active.linkPartner 17 = 5 ∧ (active.link 17).f0At = none ∧ (active.link 17).nakSent = none ∧
    active.tidLive 0x00100005 = true ∧ (active.entry 5).slotOf 9 = some 0 ∧ (active.group 9).valid = true ∧ active.grouped 17 = true ∧ active.tidLive 0x00200005 = false := by decide +kernel
def gotData (seq : W16) (flags : Nat) : State := after1 (.dataFrame 17 (fr 1 flags seq [7, 8])) active
theorem test_data : (gotData 1 1).flow 5 0 = { active.flow 5 0 with rxNext := 2, rxLast := true, rxBytes := 2 } ∧ sentOn (gotData 1 1) = [(2, 1, 1, [])] ∧
    cnt17 (gotData 0 0) 1 = 1 ∧ sentOn (gotData 0 0) = [(2, 0, 0, [])] ∧ cnt17 (gotData 2 0) 2 = 1 ∧ sentOn (gotData 2 0) = [(2, 0x40, 0, [])] := by decide +kernel
/-- Two frames of the TID are stored and the descriptor has been sent. -/
def flowing (st : TState) : State := let s := upState upLink st; { s with ch := { s.ch with flows := [(20, { Flow.init with stored := [⟨fr 1 0 0 [1], 0, true, 0⟩, ⟨fr 1 1 1 [2], 0, true, 0⟩], descSent := true })] } }
theorem test_ack : (let t := after1 (.ackFrame 17 (fr 2 1 1 [])) (flowing .active); ((t.flow 5 0).stored, (t.entry 5).ackMask)) = ([], 1) ∧
    (let t := after1 (.ackFrame 17 (fr 2 0 0 [])) (flowing .active); ((t.flow 5 0).stored.length, (t.entry 5).ackMask)) = (1, 0) ∧
    after1 (.ackFrame 17 (fr 2 0 0 [])) (flowing .opened) = { flowing .opened with ch := (after1 (.ackFrame 17 (fr 2 0 0 [])) (flowing .opened)).ch } := by decide +kernel
theorem test_ack_of_outcome : ((after1 (.ackFrame 17 (fr 2 8 0 [])) (flowing .aborted)).entry 5).outPend = 0 ∧ ((after1 (.ackFrame 17 (fr 2 8 0 [])) (flowing .complete)).entry 5).state = .free ∧
    ((after1 (.ackFrame 17 (fr 2 8 0 [])) (flowing .active)).entry 5) = (flowing .active).entry 5 := by decide +kernel
theorem test_nak : (let t := after1 (.nakFrame 17 (fr 3 0 0 [1, 0, 0, 0, 100, 0, 0, 0])) (flowing .active); (t.flow 5 0).pausedTo) = some 1010000 ∧
    ((after1 (.nakFrame 17 (fr 3 0 0 [2, 0, 0, 0, 0, 0, 0, 0])) (flowing .active)).flow 5 0).stopped = true := by decide +kernel
def unacked (n : Nat) : State := upState { upLink with sent := [⟨{ fr 1 0 1 [7] with lseq := 1 }, 0, 999000⟩], replays := n } .active
theorem test_link_nak : (let t := after1 (.nakFrame 17 (fr 3 0 0 [0, 0, 1, 0, 0, 0, 0, 0])) (unacked 0); ((sentOn t).length, cnt17 t 5, (t.link 17).replays)) = (1, 1, 1) ∧
    link17 (after1 (.nakFrame 17 (fr 3 0 0 [0, 0, 1, 0, 0, 0, 0, 0])) (unacked 4)) = (.down, 3) := by decide +kernel
theorem test_credit : (let t := after1 (.creditFrame 17 (fr 4 0 0 [9, 0, 8, 0, 2, 0, 0, 0])) (unacked 1); ((t.link 17).dataLimit, (t.link 17).ctrlLimit, (t.link 17).sent, (t.link 17).ackLseq, (t.link 17).replays)) = (9, 8, [], 2, 0) ∧
    (let t := after1 (.idleFrame 17 (fr 5 0 0 [1, 2, 0, 0, 9, 0, 8, 0, 1, 0, 0, 0, 0, 0, 0, 0])) (unacked 1); ((t.link 17).epoch, (t.link 17).sent.length)) = (0x201, 1) := by decide +kernel
def probing (gotR sentR : Bool) : State := upState { Link.init with state := .probing, gotReply := gotR, sentReply := sentR } .active
def probePl (p : Byte) : List Byte := [0, 0, 0, 0, p, 0] ++ List.replicate 10 0
theorem test_probe : (let t := after1 (.probeFrame 17 (fr 6 0 0 (probePl 5))) (probing false false); (link17 t, (t.link 17).sentReply, (sentOn t).map (fun x => (x.1, x.2.1)))) = ((.probing, 0), true, [(6, 4)]) ∧
    link17 (after1 (.probeFrame 17 (fr 6 4 0 (probePl 5))) (probing false true)) = (.up, 0) ∧ link17 (after1 (.probeFrame 17 (fr 6 0 0 (probePl 5))) (probing true false)) = (.up, 0) ∧
    ((after1 (.probeFrame 17 (fr 6 0 0 (probePl 6))) (probing false false)).link 17).miswire = true := by decide +kernel
theorem test_probe_up : link17 (after1 (.probeFrame 17 (fr 6 0 0 (probePl 5))) (upState { upLink with rxOther := true } .active)) = (.down, 5) ∧
    (sentOn (after1 (.probeFrame 17 (fr 6 0 0 (probePl 5))) active)).map (fun x => x.1) = [6] := by decide +kernel
/-- The answer to a question about a TID: the first payload byte. -/
def told (s : State) (tid : W32) : List Byte := ((after1 (.queryFrame 17 { fr 7 0 0 [] with tid := tid }) s).link 17).ctrlQ.map (fun q => q.f.payload.headD 0xFF)
theorem test_question : told active 0x00100005 = [1] ∧ told (flowing .committed) 0x00100005 = [2] ∧ told (flowing .aborted) 0x00100005 = [3] ∧ told active 0x00200005 = [5] ∧
    told { active with tly := { active.tly with blank := false } } 0x00200005 = [2] ∧ told (active.setEntry 5 { active.entry 5 with stale := true }) 0x00100005 = [4] := by decide +kernel
def outMsg (type : Nat) : OutMsg := ⟨0x00100005, 0, 9, 3, type, 0, 0, true, false⟩
def outState (type : Nat) : State := tly (fun t => { t with outMsgs := [outMsg type] }) active
theorem test_reply : (after1 (.queryFrame 17 (fr 7 4 0 [])) (outState 7)).tly.outMsgs = [] := by decide +kernel
theorem wit_questions : active.hasNote 0x00200005 false = false ∧ active.tly.decided = [] ∧ active.tly.inDoubt = [] ∧ active.deck.doubt = none := by decide +kernel
theorem test_idle : (sentOn (after1 .idleInterval active)).map (fun x => (x.1, x.2.2.2.drop 4)) = [(5, [128, 0, 32, 0, 3, 0, 1, 0, 0, 0, 0, 0])] := by decide +kernel
theorem test_credit_report : sentOn (after1 (.creditReportTimer 17) (upState { upLink with unreported := some 999000, rxData := 2 } .active)) = [(4, 0, 0, [130, 0, 32, 0, 3, 0, 0, 0])] := by decide +kernel
theorem test_replay : (let t := after1 (.replayTimeout 17) (unacked 0); ((sentOn t).length, cnt17 t 5)) = (1, 1) := by decide +kernel
theorem test_transmit : (let t := after1 (.frameTransmit 17 false) (upState { upLink with dataQ := [⟨fr 1 0 1 [1], 999000⟩] } .active); ((sentOn t).length, (t.link 17).txLseq, (t.link 17).dataUsed, (t.link 17).dataQ)) = (1, 3, 1, []) ∧
    (let t := after1 (.frameTransmit 17 true) (upState { upLink with ctrlQ := [⟨fr 8 0 0 [], 999000⟩] } .active); ((sentOn t).length, (t.link 17).txLseq, (t.link 17).ctrlUsed)) = (1, 3, 1) ∧
    (after1 (.frameTransmit 17 true) (upState { upLink with ctrlQ := [⟨fr 8 0 0 [], 999000⟩], txLseq := 513 } .active)).out = [] := by decide +kernel
theorem test_counters_clear : cnt17 (after1 (.chCntClear 1 17 1) (upState { upLink with cnt := [(5, 9)] } .active)) 5 = 0 := by decide +kernel
def pausedFlow (p : Option Nat) (k : Nat) : State := let s := flowing .active; { s with ch := { s.ch with flows := [(20, { (s.flow 5 0) with pausedTo := p, timeout := 10, resends := k })] } }
theorem test_resend : (let t := after1 (.ackTimeout 5 0) (pausedFlow none 0); ((t.flow 5 0).resends, (t.link 17).dataQ.map (fun q => q.f.flags))) = (1, [0x10, 0x11]) ∧
    ((after1 (.ackTimeout 5 0) (pausedFlow none 8)).flow 5 0).stopped = true := by decide +kernel
theorem test_busy_retry : (let t := after1 (.busyRetryExpiry 5 0) (pausedFlow (some 1000000) 0); ((t.flow 5 0).resends, (t.flow 5 0).pausedTo)) = (1, none) ∧
    ((after1 (.busyRetryExpiry 5 0) (pausedFlow (some 1000000) 8)).flow 5 0).stopped = true := by decide +kernel
def oldFlow : State := let s := flowing .active; { s with tick := 20000000, ch := { s.ch with flows := [(20, { Flow.init with stored := [⟨fr 1 0 0 [1], 0, true, 0⟩, ⟨fr 1 1 1 [2], 0, false, 0⟩] })] } }
theorem test_frame_life : (let t := after1 (.frameLifeExpiry 5 0) oldFlow; ((t.flow 5 0).stored.length, (t.flow 5 0).stopped, cnt17 t 12)) = (1, true, 1) := by decide +kernel
theorem test_outcome_resend : ((after1 (.outcomeResend 0x00100005 0) (outState 8)).link 17).ctrlQ.map (fun q => q.f.type) = [8] ∧
    ((after1 (.queryResend 0x00100005 0) (outState 7)).link 17).ctrlQ.map (fun q => q.f.type) = [7] := by decide +kernel
theorem wit_resends : (pausedFlow none 0).selLink 5 0 = some 17 ∧ ((pausedFlow none 0).link 17).cfg.resendLimit = 8 ∧ active.nextLink 9 0 = some (0, 17) ∧ (outState 8).msgDue (outMsg 8) = true ∧
    active.flt.inj = [] ∧ active.ch.lastIdle + 10000 ≤ active.tick := by decide +kernel

/-! ## Coherence -/

/-- A request of requester r for sector 0x4001, at the home homeOf 0x4001. -/
def creq (r : Nat) (k : ReqKind) : CReq :=
  { r := r, kind := k, a := 0x4001, mask := 0, data := 0x55, poison := false, engine := none, addr := 0x100040, retry := 0, after := 0, admitted := false, secure := false, hpa := 0 }
def hm : Nat := homeOf 0x4001
/-- Cluster c's L2 holds sector 0x4001 in a state. -/
def l2With (cs : List (Nat × CState)) (s : State) : State :=
  { s with mem := cs.map (fun c => (c.1, { MemCl.init with l2 := [(16 * (0x2000 % 2048), some ⟨0x2000, L2Sec.init, { L2Sec.init with st := c.2, data := 0x77 }, 0⟩)] })) }
def req1 (q : CReq) (cs : List (Nat × CState)) : State := let s := l2With cs base; { s with coh := { s.coh with reqs := [q] } }
/-- The transaction at the home: grant and snoops sent. -/
def txn1 (s : State) : List (Nat × List (Nat × Nat)) := (s.home hm).txns.map (fun y => (y.grant, y.snps.map (fun z => (z.c, z.kind))))
theorem test_rd_s : txn1 (after1 (.rdS 2 0x4001) (req1 (creq 2 .rdS) [])) = [(2, [])] ∧ txn1 (after1 (.rdS 2 0x4001) (req1 (creq 2 .rdS) [(5, .S)])) = [(1, [])] ∧
    txn1 (after1 (.rdS 2 0x4001) (req1 (creq 2 .rdS) [(5, .M)])) = [(1, [(5, 0)])] := by decide +kernel
theorem test_rd_x : txn1 (after1 (.rdX 2 0x4001) (req1 (creq 2 .rdX) [(5, .S)])) = [(3, [(5, 2)])] ∧ txn1 (after1 (.rdX 2 0x4001) (req1 (creq 2 .rdX) [(5, .E)])) = [(3, [(5, 1)])] := by decide +kernel
theorem test_upg : txn1 (after1 (.upg 2 0x4001) (req1 (creq 2 .upg) [(2, .S), (5, .S)])) = [(3, [(5, 2)])] := by decide +kernel
theorem test_rd_nc : txn1 (after1 (.rdNc 16 0x4001) (req1 (creq 16 .rdNc) [(5, .O)])) = [(4, [(5, 3)])] ∧ txn1 (after1 (.rdNc 16 0x4001) (req1 (creq 16 .rdNc) [(5, .E)])) = [(4, [])] := by decide +kernel
theorem test_wr_inv : txn1 (after1 (.wrInv 17 0x4001) (req1 (creq 17 .wrInv) [(5, .M)])) = [(4, [(5, 1)])] ∧ txn1 (after1 (.wrInv 17 0x4001) (req1 (creq 17 .wrInv) [(5, .S)])) = [(4, [(5, 2)])] := by decide +kernel
/-- The home serves a transaction. -/
def txn0 (q : CReq) : Txn := ⟨q, true, [], none, false, 0, false, false, 0, 0, 1, false⟩
def serving (y : Txn) (s : State) : State := { s with coh := { s.coh with homes := [(hm, { Home.init with txns := [y], tickets := if y.active then [] else [y.req.r] })] } }
theorem test_busy_sector : (after1 (.rdS 2 0x4001) (serving (txn0 (creq 3 .rdX)) (req1 (creq 2 .rdS) []))).coh.reqs.map (·.retry) = [2] ∧
    (after1 (.rdS 2 0x4001) (serving (txn0 (creq 3 .rdX)) { base with coh := { base.coh with reqs := [creq 2 .rdS] } })).home hm = { Home.init with txns := [txn0 (creq 3 .rdX)], tickets := [2], cnt := ((after1 (.rdS 2 0x4001) (serving (txn0 (creq 3 .rdX)) (req1 (creq 2 .rdS) []))).home hm).cnt } := by decide +kernel
theorem test_retry : (after1 (.retry 2 0x4001) (req1 { creq 2 .rdS with retry := 2 } [])).coh.reqs.map (·.retry) = [3] ∧
    (after1 (.retry 2 0x4001) (req1 { creq 2 .rdS with retry := 1 } [])).coh.reqs.map (fun q => (q.retry, q.after)) = [(4, 1000002)] := by decide +kernel
theorem test_ticket : ((after1 (.ticketActivate (Fin.ofNat 16 hm) 2) (serving { txn0 (creq 2 .rdS) with active := false } base)).home hm).txns.map (·.active) = [true] ∧
    ((after1 (.ticketActivate (Fin.ofNat 16 hm) 2) (serving { txn0 (creq 2 .rdS) with active := false } base)).home hm).tickets = [2] := by decide +kernel
theorem wit_requests : isHostSec 0x4001 = false ∧ base.on = true ∧ base.flt.inj = [] ∧ (base.home hm).evs = [] ∧ hm < 16 ∧ ((l2With [(2, .S), (5, .S)] base).memCl 2).sector 0x4001 = { L2Sec.init with st := .S, data := 0x77 } := by decide +kernel
/-- A request for a host sector. -/
def hostQ : CReq := { creq 2 .rdS with a := 0x200000040, hpa := 0x5000 }
theorem test_host_read : isHostSec 0x200000040 = true ∧ (after1 (.rdS 2 0x200000040) (req1 hostQ [])).out = [.cacheReq 0 0 0x5000 0 0x55 false] ∧ ((after1 (.rdS 2 0x200000040) (req1 hostQ [])).home (homeOf 0x200000040)).txns.map (·.hostWait) = [true] ∧
    base.coh.hostPort = false ∧ (base.port 0).up = true := by decide +kernel

/-- Cluster 5 is snooped with kind k and holds the sector in a state. -/
def snooped (k : Nat) (st : CState) (stage : Nat) : State := serving { txn0 (creq 2 .rdX) with snps := [⟨5, k, stage, false, false⟩] } (l2With [(5, st)] base)
def l2St (s : State) : CState := ((s.memCl 5).sector 0x4001).st
theorem test_snp_s : l2St (after1 (.snpS 5 0x4001) (snooped 0 .M 0)) = .O ∧ l2St (after1 (.snpS 5 0x4001) (snooped 0 .E 0)) = .S := by decide +kernel
theorem test_snp_x : l2St (after1 (.snpX 5 0x4001) (snooped 1 .M 0)) = .I ∧ (after1 (.snpX 5 0x4001) (snooped 1 .M 0)).lndSector 0x4001 = (0x77, false) := by decide +kernel
theorem test_snp_inv : l2St (after1 (.snpInv 5 0x4001) (snooped 2 .S 0)) = .I ∧ ((after1 (.snpInv 5 0x4001) (snooped 2 .S 0)).home hm).txns.map (·.data) = [none] := by decide +kernel
theorem test_snp_cur : l2St (after1 (.snpCur 5 0x4001) (snooped 3 .O 0)) = .O ∧ ((after1 (.snpCur 5 0x4001) (snooped 3 .O 0)).home hm).txns.map (·.data) = [some (0x77, false)] := by decide +kernel
theorem test_rsp : ((after1 (.rsp 5 0x4001) (snooped 3 .O 1)).home hm).txns.map (fun y => y.snps.map (·.stage)) = [[2]] := by decide +kernel
theorem wit_snoops : (List.range 9).all (fun j => (snooped 0 .M 0).l1 5 j |>.sector 0x4001 |>.isNone) = true ∧ ((snooped 0 .M 0).memCl 5).sector 0x4001 = { L2Sec.init with st := .M, data := 0x77 } ∧
    (snooped 0 .M 0).home hm = { Home.init with txns := [{ txn0 (creq 2 .rdX) with snps := [⟨5, 0, 0, false, false⟩] }] } := by decide +kernel
/-- A transaction of requester r with its data at the home. -/
def given (r : Nat) (k : ReqKind) (gave : Bool) (g : Nat) : State := serving { txn0 (creq r k) with data := some (0x99, false), dataGiven := gave, grant := g } base
def l2St2 (s : State) : CState × Sector := (((s.memCl 2).sector 0x4001).st, ((s.memCl 2).sector 0x4001).data)
theorem test_data_given : ((after1 (.data 2 0x4001) (given 2 .rdS false 1)).home hm).txns.map (·.dataGiven) = [true] := by decide +kernel
theorem test_grant : l2St2 (after1 (.grant 2 0x4001) (given 2 .rdS true 2)) = (.E, 0x99) ∧ l2St2 (after1 (.grant 2 0x4001) (given 2 .rdS true 1)) = (.S, 0x99) ∧ l2St2 (after1 (.grant 2 0x4001) (given 2 .rdX true 3)) = (.M, 0x99) := by decide +kernel
theorem test_grant_upg : l2St2 (after1 (.grant 2 0x4001) (serving { txn0 (creq 2 .upg) with grant := 3 } (l2With [(2, .S)] base))) = (.M, 0x77) := by decide +kernel
theorem test_grant_port : (after1 (.grant 16 0x4001) (given 16 .rdNc true 4)).out = [.memData 0 0x100040 0x99 false] ∧ (after1 (.grant 17 0x4001) (given 17 .wrInv true 4)).out = [.memDone 1 0x100040] := by decide +kernel
theorem test_grant_ack : ((after1 (.grantAck 2 0x4001) (serving { txn0 (creq 2 .rdS) with granted := true } base)).home hm).txns = [] := by decide +kernel
theorem wit_grants : (given 16 .rdNc true 4).evictRoom 16 none 0x4001 = true ∧ (given 17 .wrInv true 4).evictRoom 17 none 0x4001 = true ∧ ((l2With [(2, .I)] (given 2 .rdS true 2)).memCl 2).way 0x2000 ≠ none ∧ l2St2 (after1 (.grant 2 0x4001) (l2With [(2, .I)] (given 2 .rdS true 2))) = (.E, 0x99) ∧ (given 2 .rdS true 2).eng.les = [] := by decide +kernel
def evicting (taken : Bool) : State := { base with coh := { base.coh with homes := [(hm, { Home.init with evs := [⟨5, 0x4001, 0x66, false, taken⟩] })] } }
theorem test_eviction : (after1 (.evData 5 0x4001) (evicting false)).lndSector 0x4001 = (0x66, false) ∧ ((after1 (.evAck 5 0x4001) (evicting true)).home hm).evs = [] := by decide +kernel
/-- Cluster 5 holds a copy of the host's sector 0x5000. -/
def hostCopy : State := { base with mem := [(5, { MemCl.init with l2 := [(16 * (0x100000020 % 2048), some ⟨0x100000020, { L2Sec.init with st := .S, hpa := 0x5000 }, L2Sec.init, 0⟩)] })] }
theorem test_host_snoop : (after1 (.hostSnoop 0 .inv 0x5000) hostCopy).out = [.snoopRsp 0 0x5000 1] ∧ (after1 (.hostSnoop 0 .cur 0x5000) hostCopy).out = [.snoopRsp 0 0x5000 2] ∧ (after1 (.hostSnoop 0 .data 0x5000) base).out = [.snoopRsp 0 0x5000 0] ∧
    hostCopy.hostCopies 0x5000 = [(5, 0x200000040)] ∧ hostCopy.txnOf 0x200000040 = none := by decide +kernel
def hostWaits (k : ReqKind) (r : Nat) : State := serving { txn0 (creq r k) with hostWait := true } base
theorem test_host_answers : ((after1 (.hostReadResponse 0 0x4001 0x44 false) (hostWaits .rdS 2)).home hm).txns.map (fun y => (y.hostWait, y.data, y.grant)) = [(false, some (0x44, false), 1)] ∧
    ((after1 (.hostWriteCompletion 0 0x4001) (hostWaits .wrInv 2)).home hm).txns.map (fun y => (y.hostWait, y.grant)) = [(false, 4)] := by decide +kernel
theorem test_home_timeout : ((after1 (.homeTimeout 0x4001) (hostWaits .rdS 2)).flt.log.map (fun r => (r.source.toNat, r.kind, r.detail)), ((after1 (.homeTimeout 0x4001) (hostWaits .rdS 2)).home hm).txns) = ([(0x1300 + hm, 0x17, 0x100040)], []) ∧
    (after1 (.homeTimeout 0x4001) (hostWaits .wrInv 2)).flt.log.map (·.kind) = [0x25] := by decide +kernel
def lostL2 : State := serving { txn0 (creq 16 .rdNc) with snps := [⟨5, 3, 0, false, false⟩] } (l2With [(5, .M)] base)
theorem test_home_timeout_l2 : ((after1 (.homeTimeout 0x4001) lostL2).lndSector 0x4001).2 = true ∧ (after1 (.homeTimeout 0x4001) lostL2).out.length = 1 := by decide +kernel

/-! ## Cache maintenance, banks, services and trust -/

def memK (k : Nat) (m : MemCl) : State := { base with mem := [(k, m)] }
def mn (o : State) : Byte × BitVec 24 × Option Maint := ((o.memCl 5).maintStatus, (o.memCl 5).maintSeq, (o.memCl 5).maint)
theorem test_range_start : mn (after1 (.clean (.pf 0) 5 false) (memK 5 { MemCl.init with maintLen := 1 })) = (4, 1, some ⟨0, 0, 2, false⟩) ∧ mn (after1 (.discard (.pf 0) 5 false) (memK 5 MemCl.init)) = (3, 1, none) ∧
    mn (after1 (.invalidate (.pf 0) 5 false) (memK 5 { MemCl.init with maintBase := 0x3EFFFFFF, maintLen := 1 })) = (3, 1, none) := by decide +kernel
theorem test_range_denied : mn (after1 (.discard (.pf 0) 5 true) { memK 5 MemCl.init with lnd := { base.lnd with watermark := 1 } }) = (14, 1, none) ∧
    mn (after1 (.discard .secure 5 true) (secured { memK 5 MemCl.init with lnd := { base.lnd with watermark := 1 } })) = (4, 1, some ⟨2, 0, 1, true⟩) ∧
    (after1 (.clean (.pf 0) 5 false) (memK 5 { MemCl.init with maint := some ⟨0, 0, 2, false⟩ })).flt.log.map (fun r => (r.source, r.kind)) = [(0x1205, 0x02)] := by decide +kernel
def ranged (op : Nat) (l2 : Bool) : State := { base with mem := [(5, { MemCl.init with maint := some ⟨op, 0x4000, 1, false⟩, l2 := if l2 then [(16 * (0x2000 % 2048), some ⟨0x2000, { L2Sec.init with st := .M, data := 0x77 }, L2Sec.init, 0⟩)] else [] })] }
def rangeEnd (op : Nat) : CState × Sector × W32 × Byte := let t := after1 (.maintComplete 5) (ranged op true); (((t.memCl 5).sector 0x4000).st, (t.lndSector 0x4000).1, (t.memCl 5).maintVal, (t.memCl 5).maintStatus)
theorem test_range_end : rangeEnd 0 = (.E, 0x77, 1, 0) ∧ rangeEnd 1 = (.I, 0x77, 1, 0) ∧ rangeEnd 2 = (.I, 0, 0, 0) ∧ ((after1 (.maintComplete 5) (ranged 0 false)).memCl 5).maintStatus = 0 := by decide +kernel
theorem wit_ranges : (secured base).whoOk .secure = true ∧ (ranged 0 true).l2Sectors 5 = [0x4000, 0x4001] ∧ (ranged 0 true).l1 5 0 = L1.init ∧ isHostSec 0x4000 = false := by decide +kernel
theorem test_cache_enables : ((after1 (.l1Disable (.pf 0) 5 0) base).l1 5 0).state = 2 ∧ ((after1 (.l1Enable (.pf 0) 5 0) (memK 5 { MemCl.init with l1 := [(0, { L1.init with enable := false, state := 0 })] })).l1 5 0).state = 1 ∧
    ((after1 (.l2Disable (.pf 0) 5) base).memCl 5).l2State = 2 ∧ ((after1 (.l2Disable (.pf 0) 5) base).l1 5 8).state = 2 ∧ ((after1 (.l2Enable (.pf 0) 5) (memK 5 { MemCl.init with l2State := 0 })).memCl 5).l2State = 1 := by decide +kernel
def secSlot : State := { base with tru := { base.tru with sec := [(40, true)] } }
theorem test_secure_slot : secSlot.slotSecure 5 0 = true ∧ base.slotSecure 5 0 = false ∧ (after1 (.l1Disable (.pf 0) 5 0) secSlot).flt.log.map (fun r => (r.source, r.detail)) = [(0x1605, 0x102D)] ∧
    ((after1 (.l1Disable .secure 5 0) (secured secSlot)).l1 5 0).state = 2 := by decide +kernel
def flushing (en : Bool) : State := memK 5 { MemCl.init with
  l1 := [(0, { L1.init with enable := en, state := 2, blks := [(0, some ⟨0x1000, { L1Sec.init with st := 2, data := 0x88 }, L1Sec.init, L1Sec.init, L1Sec.init⟩)] })],
  l2 := [(16 * (0x2000 % 2048), some ⟨0x2000, { L2Sec.init with st := .E, data := 0x77 }, L2Sec.init, 0⟩)] }
theorem test_l1_flush : (let t := after1 (.flushComplete 5 (some 0)) (flushing false); (((t.memCl 5).sector 0x4000).st, ((t.memCl 5).sector 0x4000).data, (t.l1 5 0).state, (t.l1 5 0).blks)) = (.M, 0x88, 0, []) ∧
    ((after1 (.flushComplete 5 (some 0)) (flushing true)).l1 5 0).state = 1 := by decide +kernel
def l2Flushing (en : Bool) : State := memK 5 { MemCl.init with
  l2State := 2, l2Enable := en, l1 := (List.range 9).map (fun j => (j, { L1.init with state := 0 })),
  l2 := [(16 * (0x2000 % 2048), some ⟨0x2000, { L2Sec.init with st := .M, data := 0x77 }, L2Sec.init, 0⟩)] }
theorem test_l2_flush : (let t := after1 (.flushComplete 5 none) (l2Flushing false); ((t.memCl 5).l2, (t.memCl 5).l2State, (t.lndSector 0x4000).1)) = ([], 0, 0x77) ∧
    ((after1 (.flushComplete 5 none) (l2Flushing true)).memCl 5).l2State = 1 ∧ (after1 (.flushComplete 5 none) { l2Flushing true with mem := [(5, { MemCl.init with l2State := 2 })] }).mem = [(5, { MemCl.init with l2State := 2 })] := by decide +kernel
theorem test_clears : ((after1 (.memCntClear (.pf 0) 5 1) (memK 5 { MemCl.init with cnt := [(0, 3)] })).memCl 5).cnt = [] ∧ (after1 (.lndCntClear (.pf 0) 1) { base with lnd := { base.lnd with corr := 4 } }).lnd.corr = 0 ∧
    ((after1 (.cohCntClear (.pf 0) 5 1) { base with coh := { base.coh with homes := [(5, { Home.init with cnt := [(0, 3)] })] } }).home 5).cnt = [] ∧
    ((after1 (.cphCntClear (.pf 0) 1) { base with cph := { base.cph with grps := [(5, { Svc.init with cnt := [(0, 3)] })] } }).grp 5).cnt = [] ∧
    ((after1 (.galCntClear (.pf 0) 1) { base with gal := { base.gal with coders := [(5, { Svc.init with cnt := [(0, 3)] })] } }).coder 5).cnt = [] := by decide +kernel
/-- E000 waits for a load from a retained bank. -/
def sleeping : State := { base with mem := [(0, { MemCl.init with bank := [(0, 1)] })], bytes := [(0x1100000000, 0x42)], eng := { base.eng with les := [(0, { eng0 with flight := [⟨0, .lsu, 0, 0, 0, some (0x1000000000, 8)⟩] })] } }
theorem test_bank_wake : (after1 (.bankWake 0 0) sleeping).bankState 0 0 = 0 ∧ ((after1 (.bankWake 0 0) sleeping).le 0).flight.map (fun f => (f.val, f.wait)) = [(0x42, none)] ∧ inBank 0 0 (canon 0 0x1000000000) = true := by decide +kernel
def banked (v : BitVec 2) : State := let s := pf0 0x52 []; { s with bytes := [(0x1100000000, 0x42), (0x1100000008, 0x43)], mem := [(0, { MemCl.init with bankWait := [(0, v, 7)] })] }
theorem test_bank_change : said (exec (.bankStateComplete 0 0) (banked 2)) 0 = some (0, 0, 0, 0) ∧ (after1 (.bankStateComplete 0 0) (banked 2)).bytes = [(0x1100000008, 0x43)] ∧
    (after1 (.bankStateComplete 0 0) (banked 1)).bytes = (banked 1).bytes ∧ (after1 (.bankStateComplete 0 0) (banked 1)).bankState 0 0 = 1 := by decide +kernel
theorem test_patrol : (after1 (.patrolScrub .corrected) base).lnd.scrubFix = 1 ∧ Sp.look (after1 (.patrolScrub .uncorrectable) base).poison false 0 = true ∧ (after1 (.patrolScrub .clean) base).lnd.scrubPos = 64 ∧
    ((after1 (.patrolScrub .clean) { base with ecc := [(0, 2)] }).flt.log.map (fun r => (r.source, r.kind))) = [(0x1500, 0x22)] := by decide +kernel
theorem wit_patrol : base.lnd.scrubEn = true ∧ base.lnd.init = 2 ∧ base.live = true := by decide +kernel

/-- Request of a host command 7 to the host's memory at 0x8000000000. -/
def svc (op len : Nat) : SvcReq := { op := op, src := 0x8000000000, dst := 0x1100000000, res := 0, aad := 0, aadLen := 0, len := len, ratio := 1, stream := false, slot := 5, expGen := 0, iv := 0, ivKind := 0, tag := 0, func := 0, secure := false, engine := none, tid := 0, handle := 7 }
def capturing (k : KeySlot) (r : SvcReq) : State := let s := pf0 0x32 []; { s with cph := { s.cph with slots := [(keyIndex 0 false 5, k)], grps := [(2, { Svc.init with queue := [r] })] }, pwr := { s.pwr with grants := [⟨4, 1, 0x102⟩] } }
theorem test_key_capture : ((after1 (.keyCapture 2) (capturing { KeySlot.init with type := 1, key := 9 } (svc 0 16))).grp 2).run.map (fun o => o.key.key) = some 9 ∧ said (exec (.keyCapture 2) (capturing KeySlot.init (svc 0 16))) 0 = some (3, 0, 28, 0) := by decide +kernel
def engKey : State := let s := capturing { KeySlot.init with type := 1, gen := 2 } { svc 0 16 with engine := some 0, tid := 0x00100005, expGen := 1, tag := 6 }; { s with eng := { s.eng with les := [(0, eng0)] } }
theorem test_key_erased : ((after1 (.keyCapture 2) engKey).le 0).evq = [Cert.event 0x00100005 7 0x60A] := by decide +kernel
theorem wit_key_capture : (capturing KeySlot.init (svc 0 16)).hasGrant 4 0x102 = true ∧ storeIndex (svc 0 16) = keyIndex 0 false 5 ∧ (capturing KeySlot.init (svc 0 16)).live = true ∧ storeIndex (svc 0 16) = 4101 := by decide +kernel
/-- A module whose function 0 maps the host page at 0x8000000000, with this group or coder run. -/
def running (g : Bool) (o : RunOp) : State :=
  let s := pf0 0x32 []
  { s with qm := { s.qm with wins := [(0, ⟨true, true, true, 0, 0, 1⟩)] }, cph := { s.cph with grps := if g then [(2, { Svc.init with run := some o })] else [] }, gal := { s.gal with coders := if g then [] else [(2, { Svc.init with run := some o })] } }
def op1 (r : SvcReq) : RunOp := ⟨r, { KeySlot.init with type := 1 }, true, [], none, []⟩
-- The block of zeros under the key of zeros of the published AES-128 test values.
theorem test_raw : said (exec (.cipherOperationEnd 2 HostIn.empty) (running true (op1 (svc 2 16)))) 0 = some (0, 0, 16, 0) ∧ (after1 (.cipherOperationEnd 2 HostIn.empty) (running true (op1 (svc 2 16)))).bytes.map (·.2) =
    [0x66, 0xE9, 0x4B, 0xD4, 0xEF, 0x8A, 0x2C, 0x3B, 0x88, 0x4C, 0xFA, 0x59, 0xCA, 0x34, 0x2B, 0x2E] := by decide +kernel
-- Test case 2 of the published AES-GCM test values.
theorem test_seal_end : (after1 (.cipherOperationEnd 2 HostIn.empty) (running true (op1 (svc 0 16)))).bytes.map (·.2) =
    [0x03, 0x88, 0xDA, 0xCE, 0x60, 0xB6, 0xA3, 0x92, 0xF3, 0x28, 0xC2, 0xB9, 0x71, 0xB2, 0xFE, 0x78, 0xAB, 0x6E, 0x47, 0xD4, 0x2C, 0xEC, 0x13, 0xBD, 0xF5, 0x3A, 0x67, 0xB2, 0x12, 0x57, 0xBD, 0xDF] := by decide +kernel
theorem test_unseal_end : ((after1 (.cipherOperationEnd 2 HostIn.empty) (running true (op1 (svc 1 1)))).grp 2).run.map (fun o => o.fail) = some (some (7, 0, 0)) := by decide +kernel
theorem wit_cipher_ends : Clean (running true (op1 (svc 2 16))) HostIn.empty (svc 2 16) 0 (svc 2 16).src 16 ∧ Clean (running true (op1 (svc 2 16))) HostIn.empty (svc 2 16) 0 0 0 ∧ (running true (op1 (svc 2 16))).live = true ∧ ((running true (op1 (svc 2 16))).grp 2).run = some (op1 (svc 2 16)) := by
  refine ⟨⟨by decide +kernel, by decide +kernel⟩, ⟨by decide +kernel, by decide +kernel⟩, ?_, ?_⟩ <;> decide +kernel
def scrubOp (eng : Option Nat) : RunOp := { op1 { svc 0 16 with engine := eng } with fail := some (7, 3, 0), written := [(0x1100000000, 8)] }
def scrubbing (g : Bool) : State := { running g (scrubOp none) with bytes := [(0x1100000000, 9), (0x1100000008, 8)] }
theorem test_scrub : said (exec (.cipherScrubComplete 2) (scrubbing true)) 0 = some (7, 0, 3, 0) ∧ (after1 (.cipherScrubComplete 2) (scrubbing true)).bytes = [(0x1100000008, 8)] ∧ ((after1 (.cipherScrubComplete 2) (scrubbing true)).grp 2).run = none ∧
    said (exec (.galleyScrubComplete 2) (scrubbing false)) 0 = some (7, 0, 3, 0) ∧ ((after1 (.galleyScrubComplete 2) (scrubbing false)).coder 2).run = none := by decide +kernel
/-- A KEY_ERASE of slot 5 waits for the scrub of an engine's operation. -/
def erasing : State := let s := running true (scrubOp (some 0)); { s with qm := { s.qm with cmds := [{ cmdOf 0 (pk 0x35 [(28, 5)]) with stage := .running }] } }
theorem test_scrub_erase : said (exec (.cipherScrubComplete 2) erasing) 0 = some (0, 0, 0, 0) ∧ storeIndex (scrubOp none).req = keyIndex 0 false 5 := by decide +kernel
def coding (x : Svc) : State := let s := pf0 0x30 []; { s with gal := { s.gal with coders := [(2, x)] }, pwr := { s.pwr with grants := [⟨4, 1, 0x202⟩] } }
theorem test_coder_start : ((after1 (.coderOperationStart 2) (coding { Svc.init with queue := [svc 0 4096] })).coder 2).run = some ⟨svc 0 4096, KeySlot.init, true, [], none, []⟩ ∧ (coding Svc.init).hasGrant 4 0x202 = true := by decide +kernel
def disputed (n : Nat) : State := coding { Svc.init with run := some ⟨svc 0 4096, KeySlot.init, true, [], none, []⟩, faults := [(0, n)] }
theorem test_confirmation : ((after1 (.galleyConfirmation 2 0 true) (disputed 0)).coder 2).run.map (·.confirmed) = some [(0, true)] ∧ ((after1 (.galleyConfirmation 2 0 false) (disputed 0)).flt.log.map (fun r => (r.source, r.kind))) = [(0x202, 0x16)] ∧
    ((after1 (.galleyConfirmation 2 0 false) (disputed 1)).coder 2).retired = true ∧ (disputed 0).coderServes false 3 = true := by decide +kernel
/-- Group owners as if all but coder 2 had retired. -/
def loneCoder (o : RunOp) : State := let s := running false o; { s with gal := { s.gal with coders := (List.range 64).map (fun k => (k, if k = 2 then { Svc.init with run := some o } else { Svc.init with retired := true })) } }
def blockOp (op : Nat) (len : Nat) : RunOp := ⟨{ svc op len with ratio := 1, dst := 0x1100000000 }, KeySlot.init, true, [], none, []⟩
theorem wit_coder_fails : (galDecode 1 (some 16) ((loneCoder (blockOp 1 16)).unitRead HostIn.empty 0 false 0 0x8000000000 (galSize 1)).1).isNone = true ∧ Clean (loneCoder (blockOp 1 16)) HostIn.empty (blockOp 1 16).req 0 (blockOp 1 16).req.src (galSize 1) ∧
    (List.range 64).all (fun k => k == 2 || !(loneCoder (blockOp 1 16)).coderServes false k) = true := by
  refine ⟨?_, ⟨by decide +kernel, by decide +kernel⟩, ?_⟩ <;> decide +kernel
theorem test_galley : ((galEncode 1 [1, 2, 3]).bind (galDecode 1 (some 3))) = some [1, 2, 3] := by decide +kernel
theorem test_compress_end : said (exec (.coderOperationEnd 2 HostIn.empty) (running false (blockOp 0 16))) 0 = some (0, 0, 1, 0) := by decide +kernel

/-- A hand-over of block d is wanted or agreed by command 7. -/
def handing (d : Nat) (agreed rel : Bool) : State := let s := secured (pf0 0x71 []); { s with tru := { s.tru with pending := [⟨BitVec.ofNat 16 d, agreed, rel, 7, 0⟩] } }
theorem test_hand_over : (after1 (.hoGive 3) (handing 3 false true)).tru.pending = [⟨3, true, true, 7, 1000000⟩] ∧ said (exec (.hoRefuse 3) (handing 3 false true)) 0 = some (0x0E, 0, 0, 0) ∧
    (after1 (.hoWant 3) (handing 3 false true)).flt.log.map (fun r => (r.source, r.kind, r.detail)) = [(0x1605, 0x02, 3)] ∧ said (exec (.hoWaitExpiry 3) (handing 3 false true)) 0 = some (0x0E, 0, 0, 0) := by decide +kernel
theorem test_hand_over_done : (handing 3 true true).blockDone 3 = true ∧ after1 (.hoWaitExpiry 3) (handing 3 true true) = handing 3 true true := by decide +kernel
theorem wit_hand_over : (handing 3 false true).whoOk .secure = true ∧ isDynamic 3 = true ∧ (handing 3 false true).secBlock 3 = false ∧ isDynamic 0x310 = false ∧ (handing 0x300 true true).tru.wm.scr = 0 := by decide +kernel
theorem test_hand_over_engine : (let t := after1 (.handoverReset 3) (handing 3 true true); (said (.next t) 0, Sp.look t.tru.sec false 3, (t.fn 0).event)) = (some (0, 0, 0, 0), true, 8) := by decide +kernel
theorem test_hand_over_units : Sp.look (after1 (.handoverReset 0x100) (handing 0x100 true true)).tru.sec false 0x100 = true ∧ Sp.look (after1 (.handoverReset 0x23F) (handing 0x23F true true)).tru.sec false 0x23F = true := by decide +kernel
theorem test_hand_over_scratch : (let t := after1 (.handoverReset 0x300) { handing 0x300 true true with bytes := [(0x1100000000, 9), (0x1100100000, 8)] }; (t.tru.wm.scr, t.bytes)) = (1, [(0x1100100000, 8)]) := by decide +kernel
def dogged : State := let s := secured base; { s with tick := 200000000, tru := { s.tru with wdogEn := true, wdogPeriod := 1000, wdogKick := 99999999 } }
theorem test_watchdog : (after1 .secureWatchdogExpiry dogged).tru.secState = 2 ∧ (after1 .secureWatchdogExpiry { dogged with tick := 199999998 }).tru.secState = 1 ∧ (after1 .wdogKick dogged).tru.wdogKick = 200000000 ∧ (after1 (.secRestart 1) dogged).tru.gates = 0 := by decide +kernel
/-- The secure world is down; it owns E003 and has an image of one word. -/
def fallen : State := { base with tru := { base.tru with secState := 2, sec := [(3, true)], wm := ⟨0, 1, 0, 0⟩ }, deck := { base.deck with secImage := some ⟨false, true, 0, [0], 0xFFFF, [wordEntry], [1]⟩ } }
theorem test_lone_restart : (after1 (.loneRestartComplete false) fallen).tru.secState = 3 ∧ (after1 (.loneRestartComplete false) fallen).flt.log.map (·.kind) = [0x35] ∧ (let t := after1 (.loneRestartComplete true) fallen; (t.tru.secState, t.tru.restarts, t.eng.secImg.isSome)) = (1, 1, true) := by decide +kernel
theorem wit_restart : fallen.secBlock 3 = true ∧ fallen.inService 3 = true ∧ fallen.live = true ∧ dogged.live = true := by decide +kernel
def ownered (l : Lc) : State := let s := living l base; { s with deck := { s.deck with ownerKey := some (List.replicate 96 1) }, tru := { s.tru with token := List.replicate 96 2 } }
theorem test_lifecycle : (after1 (.lcCmd 0 2) (ownered .provision)).deck.lcNext = some .field ∧ (after1 (.lcCmd 0 2) (ownered .service)).deck.lcNext = some .field ∧ (after1 (.lcCmd 0 2) (living .provision base)).flt.log.map (·.detail) = [0x280010] ∧
    (after1 (.lcCmd 0 3) (ownered .provision)).deck.lcNext = none := by decide +kernel
theorem test_owner_key : (after1 (.ownerKeyWrite 0 0x55) (living .provision base)).deck.ownerKey = some (0x55 :: List.replicate 95 0) ∧ (after1 (.ownerKeyWrite 0 0x55) (living .field base)).flt.log.map (·.detail) = [0x280200] := by decide +kernel
theorem wit_lifecycle : base.whoOk (.pf 0) = true ∧ (ownered .field).tru.token.length = 96 ∧ (ownered .endState).deck.lc = .endState ∧ (ownered .field).deck.ownerKey = some (List.replicate 96 1) := by decide +kernel
def measuring (i : Byte) : State := let s := secured base; { s with tru := { s.tru with measExt := i :: List.replicate 63 0 } }
theorem test_measure : (after1 (.measExt 7) (measuring 15)).tru.meas = [] ∧ (after1 (.measExt 7) (measuring 32)).tru.meas = [] ∧ (after1 (.measExt 7) (measuring 31)).tru.meas.map (·.1) = [31] := by decide +kernel
theorem test_debug : (after1 (.debugWrite 0 15) (living .service base)).tru.debug = 7 ∧ (after1 (.debugWrite 0 1) (living .endState base)).tru.debug = 0 ∧ (after1 (.debugWrite 0 1) (living .endState base)).flt.log.map (·.detail) = [0x280600] := by decide +kernel

/-! ## Faults and tests, power, start-up and the sideband -/

def rep (source : W16) (kind : Byte) (d : W64) : Report := ⟨source, kind, 0x00100005, 3, d, false, false⟩
def logged (s : State) : List (W16 × Byte × W64) := s.flt.log.map (fun r => (r.source, r.kind, r.detail))
def faulted (r : Report) : State := after (execFaultReport [r] base)
theorem test_fault_report : logged (faulted (rep 0x1600 0x02 7)) = [(0x1600, 0x02, 7)] ∧ (faulted (rep 0x1604 0x25 7)).flt.outst = 2 ∧ ((faulted (rep 0x1604 0x25 7)).fn 3).event = 8 ∧ ((faulted (rep 0x1604 0x17 7)).fn 3).event = 0 ∧
    ((faulted { rep 0x1604 0x25 7 with func := 0x102 }).fn 0).event = 0 := by decide +kernel
theorem test_grave : (let t := faulted (rep 0x1501 0x40 1); (t.flt.grave, t.start.phase, t.tly.stopped, (t.port 1).viralOut, t.flt.blaze.map (·.index))) = (true, 7, true, true, some 1) ∧
    (faulted (rep 0x1501 0x40 1)).start.writing.map (fun w => w.1) = some .grave ∧ (faulted (rep 0x1600 0x42 0)).start.writing = none := by decide +kernel
theorem test_contained : (faulted (rep 0x1501 0x14 0x140)).lnd.corr = 1 ∧ Sp.look (faulted (rep 0x1501 0x22 0x147)).poison false 0x140 = true ∧ Sp.look ((faulted (rep 0x105 0x15 3)).grp 5).faults 0 3 = 1 ∧
    Sp.look ((faulted (rep 0x205 0x16 5)).coder 5).faults 0 0 = 1 ∧ ((faulted (rep 0x1602 0x27 4101)).slot 4101).gen = 1 ∧ ((faulted (rep 0x1001 0x20 0)).pe 1).role = .retired := by decide +kernel
theorem wit_faults : plainKind 0x25 ∧ plainKind 0x17 ∧ plainKind 0x40 ∧ plainKind 0x02 ∧ base.on = true ∧ base.start.loaded = true ∧ base.start.skidDone = false ∧ base.flt.winTick = none ∧ base.cph.limit = 2 := by
  refine ⟨?_, ?_, ?_, ?_, ?_, ?_, ?_, ?_, ?_⟩ <;> (first | decide +kernel | (unfold plainKind; decide +kernel))
def flt (f : Flt → Flt) (s : State) : State := { s with flt := f s.flt }
def outstanding (h : BitVec 3) : State := flt (fun f => { f with outst := 6, hold := h, lastRep := [(2, 0), (3, 0)], quiet := [] }) { base with tick := 1000000000, mp := { base.mp with run := 2 } }
theorem test_quiet : (after1 (.quietPeriodExpiry 2) (outstanding 0)).flt.outst = 2 ∧ (after1 (.quietPeriodExpiry 2) (outstanding 0)).mp.run = 1 ∧ (after1 (.quietPeriodExpiry 1) (outstanding 2)).flt.outst = 6 ∧
    (after1 (.quietPeriodExpiry 1) { outstanding 0 with tick := 999999999 }).flt.outst = 6 := by decide +kernel
def blazed : State := let s := faulted (rep 0x1501 0x40 1); s
theorem test_blaze_clear : (after1 (.blazeClear 0 0x80000000) blazed).flt.blaze = none ∧ (after1 (.blazeClear 0 0x80000000) blazed).deck.blaze = none ∧ (after1 (.blazeClear 0 1) blazed).flt.blaze.isSome = true := by decide +kernel
theorem test_alive : (let t := after1 .aliveToggle (flt (fun f => { f with aliveOn := true, aliveAt := 950000 }) base); (t.flt.alive, t.out)) = (true, [.alive true]) ∧ (after1 .aliveToggle (flt (fun f => { f with aliveOn := true, aliveAt := 950001 }) base)).out = [] := by decide +kernel
def stuckMp : State := { pf0 0x00 [] with tick := 10000000 }
theorem test_mp : (after1 .mpWatchdogExpiry stuckMp).mp.run = 2 ∧ logged (after1 .mpWatchdogExpiry stuckMp) = [(0x1603, 0x34, 0)] ∧ ((after1 .mpWatchdogExpiry stuckMp).queue 0 1).due.length = 1 ∧ (after1 .mpLockstepMismatch stuckMp).mp.run = 1 ∧
    logged (after1 .mpLockstepMismatch stuckMp) = [(0x1603, 0x24, 0)] ∧ (after1 .mpWatchdogKick stuckMp).mp.kick = 10000000 ∧ (let t := after1 .mpRestartComplete { base with mp := { base.mp with run := 1 } }; (t.mp.run, t.flt.aliveOn)) = (0, true) := by decide +kernel
def armed (h : Option Nat) (t : Nat) : State := flt (fun f => { f with inj := [⟨0x100, 1, h, 0, false, 0, 0⟩] }) { pf0 0x62 [] with tick := t }
theorem test_inject_timeout : said (exec (.injectTimeout 0x100) (armed (some 7) 100000000)) 0 = some (0x0D, 0, 0, 0) ∧ (after1 (.injectTimeout 0x100) (armed none 100000000)).flt.injStatus = 0x0D ∧
    (after1 (.injectTimeout 0x100) (armed none 99999999)).flt.inj.length = 1 := by decide +kernel
def injecting (u : W16) (m : W32) (l : Lc) : State := flt (fun f => { f with injTarget := u, injMask := m }) (living l (secured { base with tru := { base.tru with sec := [(0x100, true)] } }))
theorem test_inj_go : (after1 (.injGo 1) (injecting 0x100 1 .endState)).flt.injStatus = 0x0F ∧ (after1 (.injGo 1) (injecting 0x1600 1 .field)).flt.injStatus = 3 ∧ (after1 (.injGo 1) (injecting 0x101 1 .field)).flt.injStatus = 0x0E ∧
    (after1 (.injGo 1) (injecting 0x100 1 .field)).flt.inj = [⟨0x100, 1, none, 1000000, false, 0, 1⟩] := by decide +kernel
theorem wit_inj_go : failAt (injChecks (injecting 0x100 1 .field) 0x100 1) = none ∧ (injecting 0x100 1 .field).secUnit 0x100 = true ∧ (injecting 0x101 1 .field).secUnit 0x101 = false ∧ (injecting 0x100 1 .field).whoOk .secure = true := by decide +kernel
/-- Cluster 5 with bank 0 OFF and its TEST grants, 700 s after reset. -/
def testing (m : MemCl) : State := { memK 5 { m with bank := [(0, 2)] } with tick := 70000000000, pwr := { base.pwr with grants := [⟨8, 1, 0x2150⟩, ⟨8, 1, 0x2035⟩] } }
theorem test_test_start : ((after1 (.bankTestStart 5) (testing MemCl.init)).memCl 5).test = some ⟨0, none, 2, false, none⟩ ∧ ((after1 (.bankTestStart 5) { base with tick := 70000000000 }).memCl 5).lastBank = 70000000000 ∧
    ((after1 (.spareEngineTestStart 5) (testing MemCl.init)).memCl 5).engTest = some none ∧ ((after1 (.spareEngineTestStart 5) (testing { MemCl.init with engTest := some none })).memCl 5).lastEng = 0 := by decide +kernel
def asksTest (u : Nat) : State := let s := testing MemCl.init; { s with qm := { s.qm with cmds := [{ cmdOf 0 (pk 0x63 [(9, u)]) with stage := .running }] } }
theorem test_selftest_start : ((after1 (.bankTestStart 5) (asksTest 0x1150)).memCl 5).test = some ⟨0, none, 2, false, some 7⟩ ∧ said (exec (.bankTestStart 5) (asksTest 0x1151)) 0 = none ∧ (testing MemCl.init).bankPlan 5 0 = some none := by decide +kernel
theorem wit_test_start : (testing MemCl.init).bgOn = true ∧ (testing MemCl.init).spareServes 5 = false ∧ (testing MemCl.init).spareOf 5 = some 53 ∧ (testing MemCl.init).hasGrant 8 0x2035 = true ∧ base.bankPlan 5 3 = none := by decide +kernel
def testRun (x : BankTest) : State := { testing { MemCl.init with test := some x } with bytes := [(0x1100500000, 9)] }
theorem test_test_end : ((after1 (.bankTestPhaseEnd 5 true) (testRun ⟨1, some 0, 1, false, none⟩)).memCl 5).serving 1 = 0 ∧ ((after1 (.bankTestPhaseEnd 5 true) (testRun ⟨1, some 0, 2, false, none⟩)).memCl 5).test = some ⟨1, some 0, 3, false, none⟩ ∧
    (after1 (.bankTestPhaseEnd 5 true) (testRun ⟨0, none, 2, false, none⟩)).bytes = [] ∧ logged (after1 (.bankTestPhaseEnd 5 false) (testRun ⟨0, none, 2, false, none⟩)) = [(0x1150, 0x28, 0)] ∧
    (after1 (.bankTestPhaseEnd 5 true) (testRun ⟨1, some 0, 3, false, none⟩)).flt.bgPass = 1 := by decide +kernel
theorem test_engine_test_end : (after1 (.spareEngineTestEnd 5 true) (testing { MemCl.init with engTest := some none })).flt.bgPass = 1 ∧ ((after1 (.spareEngineTestEnd 5 false) (testing { MemCl.init with engTest := some none })).pe 53).role = .retired := by decide +kernel
def selfTested (u : W16) : State := let s := flt (fun f => { f with selftests := [(u, 7)] }) (pf0 0x63 []); { s with bytes := [(0x1100500000, 9)], pwr := { s.pwr with grants := [⟨8, 1, 0x1000 + u.toNat⟩] } }
theorem test_selftest_end : said (exec (.selftestComplete 0x1150 true) (selfTested 0x1150)) 0 = some (0, 0, 0, 0) ∧ (after1 (.selftestComplete 0x1150 true) (selfTested 0x1150)).bytes = [] ∧ said (exec (.selftestComplete 0x1150 false) (selfTested 0x1150)) 0 = some (0x12, 0, 1, 0) ∧
    (after1 (.selftestComplete 0xFFFF true) (selfTested 0xFFFF)).bytes = [] := by decide +kernel

def pwr (f : Pwr → Pwr) (s : State) : State := { s with pwr := f s.pwr }
def grants (o : State) : List Grant × List Grant := (o.pwr.grants, o.pwr.waiting)
theorem test_grant_request : grants (after1 (.powerGrantRequest 3 1 0) (withEng eng0 [])) = ([⟨3, 1, 0⟩], []) ∧ grants (after1 (.powerGrantRequest 3 1 0) (pwr (fun p => { p with grants := [⟨3, 16, 9⟩], pool := 122 }) (withEng eng0 []))) = ([⟨3, 16, 9⟩], [⟨3, 1, 0⟩]) ∧
    grants (after1 (.powerGrantRequest 3 1 0) (pwr (fun p => { p with grants := [⟨3, 16, 9⟩] }) (withEng eng0 []))) = ([⟨3, 16, 9⟩, ⟨3, 1, 0⟩], []) ∧
    Sp.look (after1 (.powerGrantRequest 3 1 0) (pwr (fun p => { p with grants := [⟨3, 16, 9⟩] }) (withEng eng0 []))).pwr.waited 0 3 = 1 := by decide +kernel
theorem test_grant_release : grants (after1 (.powerGrantRelease 3 0) (pwr (fun p => { p with grants := [⟨3, 1, 0⟩], waiting := [⟨3, 1, 5⟩] }) base)) = ([⟨3, 1, 5⟩], []) ∧ grants (after1 (.powerGrantRelease 3 0) (pwr (fun p => { p with grants := [⟨3, 1, 0⟩] }) base)) = ([], []) := by decide +kernel
theorem wit_grant : (withEng eng0 []).needs 3 0 = some 1 ∧ base.needs 3 0 = none ∧ base.start.done.contains .D = true ∧ freeAmps 122 [⟨3, 16, 9⟩] < 1 := by decide +kernel
theorem test_pool : (after1 (.poolUpdate 601 0) base).pwr.pool = 398 ∧ (after1 (.poolUpdate 100 100) base).pwr.pool = 416 ∧ (after1 (.poolUpdate 595 0) base).pwr.pool = 400 ∧ (after1 (.poolUpdate 100 100) (pwr (fun p => { p with throttle := true }) base)).pwr.pool = 122 := by decide +kernel
theorem test_pace : (after1 (.paceRead ((List.range 16).map (fun k => if k = 3 then 1024 else k))) base).pwr.paceNow = 1023 ∧ (let t := after1 .paceAdjust (pwr (fun p => { p with pace := true, paceNow := 411 }) base); (t.pwr.target, t.out)) = (805, [.vrm 0x21 805]) ∧
    (after1 .paceAdjust (pwr (fun p => { p with pace := true, paceNow := 410 }) base)).out = [] ∧ (after1 .paceAdjust base).out = [] := by decide +kernel
theorem test_vrm : (let t := after1 (.vrmPoll 800 300 5) base; (t.pwr.vout, t.pwr.statusWord, t.out)) = (800, 5, [.vrm 0x8B 800, .vrm 0x8C 300, .vrm 0x79 5]) ∧ (after1 .vrmTransferFail base).pwr.vrmErr = true := by decide +kernel
def heat (n : Nat) : State := after (execThermalSample (List.replicate 36 n) (pwr (fun p => { p with thermN := true }) base))
theorem test_thermal : (heat 100).pwr.throttle = true ∧ (heat 100).pwr.pool = 122 ∧ (heat 99).pwr.thermN = false ∧ (heat 96).pwr.throttle = false ∧ (heat 110).pwr.thermN = true := by decide +kernel
theorem test_sag : (after1 (.sagStopNvCrossing 929) base).pwr.stop = true ∧ (after1 (.nvStopEnd 950) (pwr (fun p => { p with stop := true }) base)).pwr.stop = false ∧ (after1 (.nvStopEnd 949) (pwr (fun p => { p with stop := true }) base)).pwr.stop = true := by decide +kernel
def skid (v : W16) : State := after (execSagSkidCrossing 879 v (pwr (fun p => { p with holdCap := 100000 }) (base.setEntry 5 { Entry.free 1 with state := .active })))
theorem test_skid : (skid 12000).start.writing.map (fun w => (w.1, w.2.map (fun i => (i.kind, i.entries.length)))) = some (.sag, some (.full, 1)) ∧ (skid 7500).start.writing.map (fun w => w.2.map (·.kind)) = some (some .priority) ∧ (skid 7010).start.writing = some (.sag, none) ∧
    (skid 7000).start.writing = none ∧ (skid 12000).pwr.keep = true := by decide +kernel
theorem test_rails : (after1 (.railUndervoltage .core 12000) base).pwr.keep = true ∧ ((after1 (.railUndervoltage .serdes 12000) (inState .up)).port 0).up = false ∧ link17 (after1 (.railUndervoltage .serdes 12000) (inState .up)) = (.down, 1) ∧
    (after1 (.railUndervoltage (.hbm 4) 12000) base).lnd.stackOk = 11 ∧ (after1 .holdUpStoreExhausted (skid 12000)).start.off = true := by decide +kernel
theorem test_hold_status : (let t := after1 (.holdStatusUpdate 12000) (pwr (fun p => { p with holdCap := 100000 }) base); (t.pwr.vHold, t.pwr.energy, t.pwr.level)) = (12000, 3800, 3) := by decide +kernel
def checking (k : Option (Nat × W16)) : State := pwr (fun p => { p with check := k, checkDue := 1000000 }) base
theorem test_hold_check : (after1 (.holdCheckStart 10800) (checking none)).pwr.check = some (1000000, 10800) ∧ (after1 (.holdCheckStart 10799) (checking none)).pwr.checkDue = 6001000000 ∧
    (let t := after1 (.holdCheckComplete 11900) (checking (some (0, 12000))); (t.pwr.cMeas, t.pwr.cValid)) = (100000, true) ∧ (after1 (.holdCheckComplete 11900) (checking (some (1, 12000)))).pwr.cValid = false := by decide +kernel
theorem test_hold_go : (let t := after1 (.holdCheckGo 0 0x80000019 10800) base; (t.pwr.holdPeriod, t.pwr.check, (t.fn 0).clamp)) = (24, some (1000000, 10800), 1) ∧ (after1 (.holdCheckGo 0 0x80000000 10799) base).pwr.holdPeriod = 1 := by decide +kernel
theorem test_hold_cap : (after1 (.holdCapWrite 0 0x5000) base).deck.holdCap = 0x5000 ∧ (after1 (.holdCapWrite 0 0x5000) (pwr (fun p => { p with stop := true }) base)).deck.holdCap = 0 ∧ (after1 (.pwrCntClear (.pf 0) 1) (pwr (fun p => { p with waited := [(3, 4)] }) base)).pwr.waited = [] := by decide +kernel

def start (f : Start → Start) (s : State) : State := { s with start := f s.start }
theorem test_power_on : (let t := after1 .powerOnReset (start (fun x => { x with off := true }) blazed); (t.tick, t.flt.outst, t.deck.blaze.isSome, t.start.off)) = (0, 0, true, false) := by decide +kernel
theorem test_supply_return : (after1 (.supplyReturn 950) { skid 7000 with flt := { base.flt with outst := 7, hold := 3 } }).flt.outst = 3 ∧ (after1 (.supplyReturn 949) (skid 7000)).pwr.keep = true := by decide +kernel
theorem test_warm_reset : (after1 (.warmReset 0 0x92560001) base).start.warm = true ∧ logged (after1 (.warmReset 0 1) base) = [(0x1603, 0x02, 8)] ∧ (after1 (.warmReset 0 0x92560001) base).start.writing.map (fun w => w.1) = some .warm := by decide +kernel
theorem test_quiesce : (let t := after1 (.quiesce 0 0x800003FF) base; (t.start.quiesce, t.start.quiesceWait, t.start.phase)) = (true, 1000, 5) := by decide +kernel
def quiescing (st : TState) (t : Nat) : State := start (fun x => { x with quiesce := true, quiesceAt := t }) (base.setEntry 5 { Entry.free 1 with state := st })
theorem test_quiesced : (after1 .quiesceDrained (quiescing .committed 1000000)).start.writing.map (fun w => w.1) = some .quiesce ∧ (after1 .quiesceDrained (quiescing .active 1000000)).start.writing = none ∧
    (after1 .quiesceDrained { quiescing .active 0 with tick := 10000000 }).start.skidDone = true := by decide +kernel
def writes (w : SkidWhy) : State := start (fun x => { x with writing := some (w, none) }) base
theorem test_image_written : ((after1 .skidImageWritten (writes .sag)).deck.skid.map (fun i => (i.stale, i.seq))) = some (true, 1) ∧ (after1 .skidImageWritten (writes .quiesce)).start.ready = true ∧ (let t := after1 .skidImageWritten (writes .warm); (t.start.cause, t.tick)) = (1, 0) ∧
    (after1 .configRecordWrite { base with mp := { base.mp with cfgDirty := true } }).deck.config.isSome = true ∧
    (let t := after1 .configRecordWrite { base with mp := { base.mp with cfgDirty := true } }; (t.deck.configSeq, t.deck.configOld)) = (1, none) := by decide +kernel

/-- These phases have ended. -/
def ended (l : List Phase) : State := { start (fun x => { x with done := l, phase := 1, loaded := false }) base with mp := { base.mp with run := 1 } }
def phased (p : Phase) (f : PhaseFault) (l : List Phase) : State := after (execStartUpPhaseEnd p f (ended l))
theorem test_phase_b : (phased .B { noFault 0 with fwBad := 2 } []).flt.grave = true ∧ logged (phased .B { noFault 0 with fwBad := 2 } []) = [(0x1601, 0x43, 0)] ∧ (let t := phased .B (noFault 0) []; (t.start.done, t.mp.run)) = ([.B], 0) := by decide +kernel
theorem test_phase_c : (let t := phased .C (noFault 0) [.B]; (t.start.done, t.deck.epoch)) = ([.B, .C], 1) := by decide +kernel
theorem test_phase_d : (let t := phased .D (noFault 100) [.B]; (t.pwr.idleA, t.pwr.pool, t.pwr.grants.length)) = (100, 540, 3) ∧ (phased .D { noFault 600 with vrmBad := true } [.B]).pwr.vrmDead = true ∧ (phased .D (noFault 600) [.B]).pwr.pool = 122 := by decide +kernel
theorem test_phase_e : (phased .E (noFault 0) [.B, .D]).lnd.init = 2 ∧ logged (phased .E { noFault 0 with stacksBad := [3] } [.B, .D]) = [(0x1503, 0x40, 3)] := by decide +kernel
def secImaged : State := let s := ended [.B, .C]; { s with deck := { s.deck with secImage := fallen.deck.secImage }, tru := { s.tru with wm := ⟨0, 1, 0, 0⟩ } }
theorem test_phase_f : (after1 (.startUpPhaseEnd .F { noFault 0 with imgBad := [257] }) secImaged).tru.secState = 3 := by decide +kernel
theorem test_phase_g : ((phased .G { noFault 0 with pesBad := [143] } [.B, .D]).pe 143).role = .retired ∧ ((phased .G { noFault 0 with codersBad := [63] } [.B, .D]).coder 63).retired = true ∧ ((phased .G { noFault 0 with slicesBad := [1023] } [.B, .D]).grp 63).slices = 0x7FFF ∧
    (phased .G (noFault 0) [.B, .D]).start.done = [.B, .D, .G] := by decide +kernel
theorem test_phase_h : (let t := phased .H (noFault 0) [.B, .C]; (t.start.loaded, t.tly.restore, t.tly.blank)) = (true, 2, true) ∧ logged (phased .H { noFault 0 with tlyBad := some true } [.B, .C]) = [(0x1601, 0x43, 0)] ∧ logged (phased .H { noFault 0 with tlyBad := some false } [.B, .C]) = [(0x1600, 0x42, 0)] := by decide +kernel
theorem test_phase_i : (phased .I (noFault 0) [.B, .C, .H]).deck.ckptA.isSome = true ∧ (phased .I (noFault 0) [.B, .C, .H]).deck.seq = 1 := by decide +kernel
theorem test_phase_j : link17 (after1 (.startUpPhaseEnd .J (noFault 0)) (linked { Link.init with cfg := { LinkCfg.init with enable := true } } (ended [.B, .C, .F, .H]))) = (.training, 0) := by decide +kernel
theorem test_phase_j_end : Runs (living .endState (ended [.B, .C, .F, .H])) .J ∧
    link17 (after1 (.startUpPhaseEnd .J (noFault 0)) (linked { Link.init with cfg := { LinkCfg.init with enable := true } } (living .endState (ended [.B, .C, .F, .H])))) = (.disabled, 0) := by
  refine ⟨?_, by decide +kernel⟩
  unfold Runs; decide +kernel
theorem test_phase_k : (let t := phased .K (noFault 0) [.B, .C, .D, .E, .F, .G, .H, .I, .J]; (t.start.phase, (t.port 0).answering, t.flt.aliveOn)) = (4, true, true) := by decide +kernel
theorem wit_phases : Runs (ended []) .B ∧ Runs (ended [.B]) .C ∧ Runs (ended [.B]) .D ∧ Runs (ended [.B, .D]) .E ∧ Runs (ended [.B, .C]) .F ∧ Runs (ended [.B, .D]) .G ∧ Runs (ended [.B, .C]) .H ∧ Runs (ended [.B, .C, .H]) .I ∧ Runs (ended [.B, .C, .F, .H]) .J ∧
    Runs (ended [.B, .C, .D, .E, .F, .G, .H, .I, .J]) .K := by
  refine ⟨?_, ?_, ?_, ?_, ?_, ?_, ?_, ?_, ?_, ?_⟩ <;> (unfold Runs; decide +kernel)
theorem wit_secure_start : secImaged.deck.secImage.isSome = true ∧ fallen.deck.patch = none ∧ fallen.deck.order = [] ∧ base.deck.config = none ∧ base.deck.lc ≠ .endState := by decide +kernel

def smb (o : W32) : State := flt (fun f => { f with smbPtr := o }) base
theorem test_smb : (after1 (.smbPointer 0x11240040 true) base).flt.smbPtr = 0x240040 ∧ (after1 (.smbPointer 0 false) base).out = [.smbus 0x10 []] ∧ (after1 (.smbRead true) (smb 0x240038)).out = [.smbus 0x11 (0 :: leBytes 0x64 8)] ∧
    (after1 (.smbRead true) (smb 0x300000)).out = [.smbus 0x11 (3 :: leBytes 0 8)] ∧ (after1 (.smbRead true) (smb 0xFFFFF8)).flt.smbPtr = 0 ∧ (after1 (.smbRead false) base).out = [.smbus 0x11 []] := by decide +kernel
theorem test_smb_write : (after1 (.smbWrite 0x80000000 true) { blazed with flt := { blazed.flt with smbPtr := 0x240040 } }).deck.blaze = none ∧ logged (after1 (.smbWrite 1 true) (smb 0x200000)) = [(0x1603, 0x02, 0x200000)] ∧ (after1 (.smbWrite 0 false) base).out = [.smbus 0x12 []] ∧
    after1 .smbusTimeout base = base := by decide +kernel
theorem test_alert : (after1 .alertResponse (flt (fun f => { f with outst := 2 }) base)).out.length = 1 ∧ (after1 .alertResponse (flt (fun f => { f with outst := 1 }) base)).out = [] ∧ (after1 .alertResponse blazed).out.length = blazed.out.length + 1 := by decide +kernel
theorem test_jtag_held : (after1 (.jtagInstruction .bypass) { base with start := { base.start with off := true, held := some 1 } }).out = [.jtag 0] := by decide +kernel
theorem test_jtag : (after1 (.jtagInstruction .bypass) base).out = [.jtag 0] ∧ (after1 (.jtagInstruction .idcode) base).out.length = 1 ∧ after1 (.jtagInstruction .boundary) (living .field base) = living .field base ∧
    after1 (.jtagInstruction .secureData) (living .service base) = living .service base := by decide +kernel

/-! ## Steps, invariants and the checks on commands -/

/-- A queue of two commands at the front of which stands the kick of the MP's watchdog. -/
def waitingTwo : State := { base with pending := [.mpWatchdogKick, .aliveToggle] }
theorem wit_inv : Memory.wf waitingTwo.bytes = true ∧ waitingTwo.pending.all Instr.wellFormed = true ∧ Memory.wf sleeping.bytes = true := by decide +kernel
theorem test_lifecycle_change : (after1 (.startUpPhaseEnd .C (noFault 0)) { ended [.B] with deck := { (ended [.B]).deck with lc := .provision, lcNext := some .field } }).deck.lc = .field ∧
    (after1 (.startUpPhaseEnd .C (noFault 0)) { ended [.B] with deck := { (ended [.B]).deck with fuse := true } }).deck.lc = .endState := by decide +kernel
theorem wit_notices : (2 ≤ (rep 0x1604 0x25 7).kind.toNat / 16) ∧ ((base.report (rep 0x1604 0x25 7)).fn 3).event = 8 ∧ ((base.report (rep 0x1604 0x25 7)).fn 4).event = 0 ∧ ((base.report (rep 0x1604 0x17 7)).fn 3).event = 0 := by decide +kernel
theorem test_step : after (step waitingTwo) = { base with pending := [.aliveToggle], mp := { base.mp with kick := 1000000 } } ∧ after (step base) = { base with tick := 1000001 } := by decide +kernel
theorem wit_table_word : State.reset.withFetchWord 8 0 = State.reset ∧ decodeTableWord 8 0 = none := by decide +kernel

def badFrame : Frame := ⟨1, 0, 5, 9, 3, 3, 5, 0, List.replicate 4097 0⟩
def badCells : HostIn := ⟨[(2 ^ 52, 1)], [], none⟩
def badPoison : HostIn := ⟨[], [65], none⟩
theorem test_long_frames_refused : (Instr.dataFrame 17 badFrame).wellFormed = false ∧ (Instr.ackFrame 17 badFrame).wellFormed = false ∧ (Instr.nakFrame 17 badFrame).wellFormed = false ∧ (Instr.creditFrame 17 badFrame).wellFormed = false ∧
    (Instr.idleFrame 17 badFrame).wellFormed = false ∧ (Instr.probeFrame 17 badFrame).wellFormed = false ∧ (Instr.queryFrame 17 badFrame).wellFormed = false := by decide +kernel
theorem test_far_cells_refused : (Instr.keyLoad 7 badCells).wellFormed = false ∧ (Instr.imageLoad 7 badCells).wellFormed = false ∧ (∀ k, (Instr.longOpComplete 0 badCells k).wellFormed = false) ∧ (Instr.cipherOperationEnd 0 badCells).wellFormed = false ∧
    (Instr.coderOperationEnd 0 badCells).wellFormed = false ∧ (∀ e k, (Instr.rqCh e k badCells).wellFormed = false) := ⟨rfl, rfl, fun _ => rfl, rfl, rfl, fun _ _ => rfl⟩
theorem test_bad_poison_refused : (Instr.keyLoad 7 badPoison).wellFormed = false ∧ (Instr.imageLoad 7 badPoison).wellFormed = false ∧ (Instr.cipherOperationEnd 0 badPoison).wellFormed = false ∧ (Instr.coderOperationEnd 0 badPoison).wellFormed = false ∧
    (∀ k, (Instr.longOpComplete 0 badPoison k).wellFormed = false) ∧ (∀ e k, (Instr.rqCh e k badPoison).wellFormed = false) := ⟨rfl, rfl, rfl, rfl, fun _ => rfl, fun _ _ => rfl⟩
theorem test_good_commands : (Instr.dataFrame 17 (fr 1 0 0 [1])).wellFormed = true ∧ (Instr.keyLoad 7 HostIn.empty).wellFormed = true ∧ (Instr.keyLoad 7 ⟨[(2 ^ 52 - 1, 1)], [64], none⟩).wellFormed = true := by decide +kernel

/-! ## Bytes on the links and in the Deck, the microcode, and what the statements of changed rules assume -/

/-- The data frame of the failover example (spec/05_channel_links.md, Table 5.19) with a payload of zeros. -/
def example5 : Frame := ⟨1, 1, 0x2C05, 5, 0x11, 0xA3, 0x3A704A3C, 1, List.replicate 4096 0⟩
theorem test_frame_header : (frameBytes example5 0).take 16 = [0x11, 0x01, 0x00, 0x10, 0x05, 0x2C, 0x05, 0x44, 0x18, 0x05, 0x3C, 0x4A, 0x70, 0x3A, 0x01, 0x00] := by decide +kernel
theorem test_frame_trailer : readFrame (frameBytes (fr 1 1 1 [7]) 0) = .frame (fr 1 1 1 [7]) ∧ readFrame (frameBytes (fr 1 1 1 [7]) 1) = .broken ∧
    readFrame (frameBytes (fr 1 0x80 1 [7]) 0) = .bad (some 3) ∧ readFrame (frameBytes (fr 2 0 1 [7]) 0) = .bad none := by decide +kernel
theorem wit_frames : frameAllowed (fr 1 1 1 []) = true ∧ frameAllowed (fr 1 0 1 []) = false ∧ frameAllowed (fr 2 0x40 1 []) = true ∧ frameAllowed (fr 3 0 0 (List.replicate 8 0)) = true ∧
    frameAllowed (fr 4 0 0 (List.replicate 8 0)) = true ∧ frameAllowed (fr 5 0 0 (List.replicate 16 0)) = true ∧ frameAllowed (fr 6 0 0 (probePl 5)) = true ∧ frameAllowed (fr 7 0 0 []) = true ∧
    frameAllowed (fr 7 4 0 (List.replicate 8 0)) = true ∧ frameAllowed (fr 10 0 0 []) = false ∧ (probing false false).live = true := by decide +kernel
theorem test_fec : (let t := after1 (.framingError 17 true (.fec 3 2)) (upState { upLink with cfg := { LinkCfg.init with fec := true } } .active); (cnt17 t 7, cnt17 t 8)) = (3, 2) ∧
    after1 (.framingError 17 true (.fec 3 2)) (upState { upLink with cfg := { LinkCfg.init with fec := false } } .active) = upState { upLink with cfg := { LinkCfg.init with fec := false } } .active := by decide +kernel
theorem test_old_frame : (after1 (.frameTransmit 17 true) { upState { upLink with ctrlQ := [⟨fr 8 0 0 [], 0⟩] } .active with tick := 100000000000 }).out = [] := by decide +kernel
/-- A full link: its transmit store holds 32,768 bytes of frames that wait. -/
def fullLink : State :=
  let s := asking 0x6D { eng0 with rqCh := some 0x1000000000 } 4096
  let t := (linked upLink (grouped s)).setEntry 5 { Entry.free 1 with state := .active, groupA := 9, reqMask := 1 }
  { t with ch := { t.ch with flows := [(20, { Flow.init with stored := List.replicate 8 ⟨{ fr 1 0 1 [] with payload := List.replicate 4076 0 }, 999000, true, 0⟩ })] } }
theorem wit_full_link : (fullLink.atStep 0).chFits ⟨0x00100005, 0x1000000000, 4096, 0, false, false⟩ = false ∧ ((fullLink.atStep 0).le 0).chQ = [] := by decide +kernel
theorem test_full_link : ((after (exec (.rqCh 0 true HostIn.empty) fullLink)).le 0).chQ.length = 1 ∧ (after (exec (.rqCh 0 true HostIn.empty) fullLink)).ch = fullLink.ch := by decide +kernel

/-- A note and a doubt window (R129, R137): TID, FUNC, kind; two 12-bit windows of 7 and 9. -/
theorem test_deck_bytes : Note.bytes ⟨0x00100005, 0x103, true, true, none, false⟩ = [5, 0, 0x10, 0, 3, 1, 1, 0] ∧ twelves 0x123 0xABC = [0x23, 0xC1, 0xAB] := by decide +kernel
theorem test_image_header : ((base.image .checkpoint false).header.take 8) = [0x56, 0x92, 0x11, 0x7A, 1, 0, 3, 1] := by decide +kernel

/-- E000 runs a DIVU whose microword at patch RAM's first address is w, over the nanoword 0x180; the handlers' entries are not VALID. -/
def miced (w n : Nat) : State :=
  let s := louing 1 7 0
  { s with eng := { s.eng with
      disp := s.eng.disp ++ [(0xF1, some 0), (0xF2, some 0), (0xF3, some 0), (0xF4, some 0)]
      ustore := if w = 0 then [] else [(0xC00, BitVec.ofNat 22 w)]
      nstore := if n = 0 then [] else [(0x180, BitVec.ofNat 104 n)] } }
def at0 (words : Nat) (stack : List (BitVec 12)) : MicroAt := ⟨0xC00, 0, 0, stack, words, []⟩
def mend (w n words : Nat) (stack : List (BitVec 12)) : State := after (exec (.longOpComplete 0 HostIn.empty (some (at0 words stack))) (miced w n))
-- Table 7.15: OP 0x01, MCAUSE, MPC 0xC00, NANO 0x180, depth, count, flags.
theorem test_micro_trap : ((mend 0x301C0 5 1 []).le 0).ports.lou0 = 0x0101C00C00000000 ∧ ((mend 0x301C0 5 1 []).le 0).ports.lou1 = 5 ∧ ((mend 0x301C0 5 1 []).le 0).bits.getLsbD 7 = true ∧
    (mend 0x301C0 5 1 []).flt.log.map (fun r => (r.source, r.kind, r.cls)) = [(0x1000, 0x07, 0)] := by decide +kernel
theorem test_micro_limits : ((mend 0x301C0 5 65536 []).le 0).ports.lou0 = 0x0103C00C00000000 ∧ ((mend 0x30140 0 1 []).le 0).ports.lou0 = 0x0104C00C00000000 ∧
    ((mend 0x30100 0 1 [1, 2, 3, 4]).le 0).ports.lou0 = 0x0104C00C04000000 ∧ ((mend 0x30000 (0x28 <<< 84) 1 []).le 0).ports.lou0 = 0x0102C00C00000000 := by decide +kernel
theorem test_micro_end : (((mend 0x30180 4 1 []).le 0).ports.lou0, ((mend 0x30180 4 1 []).le 0).ports.lou1, ((mend 0x30180 4 1 []).le 0).lou.isNone) = (0, 4, true) ∧
    ((mend 0x30180 0 1 []).le 0).ports = ((after (lend (louing 1 7 0))).le 0).ports := by decide +kernel
theorem wit_microcode : LongRuns (miced 0x301C0 5) 0 ⟨1, false, 7, 0, 0, 5, false, false⟩ ∧ (miced 0x301C0 5).codeRuns ⟨1, false, 7, 0, 0, 5, false, false⟩ = true ∧
    ((miced 0x301C0 5).le 0).longMayRead 0 ⟨1, false, 7, 0, 0, 5, false, false⟩ = true ∧ (miced 0x301C0 5).eng.dispValid 0xF1 = false ∧ (louing 1 7 0).eng.dispValid 1 = true ∧
    nanoOk ((miced 0x301C0 5).eng.nanoAt 0x180) = true ∧ nanoOk ((miced 0 (0x28 <<< 84)).eng.nanoAt 0x180) = false :=
  ⟨⟨by decide +kernel, by decide +kernel, by decide +kernel, by decide +kernel, by decide +kernel, by decide +kernel, by intro c t h; cases h⟩,
    by decide +kernel, by decide +kernel, by decide +kernel, by decide +kernel, by decide +kernel, by decide +kernel⟩

theorem wit_transport : base.on = true ∧ base.inService 0 = true ∧ (staged.pe 0).stage.find? (fun x => x.seq = 5 && x.queue = .ch) = some ⟨5, .ch, 1, 2, false, false⟩ ∧
    Sp.look staged.eng.lastSeq none (recvCode .ch) = none ∧ (base.pe 0).stage = [] ∧ base.engSec 0 = false := by decide +kernel
theorem test_stale_transport : let s : State := { staged with eng := { staged.eng with lastSeq := [(recvCode .ch, some 5)] } }
    ((after (exec (.transportAccept 0 .ch ⟨5, true⟩) s)).engCl 0).dupDrop = 1 ∧ (after (exec (.transportAccept 0 .gal ⟨6, true⟩) s)) = s := by decide +kernel

theorem wit_home_requests : (req1 (creq 2 .rdS) []).heldBack (creq 2 .rdS) = false ∧ (serving (txn0 (creq 3 .rdX)) (req1 (creq 2 .rdS) [])).heldBack (creq 2 .rdS) = false ∧
    (base.home hm).shared = 0 ∧ (base.home hm).entryFree 2 = true ∧ ({ Home.init with tickets := [2] } : Home).entryFree 2 = false := by decide +kernel
theorem test_ticketed : (let t := after1 (.rdS 2 0x4001) (serving (txn0 (creq 3 .rdX)) (req1 { creq 2 .rdS with retry := 3 } [])); (t.coh.reqs, (t.home hm).txns.map (fun y => (y.req.r, y.active, y.resv)))) =
    ([], [(3, true, false), (2, false, true)]) := by decide +kernel
/-- E003 waits for a load of a host sector at the home. -/
def hostLoad : State :=
  let s := serving { txn0 { creq 0 .rdS with engine := some 3 } with hostWait := true } base
  { s with eng := { s.eng with les := [(3, { eng0 with flight := [⟨0, .lsu, 0, 0, 0, some (0x100040, 8)⟩] })] } }
theorem test_home_timeout_engine : ((after1 (.homeTimeout 0x4001) hostLoad).le 3).flight.map (fun g => (g.wait, g.bits.getLsbD 9, g.mask.getLsbD 9)) = [(none, true, true)] := by decide +kernel
def cleanL2 : State := { serving { txn0 (creq 16 .rdNc) with snps := [⟨5, 3, 0, false, false⟩] } (l2With [(5, .S)] base) with bytes := [(0x100040, 9)] }
theorem test_home_timeout_clean : (after1 (.homeTimeout 0x4001) cleanL2).flt.log.map (fun r => (r.source.toNat, r.kind)) = [(0x1300 + hm, 0x17)] ∧ (after1 (.homeTimeout 0x4001) cleanL2).out = [.memData 0 0x100040 9 false] := by decide +kernel
theorem wit_host_copy : OneWay hostCopy 5 0x200000040 ∧ (∀ x ∈ hostCopy.hostCopies 0x5000, x = (5, 0x200000040)) ∧ (hostCopy.home (homeOf 0x200000040)).entryFree 16 = true := by
  refine ⟨?_, by decide +kernel, by decide +kernel⟩
  intro w w' b b' hw hw' h1 h2 _ _
  have e : (hostCopy.memCl 5).l2 = [(16 * (0x100000020 % 2048), some ⟨0x100000020, { L2Sec.init with st := .S, hpa := 0x5000 }, L2Sec.init, 0⟩)] := by decide +kernel
  rw [e] at h1 h2
  simp only [Sp.look] at h1 h2
  split at h1
  · split at h2
    · omega
    · cases h2
  · cases h1
theorem wit_banks : (banked 2).bankWanted 0 0 = false ∧ sleeping.bankWanted 0 0 = true ∧ sleeping.eng.les.map (·.1) = [0] ∧ (sleeping.le 0).stores = [] ∧ sleeping.ecc = [] ∧ sleeping.poison = [] := by decide +kernel
theorem test_bank_waits : after1 (.bankStateComplete 0 0) { sleeping with mem := [(0, { MemCl.init with bank := [(0, 1)], bankWait := [(0, 2, 7)] })] } =
    { sleeping with mem := [(0, { MemCl.init with bank := [(0, 1)], bankWait := [(0, 2, 7)] })] } := by decide +kernel
theorem wit_key_event : (engKey.le 0).evBy.length < 16 ∧ (engKey.le 0).evWait = [] ∧ (engKey.slot (storeIndex (svc 0 16))).bad = 0 ∧ (∀ e ∈ List.range 128, (engKey.le e).cphQ = []) := by decide +kernel
/-- An engine's sealed operation in cipher group 2. -/
def engSeal : RunOp := op1 { svc 0 16 with engine := some 3 }
theorem wit_engine_seal : Clean (running true engSeal) HostIn.empty engSeal.req 0 engSeal.req.src 16 ∧ Clean (running true engSeal) HostIn.empty engSeal.req 0 0 0 ∧ ((running true engSeal).grp 2).run = some engSeal :=
  ⟨⟨by decide +kernel, by decide +kernel⟩, ⟨by decide +kernel, by decide +kernel⟩, by decide +kernel⟩

/-- The MP was writing the image of command 7 when it stopped. -/
def midLoad : State := { loading img2 with qm := { base.qm with cmds := [{ cmdOf 0 (pk 0x40 []) with stage := .running }] }, tick := 10000000 }
theorem test_load_stopped : said (exec .mpWatchdogExpiry midLoad) 0 = (said (exec .mpWatchdogExpiry midLoad) 0).map (fun x => (1, x.2.1, x.2.2.1, 0)) ∧ (said (exec .mpWatchdogExpiry midLoad) 0).isSome = true ∧
    (after1 .mpWatchdogExpiry midLoad).mp.load = none := by decide +kernel
/-- Neither port has a reference clock. -/
def unclocked (s : State) : State := { s with ports := s.ports.map (fun p => (p.1, { p.2 with refclk := false })) }
theorem test_held_reset : (let t := after1 .skidImageWritten (unclocked (writes .warm)); (t.start.off, t.start.held, t.start.cause)) = (true, some 1, 1) ∧
    (let t := after1 .powerOnReset { after1 .skidImageWritten (unclocked (writes .warm)) with ports := base.ports }; (t.start.off, t.start.held, t.start.cause)) = (false, none, 1) := by decide +kernel
theorem test_clocks_lost : (let t := after1 (.sagStopNvCrossing 500) (unclocked base); (t.start.skidDone, t.pwr.stop, t.tly.stopped)) = (true, true, true) := by decide +kernel
theorem wit_phases_stop : ¬ Runs { ended [.B] with pwr := { base.pwr with stop := true } } .C ∧ Runs { ended [.B] with pwr := { base.pwr with stop := true } } .D := by
  constructor <;> (unfold Runs; decide +kernel)
end Sys2Proof.Tests
end

section
/-! PROOFS. The ALU rows (R214-R216, Table 6.3): what each unit result is as a result in flight, and the step that launches it. -/

open Sys2Proof Sys2Proof.Machine

namespace Sys2Proof.Machine

theorem sgn64_toNat (v : W64) : sgn64 v.toNat = v.toInt := by
  rw [sgn64, BitVec.toInt_eq_toNat_cond]
  split <;> split <;> omega

theorem bitsOf_eq (v lo n : Nat) : bitsOf v lo n = v / 2 ^ lo % 2 ^ n := by rw [bitsOf, Nat.shiftRight_eq_div_pow]

theorem bitsOf_one (v lo : Nat) : bitsOf v lo 1 = (v.testBit lo).toNat := by
  rw [bitsOf_eq, Nat.toNat_testBit, pow_one]

theorem bitsOf_toNat_one {w : Nat} (v : BitVec w) (lo : Nat) : decide (bitsOf v.toNat lo 1 = 1) = v.getLsbD lo := by
  rw [bitsOf_one, BitVec.testBit_toNat]
  cases v.getLsbD lo <;> rfl

theorem toNat_and_63 (v : W64) : (v &&& 63).toNat = v.toNat % 64 := by
  rw [BitVec.toNat_and]
  exact Nat.and_two_pow_sub_one_eq_mod v.toNat 6

/-- The engine with one more result in flight. -/
def Eng.flown (x : Eng) (o : InFlight) : Eng := { x with flight := x.flight ++ [o] }

/-- A move to an operand or a pipeline sends nothing to a receiving queue. -/
theorem transports_of_unit (x : Eng) {w : Nat} (v : W64) (hevq : fromEvq w = false) (hd : dstOf w < 0x30) : x.transports w v = [] := by
  have hload : isLoad w = false := by simp [isLoad]; omega
  have hstore : isStore w = false := by simp [isStore]; omega
  have hgo : isGo w = false := by simp [isGo]; omega
  have hqueue : dstOf w ≠ 0x6D ∧ dstOf w ≠ 0x6E ∧ dstOf w ≠ 0x6F ∧ dstOf w ≠ 0x70 := by omega
  simp [Eng.transports, hevq, hload, hstore, hgo, hqueue]

/-- No FP trap is waited for after a trigger of an integer unit. -/
theorem fpHolds_of_int (x : Eng) {w : Nat} (v : W64) (hd : dstOf w < 0x25) : x.fpHolds w v = false := by
  have hfp : isFp w = false := by simp [isFp]; omega
  have hgo : isGo w = false := by simp [isGo]; omega
  simp [Eng.fpHolds, hfp, hgo]

end Sys2Proof.Machine

namespace Sys2Proof.Cert

/-- The result of an ALU row on its way to the ALU's port. -/
def aluFlight (o : UnitOut) : InFlight := ⟨1, .alu, o.val, BitVec.ofNat 32 o.mask, BitVec.ofNat 32 o.bits, none⟩

theorem aluFlags_toNat (carry ovf : Bool) (v : W64) : BitVec.ofNat 32 (aluFlags carry ovf v.toNat) = flags4 carry ovf v := by
  have hz : decide (v.toNat = 0) = decide (v = 0) := by simp [BitVec.toNat_eq]
  have hn : bitsOf v.toNat 63 1 = b2n v.msb := by
    rw [bitsOf_one, BitVec.testBit_toNat, ← BitVec.msb_eq_getLsbD_last]; cases v.msb <;> rfl
  rw [aluFlags, flags4, hz, hn]
  by_cases h : v = 0
  · subst h; cases carry <;> cases ovf <;> rfl
  · simp only [h, decide_false, if_false]
    cases carry <;> cases ovf <;> cases v.msb <;> rfl

theorem aluFlight_aluOut (carry ovf : Bool) (n : Nat) : aluFlight (aluOut carry ovf n) = aluFlagged (BitVec.ofNat 64 n) carry ovf := by
  have h := aluFlags_toNat carry ovf (BitVec.ofNat 64 n)
  rw [BitVec.toNat_ofNat] at h
  simp only [aluFlight, aluOut, aluFlagged, h]
  rfl

theorem aluFlight_plainOut {p q : Prop} [Decidable p] [Decidable q] (h : p ↔ q) : aluFlight (plainOut (b2n p)) = aluPlain (if q then 1 else 0) := by
  by_cases hq : q <;> simp only [h, hq, decide_true, decide_false, if_true, if_false] <;> rfl

theorem aluFlight_add (a t : W64) (c : Bool) : aluFlight (aluAddC a.toNat t.toNat (b2n c)) =
    aluFlagged (a + t + BitVec.ofNat 64 (one c)) (2 ^ 64 ≤ a.toNat + t.toNat + one c) (overflows (a.toInt + t.toInt + one c)) := by
  have hv : BitVec.ofNat 64 (a.toNat + t.toNat + b2n c) = a + t + BitVec.ofNat 64 (one c) := by
    rw [BitVec.ofNat_add, BitVec.ofNat_add, BitVec.ofNat_toNat, BitVec.ofNat_toNat]; simp [one, b2n]
  rw [aluAddC, aluFlight_aluOut, hv, sgn64_toNat, sgn64_toNat]
  rfl

theorem aluFlight_sub (a t : W64) (c : Bool) : aluFlight (aluSubB a.toNat t.toNat (b2n c)) =
    aluFlagged (a - t - BitVec.ofNat 64 (one c)) (a.toNat < t.toNat + one c) (overflows (a.toInt - t.toInt - one c)) := by
  have hv : BitVec.ofNat 64 (a.toNat + 2 ^ 64 + 2 ^ 64 - t.toNat - b2n c) = a - t - BitVec.ofNat 64 (one c) := by
    apply BitVec.eq_of_toNat_eq
    have hc : one c = b2n c := rfl
    have hb : b2n c ≤ 1 := by cases c <;> decide
    simp only [BitVec.toNat_sub, BitVec.toNat_ofNat, hc]
    omega
  rw [aluSubB, aluFlight_aluOut, hv, sgn64_toNat, sgn64_toNat]
  rfl

theorem aluFlight_add_zero (a t : W64) : aluFlight (aluAddC a.toNat t.toNat 0) =
    aluFlagged (a + t) (2 ^ 64 ≤ a.toNat + t.toNat) (overflows (a.toInt + t.toInt)) := by
  simpa [one, b2n] using aluFlight_add a t false

theorem aluFlight_sub_zero (a t : W64) : aluFlight (aluSubB a.toNat t.toNat 0) =
    aluFlagged (a - t) (a.toNat < t.toNat) (overflows (a.toInt - t.toInt)) := by
  simpa [one, b2n] using aluFlight_sub a t false

theorem aluFlight_bits (v : W64) : aluFlight (aluOut false false v.toNat) = aluFlagged v false false := by
  rw [aluFlight_aluOut, BitVec.ofNat_toNat, BitVec.setWidth_eq]

theorem aluFlight_shl (a : W64) (n : Nat) : aluFlight (aluShl a.toNat n) = aluFlagged (a <<< n) (n ≠ 0 && a.getLsbD (64 - n)) false := by
  have hv : BitVec.ofNat 64 (a.toNat * 2 ^ n % 2 ^ 64) = a <<< n := by
    apply BitVec.eq_of_toNat_eq
    rw [BitVec.toNat_ofNat, BitVec.toNat_shiftLeft, Nat.shiftLeft_eq, Nat.mod_mod]
  rw [aluShl, aluFlight_aluOut, hv, bitsOf_toNat_one]

theorem toNat_sshiftRight_of_msb {a : W64} {n : Nat} (hn : n < 64) (hm : a.msb = true) :
    (a.sshiftRight n).toNat = a.toNat / 2 ^ n + (2 ^ 64 - 2 ^ (64 - n)) := by
  have hp : 2 ^ n * 2 ^ (64 - n) = 2 ^ 64 := by rw [← Nat.pow_add]; congr 1; omega
  have ha : a.toNat < 2 ^ n * 2 ^ (64 - n) := by rw [hp]; exact a.isLt
  have hd := Nat.mul_sub_div a.toNat (2 ^ n) (2 ^ (64 - n)) ha
  have hq : a.toNat / 2 ^ n < 2 ^ (64 - n) := Nat.div_lt_of_lt_mul ha
  have hle : 2 ^ (64 - n) ≤ 2 ^ 64 := Nat.pow_le_pow_right (by decide) (by omega)
  rw [hp] at hd
  have hs : 2 ^ 64 - 1 - a.toNat = 2 ^ 64 - (a.toNat + 1) := by omega
  rw [BitVec.sshiftRight_eq_of_msb_true hm, BitVec.toNat_not, BitVec.toNat_ushiftRight, BitVec.toNat_not, Nat.shiftRight_eq_div_pow, hs, hd]
  generalize a.toNat / 2 ^ n = q at *
  omega

theorem aluFlight_shr (a : W64) (n : Nat) : aluFlight (aluShr false a.toNat n) = aluFlagged (a >>> n) (n ≠ 0 && a.getLsbD (n - 1)) false := by
  have hv : BitVec.ofNat 64 (a.toNat / 2 ^ n) = a >>> n := by
    rw [← Nat.shiftRight_eq_div_pow, ← BitVec.toNat_ushiftRight, BitVec.ofNat_toNat, BitVec.setWidth_eq]
  simp only [aluShr, Bool.false_and, Bool.false_eq_true, if_false, Nat.add_zero]
  rw [aluFlight_aluOut, hv, bitsOf_toNat_one]

theorem aluFlight_sar (a : W64) {n : Nat} (hn : n < 64) :
    aluFlight (aluShr true a.toNat n) = aluFlagged (a.sshiftRight n) (n ≠ 0 && a.getLsbD (n - 1)) false := by
  cases hm : a.msb
  case false =>
    have hs : (true && decide (bitsOf a.toNat 63 1 = 1)) = false := by rw [bitsOf_toNat_one, ← BitVec.msb_eq_getLsbD_last a, hm]; rfl
    rw [BitVec.sshiftRight_eq_of_msb_false hm, ← aluFlight_shr]
    simp only [aluShr, hs, Bool.false_and]
  case true =>
    have hs : (true && decide (bitsOf a.toNat 63 1 = 1)) = true := by rw [bitsOf_toNat_one, ← BitVec.msb_eq_getLsbD_last a, hm]; rfl
    simp only [aluShr, hs, if_true]
    rw [aluFlight_aluOut, bitsOf_toNat_one, ← toNat_sshiftRight_of_msb hn hm, BitVec.ofNat_toNat, BitVec.setWidth_eq]

theorem toNat_rotateLeft_of_lt (a : W64) {n : Nat} (hn : n < 64) :
    (a.rotateLeft n).toNat = a.toNat * 2 ^ n % 2 ^ 64 + a.toNat / 2 ^ (64 - n) := by
  have hp : 2 ^ 64 = 2 ^ (64 - n) * 2 ^ n := by rw [← Nat.pow_add]; congr 1; omega
  have hq : a.toNat / 2 ^ (64 - n) < 2 ^ n := Nat.div_lt_of_lt_mul (hp ▸ a.isLt)
  have hm : a.toNat * 2 ^ n % 2 ^ 64 = 2 ^ n * (a.toNat % 2 ^ (64 - n)) := by rw [hp, Nat.mul_mod_mul_right, Nat.mul_comm]
  rw [BitVec.toNat_rotateLeft, Nat.mod_eq_of_lt hn, Nat.shiftLeft_eq, Nat.shiftRight_eq_div_pow, hm, Nat.two_pow_add_eq_or_of_lt hq]

theorem aluFlight_rol (a : W64) {n : Nat} (hn : n < 64) :
    aluFlight (aluRol a.toNat n) = aluFlagged (a.rotateLeft n) (n ≠ 0 && (a.rotateLeft n).getLsbD 0) false := by
  have hodd : decide ((a.rotateLeft n).toNat % 2 = 1) = (a.rotateLeft n).getLsbD 0 := by
    rw [← BitVec.testBit_toNat, Nat.testBit_zero]
  simp only [aluRol]
  rw [← toNat_rotateLeft_of_lt a hn, aluFlight_aluOut, BitVec.ofNat_toNat, BitVec.setWidth_eq, hodd]

theorem flown_stepped (x : Eng) (o : InFlight) : (({ x with freeze := none } : Eng).flown o).stepped x.mustEntry false =
    { launch x o with steps := x.steps + 1, stepSeq := x.stepSeq + 1 } := by
  simp only [Eng.stepped, Eng.flown, launch, Bool.and_not_self]

/-- What a row of the ALU puts in flight: the unit's result for its port, with the operand latch and CARRY as they stand at the step (Table 6.3). -/
theorem aluRow_gives {s : State} {e : LeId} {d : Nat} {v : W64} {c : Instr} {o : InFlight} (h : Moves s e d v) (hd : 0x10 < d ∧ d < 0x20)
    (hc : exec c s = .next (s.stepRow e.val true (onPort d)))
    (ho : aluFlight (aluOp d ((s.atStep e.val).le e.val).lat.aluA v (((s.atStep e.val).le e.val).bits.getLsbD 0)) = o) : Gives s e c o := by
  obtain ⟨⟨w, hx, hw, hsrc⟩, hret⟩ := h
  obtain ⟨hbar, hdone⟩ := mayStep_parts hx.may
  have hctl : isCtl w = false := by simp [isCtl, hw]; omega
  have hevq : fromEvq w = false := by simp [fromEvq, hsrc]
  have hrep : w ≠ 0x3FD0 := by rintro rfl; exact absurd hctl (by decide)
  have hword := hx.word
  have hval := hx.value
  refine ⟨(s.atStep e.val).doStep e.val false, by rw [hc, stepRow_executes hx _ (by simp [onPort, hctl, hevq, hw])], ?_⟩
  generalize s.atStep e.val = r at *
  have hmove : (r.begun e.val).moveTo e.val w v false = ((r.begun e.val).updLe e.val (·.flown o), ⟨none, none, false⟩) := by
    have hplain : plainDst d = false := by simp [plainDst]; omega
    have hlat : latency d = 1 ∧ portOf d = .alu := by simp [latency, portOf, hd.2]
    simp only [State.moveTo, hw, hplain, hd.2, Bool.false_eq_true, if_false, if_true, State.trigger, hlat, begun_le]
    rw [← ho]
    rfl
  obtain ⟨horder, hengine, hothers, houtside, hwords⟩ := doStep_local r e.val (·.flown o) none hret (by rw [hword]; exact hevq)
    (by rw [hword]; exact transports_of_unit _ _ hevq (by omega)) (by rw [hword]; exact fpHolds_of_int _ _ (by omega))
    (by rw [hword, hctl, hval]; exact hmove) (fun x => ⟨rfl, rfl, rfl, rfl, rfl, rfl, rfl, rfl, rfl, rfl, rfl⟩) hbar hdone
  rw [hword] at horder hengine
  have hlen : unitLen w = 1 := if_neg hrep
  rw [hlen] at horder
  rw [hctl, Bool.false_and, flown_stepped] at hengine
  exact ⟨horder, hengine, hothers, houtside, hwords⟩

/-- Settles O7: a row of the ALU launches its unit's result (`aluRow_gives`), and that result is the one of Table 6.3 (`aluFlight_plainOut` to `aluFlight_rol`). -/
theorem aluResults : Obligations.AluResults := by
  intro s e v
  dsimp only
  rw [toNat_and_63]
  generalize ha : ((s.atStep e.val).le e.val).lat.aluA = a
  generalize hc : ((s.atStep e.val).le e.val).bits.getLsbD 0 = c
  have hn : v.toNat % 64 < 64 := Nat.mod_lt _ (by decide)
  have row : ∀ {d : Nat} {i : Instr} {o : InFlight}, Moves s e d v → 0x10 < d ∧ d < 0x20 → exec i s = .next (s.stepRow e.val true (onPort d)) →
      aluFlight (aluOp d a v c) = o → Gives s e i o := by
    rintro d i o h hd hi rfl
    exact ha ▸ hc ▸ aluRow_gives h hd hi rfl
  have hlt : sgn64 a.toNat < sgn64 v.toNat ↔ a.toInt < v.toInt := by rw [sgn64_toNat, sgn64_toNat]
  exact ⟨fun h => row h (by decide) rfl (aluFlight_add_zero a v),
    fun h => row h (by decide) rfl (aluFlight_sub_zero a v),
    fun h => row h (by decide) rfl (aluFlight_bits (a &&& v)),
    fun h => row h (by decide) rfl (aluFlight_bits (a ||| v)),
    fun h => row h (by decide) rfl (aluFlight_bits (a ^^^ v)),
    fun h => row h (by decide) rfl (aluFlight_bits (a &&& ~~~v)),
    fun h => row h (by decide) rfl (aluFlight_shl a _),
    fun h => row h (by decide) rfl (aluFlight_shr a _),
    fun h => row h (by decide) rfl (aluFlight_sar a hn),
    fun h => row h (by decide) rfl (aluFlight_rol a hn),
    fun h => row h (by decide) rfl (aluFlight_plainOut BitVec.toNat_eq.symm),
    fun h => row h (by decide) rfl (aluFlight_plainOut hlt),
    fun h => row h (by decide) rfl (aluFlight_plainOut Iff.rfl),
    fun h => row h (by decide) rfl (aluFlight_add a v c),
    fun h => row h (by decide) rfl (aluFlight_sub a v c)⟩

end Sys2Proof.Cert
end

section
/-! PROOFS. DIVU and DIVS (R217): truncation toward zero, and the end of a long operation that needs nothing but its operands (R226, R229). -/

open Sys2Proof Sys2Proof.Machine

namespace Sys2Proof.Machine

theorem decide_ofNat_neg (n : Nat) : decide (Int.ofNat n < 0) = false := decide_eq_false (Int.not_lt.2 (Int.natCast_nonneg n))
theorem decide_negSucc_neg (n : Nat) : decide (Int.negSucc n < 0) = true := decide_eq_true (Int.negSucc_lt_zero n)

/-- Truncation toward zero: the quotient of the magnitudes, with the sign that the two signs give. -/
theorem tdiv_eq_natAbs (x y : Int) :
    x.tdiv y = if decide (x < 0) == decide (y < 0) then ((x.natAbs / y.natAbs : Nat) : Int) else -((x.natAbs / y.natAbs : Nat) : Int) := by
  cases x <;> cases y <;> simp only [decide_ofNat_neg, decide_negSucc_neg] <;> rfl

/-- The remainder of a truncated division has the dividend's sign. -/
theorem tmod_eq_natAbs (x y : Int) :
    x.tmod y = if x < 0 then -((x.natAbs % y.natAbs : Nat) : Int) else ((x.natAbs % y.natAbs : Nat) : Int) := by
  cases x with
  | ofNat m => rw [if_neg (of_decide_eq_false (decide_ofNat_neg m))]; cases y <;> rfl
  | negSucc m => rw [if_pos (Int.negSucc_lt_zero m)]; cases y <;> rfl

theorem divs_of_ne_zero {a b : W64} (h : b ≠ 0) : divs a b = (BitVec.ofInt 64 (a.toInt.tdiv b.toInt), BitVec.ofInt 64 (a.toInt.tmod b.toInt)) := by
  simp only [divs, h, if_false, sgn64_toNat, tdiv_eq_natAbs, tmod_eq_natAbs]

theorem divs_zero (a : W64) : divs a 0 = (BitVec.allOnes 64, a) := rfl

theorem putBit_bit (x : Eng) {i j : Nat} (v : Bool) (hi : i < 4096) : (x.putBit i v).bits.getLsbD j = if j = i then v else x.bits.getLsbD j := by
  have hbit : (BitVec.ofNat 4096 (1 <<< i)).getLsbD j = decide (j = i) := by
    rw [BitVec.getLsbD_ofNat, Nat.one_shiftLeft, Nat.testBit_two_pow]
    by_cases h : j = i
    · simp [h, hi]
    · simp [h, Ne.symm h]
  have hin : x.bits.getLsbD j = true → j < 4096 := BitVec.lt_of_getLsbD
  unfold Eng.putBit
  cases v with
  | false =>
    simp only [Bool.false_eq_true, if_false, BitVec.getLsbD_and, BitVec.getLsbD_not, hbit]
    by_cases h : j = i
    · simp [h]
    · simpa [h] using hin
  | true =>
    simp only [if_true, BitVec.getLsbD_or, hbit]
    by_cases h : j = i <;> simp [h]

/-- An operation that sets no sticky flag: LFAIL shows its outcome, LDONE is set, no other bit changes (R226, R229). -/
theorem longDone_bits (x : Eng) (r : LongOut) (h : r.sets = 0) (j : Nat) :
    (x.longDone r).bits.getLsbD j = if j = 5 then true else if j = 7 then decide (r.outcome ≠ 0) else x.bits.getLsbD j := by
  rw [Eng.longDone, putBit_bit _ _ (by decide), putBit_bit _ _ (by decide), Eng.unitBits, if_pos h]

/-- The end of an operation writes LOU.OUT0, LOU.OUT1 and bits, and leaves the program's registers, operands and events alone (R226, R229). -/
theorem longDone_frame (x : Eng) (r : LongOut) (draw : Nat) : let y := (x.longDone r).microLeft draw
    y.lou = none ∧ y.ports = { x.ports with lou0 := r.out0, lou1 := r.out1 } ∧ y.g = x.g ∧ y.pc = x.pc ∧ y.steps = x.steps ∧ y.lat = x.lat ∧ y.evq = x.evq := by
  simp only [Eng.microLeft, Eng.longDone, Eng.putBit, Eng.unitBits]
  split <;> simp only [and_self]

/-- An operation of the program itself that no FP trigger waits for ends in its engine alone. -/
theorem longEnds_shown (s : State) (e : Nat) {o : LongOp} (r : LongOut) (hshown : o.hidden = false) (hheld : o.held = false) :
    s.longEnds e o r = s.updLe e (·.longDone r) := by
  simp [State.longEnds, hshown, hheld]

end Sys2Proof.Machine

namespace Sys2Proof.Cert

/-- LONG_OP_COMPLETE of an operation whose result needs nothing but its operands. -/
theorem longOpComplete_of_result {s : State} {e : LeId} {o : LongOp} {host : HostIn} {r : LongOut} (h : LongRuns s e o)
    (hread : (s.le e.val).longMayRead (e.val / 8) o = true) (hheld : o.held = false) (hr : s.longResult host e.val o = (s, r)) :
    exec (.longOpComplete e host none) s =
      .next ((s.updLe e.val (·.longDone r)).updLe e.val (fun x => x.microLeft s.fresh)).drawn := by
  obtain ⟨hlive, hservice, hrunning, hop, hshown, hstore, hfree⟩ := h
  have hlou : (s.le e.val).louRuns = true := by
    unfold Eng.louRuns
    cases hf : (s.le e.val).freeze with
    | none => rfl
    | some f => obtain ⟨c, t⟩ := f; simpa using hfree c t hf
  change execLongOpComplete e host none s = _
  simp [execLongOpComplete, State.when, hlive, hservice, hrunning, hstore, hop, hlou, hread, hr, longEnds_shown _ _ _ hshown hheld]

theorem longEnds_of_result {s : State} {e : LeId} {o : LongOp} {host : HostIn} {o0 o1 : W64} (h : LongRuns s e o)
    (hread : (s.le e.val).longMayRead (e.val / 8) o = true) (hheld : o.held = false) (hr : s.longResult host e.val o = (s, ⟨0, o0, o1, 0⟩)) :
    LongEnds s e host o0 o1 false 0 := by
  refine ⟨_, longOpComplete_of_result h hread hheld hr, ?_⟩
  have hle : ∀ (t : State) (k : Nat), t.drawn.le k = t.le k := fun _ _ => rfl
  have hbytes : ∀ t : State, t.drawn.bytes = t.bytes := fun _ => rfl
  dsimp only
  rw [hle, State.updLe_le, State.updLe_le, hbytes, State.updLe_bytes, State.updLe_bytes]
  obtain ⟨hlou, hports, hg, hpc, hsteps, hlat, hevq⟩ := longDone_frame (s.le e.val) ⟨0, o0, o1, 0⟩ s.fresh
  have hbits : ∀ j, (((s.le e.val).longDone ⟨0, o0, o1, 0⟩).microLeft s.fresh).bits.getLsbD j = _ := longDone_bits (s.le e.val) ⟨0, o0, o1, 0⟩ rfl
  refine ⟨hlou, hports, ?_, ?_, fun i h5 h7 => ?_, hg, hpc, hsteps, hlat, hevq, rfl⟩
  · rw [hbits]; rfl
  · rw [hbits]; rfl
  · rw [hbits, if_neg h5, if_neg h7, show (0 : W32).getLsbD i = false from BitVec.getLsbD_zero, Bool.or_false]

/-- Neither division reads memory, and no FP trigger waits for it. -/
theorem division_reads_nothing {o : LongOp} (x : Eng) (c : Nat) (h : o.code = 1 ∨ o.code = 2) : x.longMayRead c o = true ∧ o.held = false := by
  rcases h with h | h <;> simp [Eng.longMayRead, LongOp.held, fpCode, h]

/-- Settles O17: a division ends with the pair its unit computes (`longEnds_of_result`), and the signed unit's pair is truncation toward zero (`divs_of_ne_zero`). -/
theorem divisionResults : Obligations.DivisionResults := by
  intro s e o host h hruns
  have ends : ∀ {o0 o1 : W64}, (o.code = 1 ∨ o.code = 2) → s.longResult host e.val o = (s, ⟨0, o0, o1, 0⟩) → LongEnds s e host o0 o1 false 0 := by
    intro o0 o1 hc hr
    obtain ⟨hread, hheld⟩ := division_reads_nothing (s.le e.val) (e.val / 8) hc
    exact longEnds_of_result h hread hheld hr
  constructor
  · intro hc
    have hr : s.longResult host e.val o = (s, ⟨0, (divu o.a o.b).1, (divu o.a o.b).2, 0⟩) := by simp [State.longResult, hruns, hc]
    split
    · next hb => exact ends (.inl hc) (by rw [hr, hb]; rfl)
    · next hb => exact ends (.inl hc) (by rw [hr, divu, if_neg hb])
  · intro hc
    have hr : s.longResult host e.val o = (s, ⟨0, (divs o.a o.b).1, (divs o.a o.b).2, 0⟩) := by simp [State.longResult, hruns, hc]
    split
    · next hb => exact ends (.inr hc) (by rw [hr, hb]; rfl)
    · next hb => exact ends (.inr hc) (by rw [hr, divs_of_ne_zero hb])

end Sys2Proof.Cert
end

section
/-! PROOFS. The NaN rule (R220): reading an encoding, what rounding can give, and the operations and conversions case by case. -/

open Sys2Proof Sys2Proof.Machine

namespace Sys2Proof.Machine

/-! ## Lengths and rounded bits -/

theorem lt_two_pow_bitLenN {n k v : Nat} (hk : k ≤ n) (h : v < 2 ^ k) : v < 2 ^ bitLenN n v := by
  induction n generalizing k v with
  | zero => rwa [Nat.le_zero.1 hk] at h
  | succ n ih =>
    rw [bitLenN]
    split
    · omega
    · cases k with
      | zero => omega
      | succ k =>
        have hv : v / 2 < 2 ^ bitLenN n (v / 2) := ih (Nat.le_of_succ_le_succ hk) (by rw [pow_succ] at h; omega)
        rw [pow_add]
        omega

theorem lt_two_pow_bitLen {k v : Nat} (hk : k ≤ 4300) (h : v < 2 ^ k) : v < 2 ^ bitLen v := lt_two_pow_bitLenN hk h

theorem roundBits_le (rm : Nat) (s : Bool) (m n : Nat) (more : Bool) : (roundBits rm s m n more).1 ≤ m / 2 ^ n + 1 := by
  have h (c : Bool) (q : Nat) : (if c then q + 1 else q) ≤ q + 1 := by split <;> omega
  exact h _ _

/-- A number of l bits brought to p bits by appending or dropping low bits. -/
theorem scaled_lt {m l : Nat} (p : Nat) (h : m < 2 ^ l) : m * 2 ^ (p - l) / 2 ^ (l - p) < 2 ^ p := by
  rcases Nat.le_total p l with hp | hp
  · rw [Nat.sub_eq_zero_of_le hp, pow_zero, Nat.mul_one, Nat.div_lt_iff_lt_mul (Nat.two_pow_pos _), ← pow_add, Nat.add_sub_cancel' hp]
    exact h
  · rw [Nat.sub_eq_zero_of_le hp, pow_zero, Nat.div_one]
    calc m * 2 ^ (p - l) < 2 ^ l * 2 ^ (p - l) := Nat.mul_lt_mul_of_pos_right h (Nat.two_pow_pos _)
      _ = 2 ^ p := by rw [← pow_add, Nat.add_sub_cancel' hp]

theorem rootN_lt (k v n r : Nat) : rootN k v n r < r + 2 ^ n := by
  induction n generalizing r with
  | zero => simp [rootN]
  | succ n ih =>
    have h := ih (if (r + 2 ^ n) ^ k ≤ v then r + 2 ^ n else r)
    rw [rootN, pow_succ]
    refine h.trans_le ?_
    split <;> omega

/-! ## Values an operand or a result can have -/

/-- A finite value is small enough that no operation of the units leaves the range in which `bitLen` counts. -/
def FpVal.Small : FpVal → Prop
  | .fin _ m e => m < 2 ^ 53 ∧ -1100 ≤ e ∧ e ≤ 1100
  | _ => True

theorem FpVal.Small.neg {v : FpVal} (h : v.Small) : v.neg.Small := by cases v <;> exact h

theorem FpVal.isNan_neg (v : FpVal) : v.neg.isNan = v.isNan := by cases v <;> rfl
theorem FpVal.isSnan_neg (v : FpVal) : v.neg.isSnan = v.isSnan := by cases v <;> rfl

theorem mul_two_pow_lt {m j k : Nat} (n : Nat) (hm : m < 2 ^ j) (hk : k ≤ n) : m * 2 ^ k < 2 ^ (j + n) := by
  rw [pow_add]
  exact Nat.mul_lt_mul_of_lt_of_le hm (Nat.pow_le_pow_right (by decide) hk) (Nat.two_pow_pos _)

theorem FpVal.Small.toInt_lt {s : Bool} {m : Nat} {e : Int} (h : (FpVal.fin s m e).Small) (rm : Nat) :
    ((FpVal.fin s m e).toInt rm).1.natAbs < 2 ^ (53 + 1100) := by
  obtain ⟨hm, hlo, hhi⟩ := h
  have habs : ((FpVal.fin s m e).toInt rm).1.natAbs = (if 0 ≤ e then (m * 2 ^ e.toNat, false) else roundBits rm s m (-e).toNat false).1 := by
    simp only [FpVal.toInt]; cases s <;> simp
  rw [habs]
  split
  · exact mul_two_pow_lt 1100 hm (by omega)
  · have hr := roundBits_le rm s m (-e).toNat false
    have hd := Nat.div_le_self m (2 ^ (-e).toNat)
    have h54 : (roundBits rm s m (-e).toNat false).1 < 2 ^ 54 := by omega
    exact h54.trans_le (pow_le_pow_right₀ (by decide) (by decide))

/-! ## Operations with a NaN operand -/

theorem FpVal.eq_nan {v : FpVal} (h : v.isNan = true) : ∃ q, v = .nan q := by
  cases v with
  | nan q => exact ⟨q, rfl⟩
  | inf _ => cases h
  | zero _ => cases h
  | fin _ _ _ => cases h

theorem FpFmt.addV_of_nan (f : FpFmt) (rm : Nat) {a b : FpVal} (h : a.isNan = true ∨ b.isNan = true) : f.addV rm a b = f.nanOut a b := by
  rcases h with h | h <;> obtain ⟨q, rfl⟩ := FpVal.eq_nan h
  · rfl
  · cases a <;> rfl

theorem FpFmt.mulV_of_nan (f : FpFmt) (rm : Nat) {a b : FpVal} (h : a.isNan = true ∨ b.isNan = true) : f.mulV rm a b = f.nanOut a b := by
  rcases h with h | h <;> obtain ⟨q, rfl⟩ := FpVal.eq_nan h
  · rfl
  · cases a <;> rfl

theorem FpFmt.divV_of_nan (f : FpFmt) (rm : Nat) {a b : FpVal} (h : a.isNan = true ∨ b.isNan = true) : f.divV rm a b = f.nanOut a b := by
  rcases h with h | h <;> obtain ⟨q, rfl⟩ := FpVal.eq_nan h
  · rfl
  · cases a <;> rfl

theorem FpFmt.sqrtV_of_nan (f : FpFmt) (rm : Nat) {a : FpVal} (h : a.isNan = true) : f.sqrtV rm a = f.nanOut a a := by
  obtain ⟨q, rfl⟩ := FpVal.eq_nan h
  rfl

/-- The outcome of a NaN operand (R220): the canonical NaN, and no condition but those of the operands. -/
def FpFmt.nanGiven (f : FpFmt) (dn nv : Bool) : FpOut := ⟨f.nan, dn, nv, false, false, false, false⟩

theorem FpFmt.op_of_nan (f : FpFmt) {k : Nat} (rm a b : Nat) (hk : k ≤ 4) (h : (f.read a).1.isNan = true ∨ k < 4 ∧ (f.read b).1.isNan = true) :
    f.op k rm a b = f.nanGiven ((f.read a).2 || (k ≠ 4 && (f.read b).2)) ((f.read a).1.isSnan || (k ≠ 4 && (f.read b).1.isSnan)) := by
  have hab (hk' : k < 4) : (f.read a).1.isNan = true ∨ (f.read b).1.isNan = true := h.imp_right And.right
  have hneg (hk' : k < 4) : (f.read a).1.isNan = true ∨ (f.read b).1.neg.isNan = true := by rw [FpVal.isNan_neg]; exact hab hk'
  have hout (x y : FpVal) (d : Bool) : ({ f.nanOut x y with dn := d } : FpOut) = f.nanGiven d (x.isSnan || y.isSnan) := rfl
  match k, hk with
  | 0, _ => simp [FpFmt.op, f.addV_of_nan rm (hab (by decide)), hout]
  | 1, _ => simp [FpFmt.op, f.addV_of_nan rm (hneg (by decide)), hout, FpVal.isSnan_neg]
  | 2, _ => simp [FpFmt.op, f.mulV_of_nan rm (hab (by decide)), hout]
  | 3, _ => simp [FpFmt.op, f.divV_of_nan rm (hab (by decide)), hout]
  | 4, _ => simp [FpFmt.op, f.sqrtV_of_nan rm (h.resolve_right (by simp)), hout]

end Sys2Proof.Machine

namespace Sys2Proof.Cert

/-! ## Encodings -/

theorem emax_pos {f : FpFmt} (hf : f = fpD ∨ f = fpS) : 0 < f.emax := by rcases hf with rfl | rfl <;> decide

theorem isNan_read (f : FpFmt) (v : Nat) : (f.read v).1.isNan = true ↔ nanEnc f v := by
  simp only [FpFmt.read, bitsOf_eq]
  split
  · next h => split <;> simp_all [FpVal.isNan, nanEnc]
  · next h => split <;> simp [FpVal.isNan, nanEnc, h]

theorem isSnan_read (f : FpFmt) (v : Nat) : (f.read v).1.isSnan = true ↔ snanEnc f v := by
  simp only [FpFmt.read, bitsOf_eq]
  split
  · next h => split <;> simp_all [FpVal.isSnan, snanEnc, nanEnc]
  · next h => split <;> simp [FpVal.isSnan, snanEnc, nanEnc, h]

theorem sub_read {f : FpFmt} (hf : f = fpD ∨ f = fpS) (v : Nat) : (f.read v).2 = true ↔ subEnc f v := by
  have hpos := emax_pos hf
  simp only [FpFmt.read, bitsOf_eq]
  split
  · next h => simp [subEnc, h]; omega
  · next h => split <;> simp_all [subEnc]

theorem sub_read_of_nan {f : FpFmt} (hf : f = fpD ∨ f = fpS) {v : Nat} (h : nanEnc f v) : (f.read v).2 = false := by
  have hpos := emax_pos hf
  rw [← Bool.not_eq_true, sub_read hf]
  rintro ⟨h0, -⟩
  have := h.1
  omega

theorem read_small {f : FpFmt} (hf : f = fpD ∨ f = fpS) (v : Nat) : (f.read v).1.Small := by
  simp only [FpFmt.read, bitsOf_eq]
  split
  · split <;> trivial
  · split
    · trivial
    · rcases hf with rfl | rfl <;> simp only [FpVal.Small, fpD, fpS, FpFmt.fbits, FpFmt.bias] <;> omega

/-! ## Which results are NaNs -/

theorem compose_eq (f : FpFmt) (s : Bool) (ex frac : Nat) :
    f.sign s + ex * 2 ^ f.fbits + frac = 2 ^ f.fbits * (2 ^ f.ebits * b2n s + ex) + frac := by
  rw [FpFmt.sign, pow_add]
  ring

/-- The exponent field of an encoding put together from its fields. -/
theorem expField_compose (f : FpFmt) (s : Bool) {ex frac : Nat} (hex : ex < 2 ^ f.ebits) (hfrac : frac < 2 ^ f.fbits) :
    (f.sign s + ex * 2 ^ f.fbits + frac) / 2 ^ f.fbits % 2 ^ f.ebits = ex := by
  rw [compose_eq, Nat.mul_add_div (Nat.two_pow_pos _), Nat.div_eq_of_lt hfrac, Nat.add_zero, Nat.mul_add_mod, Nat.mod_eq_of_lt hex]

theorem fraction_compose (f : FpFmt) (s : Bool) {ex frac : Nat} (hfrac : frac < 2 ^ f.fbits) :
    (f.sign s + ex * 2 ^ f.fbits + frac) % 2 ^ f.fbits = frac := by
  rw [compose_eq, Nat.mul_add_mod, Nat.mod_eq_of_lt hfrac]

theorem emax_lt (f : FpFmt) : f.emax < 2 ^ f.ebits := Nat.sub_lt (Nat.two_pow_pos _) Nat.one_pos

/-- No encoding with another exponent field than the largest is a NaN. -/
theorem not_nan_of_exp (f : FpFmt) (s : Bool) {ex frac : Nat} (hex : ex < f.emax) (hfrac : frac < 2 ^ f.fbits) :
    ¬ nanEnc f (f.sign s + ex * 2 ^ f.fbits + frac) := by
  rintro ⟨h, -⟩
  rw [expField_compose f s (hex.trans (emax_lt f)) hfrac] at h
  omega

theorem not_nan_zero {f : FpFmt} (hf : f = fpD ∨ f = fpS) (s : Bool) : ¬ nanEnc f (f.sign s) := by
  simpa using not_nan_of_exp f s (emax_pos hf) (Nat.two_pow_pos _)

theorem not_nan_inf (f : FpFmt) (s : Bool) : ¬ nanEnc f (f.inf s) := fun h =>
  h.2 (fraction_compose f s (Nat.two_pow_pos _))

theorem not_nan_big {f : FpFmt} (hf : f = fpD ∨ f = fpS) (s : Bool) : ¬ nanEnc f (f.big s) := by
  have hpos := emax_pos hf
  have h2 := Nat.two_pow_pos f.fbits
  have hv : f.big s = f.sign s + (f.emax - 1) * 2 ^ f.fbits + (2 ^ f.fbits - 1) := by
    obtain ⟨n, hn⟩ : ∃ n, f.emax = n + 1 := ⟨f.emax - 1, by omega⟩
    rw [FpFmt.big, FpFmt.inf, hn, Nat.add_mul, Nat.add_sub_cancel]
    omega
  rw [hv]
  exact not_nan_of_exp f s (by omega) (by omega)

/-- Rounding gives no NaN (R219, R222, R223). -/
theorem not_nan_round {f : FpFmt} (hf : f = fpD ∨ f = fpS) (rm : Nat) (s : Bool) {m k : Nat} (e : Int) (more : Bool) (hk : k ≤ 4300) (hm : m < 2 ^ k) :
    ¬ nanEnc f (f.round rm s m e more).val := by
  have hq := (roundBits_le rm s (m * 2 ^ (f.p - bitLen m)) (bitLen m - f.p) more).trans (scaled_lt f.p (lt_two_pow_bitLen hk hm))
  have hp : 2 ^ f.p = 2 * 2 ^ (f.p - 1) := by rcases hf with rfl | rfl <;> rfl
  simp only [FpFmt.round]
  generalize (roundBits rm s (m * 2 ^ (f.p - bitLen m)) (bitLen m - f.p) more).1 = q0 at hq ⊢
  have hfrac : (if q0 = 2 ^ f.p then 2 ^ (f.p - 1) else q0) - 2 ^ (f.p - 1) < 2 ^ f.fbits := by
    have h1 := Nat.two_pow_pos (f.p - 1)
    rw [FpFmt.fbits]
    split <;> omega
  generalize (if q0 = 2 ^ f.p then 2 ^ (f.p - 1) else q0) - 2 ^ (f.p - 1) = frac at hfrac ⊢
  generalize (if q0 = 2 ^ f.p then (1 : Int) else 0) = carry
  split
  · exact not_nan_zero hf s
  · next hlo =>
    split
    · dsimp only
      split
      · exact not_nan_inf f s
      · exact not_nan_big hf s
    · next hhi => exact not_nan_of_exp f s (by omega) hfrac

/-- A result that is a NaN is the canonical one (R220). -/
def NanCanonical (f : FpFmt) (o : FpOut) : Prop := nanEnc f o.val → o.val = f.nan

theorem canonical_of_not_nan {f : FpFmt} {o : FpOut} (h : ¬ nanEnc f o.val) : NanCanonical f o := fun hn => absurd hn h

theorem canonical_nan {f : FpFmt} {o : FpOut} (h : o.val = f.nan) : NanCanonical f o := fun _ => h

section
variable {f : FpFmt} (hf : f = fpD ∨ f = fpS)
include hf

theorem canonical_round (rm : Nat) (s : Bool) {m k : Nat} (e : Int) (more : Bool) (hk : k ≤ 4300) (hm : m < 2 ^ k) :
    NanCanonical f (f.round rm s m e more) := canonical_of_not_nan (not_nan_round hf rm s e more hk hm)

theorem canonical_zero (s : Bool) : NanCanonical f (.plain (f.sign s)) := canonical_of_not_nan (not_nan_zero hf s)

theorem canonical_ofInt (rm : Nat) {v : Int} {k : Nat} (e : Int) (zero : Bool) (hk : k ≤ 4300) (hv : v.natAbs < 2 ^ k) :
    NanCanonical f (f.ofInt rm v e zero) := by
  unfold FpFmt.ofInt
  split
  · exact canonical_zero hf zero
  · exact canonical_round hf rm _ e false hk hv

/-- Addition: the last case adds two finite values aligned to the smaller exponent, and the sum stays in the range that `bitLen` counts. -/
theorem canonical_addV (rm : Nat) {a b : FpVal} (ha : a.Small) (hb : b.Small) : NanCanonical f (f.addV rm a b) := by
  unfold FpFmt.addV
  dsimp only
  split
  case h_1 | h_2 => exact canonical_nan rfl
  case h_3 =>
    split
    · exact canonical_of_not_nan (not_nan_inf f _)
    · exact canonical_nan rfl
  case h_4 | h_5 => exact canonical_of_not_nan (not_nan_inf f _)
  case h_6 => exact canonical_zero hf _
  case h_7 => exact canonical_round hf rm _ _ _ (by decide) hb.1
  case h_8 => exact canonical_round hf rm _ _ _ (by decide) ha.1
  case h_9 s m e t n d =>
    obtain ⟨hm, helo, hehi⟩ := ha
    obtain ⟨hn, hdlo, hdhi⟩ := hb
    have hx := mul_two_pow_lt (k := (e - min e d).toNat) 2200 hm (by omega)
    have hy := mul_two_pow_lt (k := (d - min e d).toNat) 2200 hn (by omega)
    generalize m * 2 ^ (e - min e d).toNat = x at hx ⊢
    generalize n * 2 ^ (d - min e d).toNat = y at hy ⊢
    refine canonical_ofInt hf rm _ _ (k := 53 + 2200 + 1) (by decide) ?_
    rw [pow_succ]
    split <;> split <;> omega

theorem canonical_mulV (rm : Nat) {a b : FpVal} (ha : a.Small) (hb : b.Small) : NanCanonical f (f.mulV rm a b) := by
  unfold FpFmt.mulV
  dsimp only
  split
  case h_1 | h_2 | h_3 | h_4 => exact canonical_nan rfl
  case h_5 | h_6 => exact canonical_of_not_nan (not_nan_inf f _)
  case h_7 | h_8 => exact canonical_zero hf _
  case h_9 s m e t n d => exact canonical_round hf rm _ _ _ (k := 53 + 53) (by decide) (by rw [pow_add]; exact Nat.mul_lt_mul'' ha.1 hb.1)

theorem canonical_divV (rm : Nat) {a b : FpVal} (ha : a.Small) : NanCanonical f (f.divV rm a b) := by
  unfold FpFmt.divV
  dsimp only
  split
  case h_1 | h_2 | h_3 | h_4 => exact canonical_nan rfl
  case h_5 => exact canonical_of_not_nan (not_nan_inf f _)
  case h_6 | h_7 => exact canonical_zero hf _
  case h_8 => exact canonical_of_not_nan (not_nan_inf f _)
  case h_9 s m e t n d =>
    exact canonical_round hf rm _ _ _ (k := 53 + 120) (by decide) ((Nat.div_le_self _ _).trans_lt (mul_two_pow_lt 120 ha.1 le_rfl))

theorem canonical_sqrtV (rm : Nat) (a : FpVal) : NanCanonical f (f.sqrtV rm a) := by
  unfold FpFmt.sqrtV
  split
  · exact canonical_nan rfl
  · exact canonical_zero hf _
  · split
    · exact canonical_nan rfl
    · exact canonical_of_not_nan (not_nan_inf f _)
  · split
    · exact canonical_nan rfl
    · exact canonical_round hf rm _ _ _ (k := 90) (by decide) (by simpa using rootN_lt 2 _ 90 0)

theorem canonical_conv (rm : Nat) {v : FpVal} (hv : v.Small) : NanCanonical f (f.conv rm v) := by
  cases v with
  | nan q => exact canonical_nan rfl
  | inf s => exact canonical_of_not_nan (not_nan_inf f _)
  | zero s => exact canonical_zero hf _
  | fin s m e => exact canonical_round hf rm _ _ _ (by decide) hv.1

theorem canonical_integral (rm : Nat) {v : FpVal} (hv : v.Small) : NanCanonical f (f.integral rm v) := by
  cases v with
  | nan q => exact canonical_nan rfl
  | inf s => exact canonical_of_not_nan (not_nan_inf f _)
  | zero s => exact canonical_zero hf _
  | fin s m e =>
    unfold FpFmt.integral
    dsimp only
    split
    · exact canonical_zero hf _
    · exact canonical_of_not_nan (not_nan_round hf 0 _ _ _ (by decide) (hv.toInt_lt rm))

theorem canonical_op {k : Nat} (rm a b : Nat) (hk : k ≤ 4) : NanCanonical f (f.op k rm a b) := by
  have ha := read_small hf a
  have hb := read_small hf b
  match k, hk with
  | 0, _ => exact canonical_addV hf rm ha hb
  | 1, _ => exact canonical_addV hf rm ha hb.neg
  | 2, _ => exact canonical_mulV hf rm ha hb
  | 3, _ => exact canonical_divV hf rm ha
  | 4, _ => exact canonical_sqrtV hf rm _

end

/-! ## The rule (R220) -/

theorem nan_canon {f : FpFmt} (hf : f = fpD ∨ f = fpS) : f.nan = if f = fpD then 0x7FF8000000000000 else 0x7FC00000 := by
  rcases hf with rfl | rfl <;> decide

/-- A condition of the operands, of which the square root reads the first alone. -/
theorem operands_iff {k : Nat} (hk : k ≤ 4) {x y : Bool} {P Q : Prop} (hx : x = true ↔ P) (hy : y = true ↔ Q) :
    (x || (decide (k ≠ 4) && y)) = true ↔ P ∨ k < 4 ∧ Q := by
  have h4 : k ≠ 4 ↔ k < 4 := by omega
  simp only [Bool.or_eq_true, Bool.and_eq_true, decide_eq_true_eq, hx, hy, h4]

theorem op_nan_rule {f : FpFmt} (hf : f = fpD ∨ f = fpS) {k : Nat} (rm a b : Nat) (hk : k ≤ 4) (h : nanEnc f a ∨ k < 4 ∧ nanEnc f b) :
    let o := f.op k rm a b
    o.val = f.nan ∧ (o.dz = false ∧ o.ovf = false ∧ o.tiny = false ∧ o.nx = false) ∧
      (o.nv = true ↔ snanEnc f a ∨ k < 4 ∧ snanEnc f b) ∧ (o.dn = true ↔ subEnc f a ∨ k < 4 ∧ subEnc f b) := by
  rw [← isNan_read, ← isNan_read] at h
  rw [f.op_of_nan rm a b hk h]
  exact ⟨rfl, ⟨rfl, rfl, rfl, rfl⟩, operands_iff hk (isSnan_read f a) (isSnan_read f b), operands_iff hk (sub_read hf a) (sub_read hf b)⟩

theorem cmpOp_nv (f : FpFmt) (a b : Nat) : (f.cmpOp a b).nv = true ↔ snanEnc f a ∨ snanEnc f b := by
  rw [← isSnan_read, ← isSnan_read, ← Bool.or_eq_true]
  rfl

/-- An operand that is a NaN, as the units read it: it is not subnormal. -/
theorem read_of_nan {f : FpFmt} (hf : f = fpD ∨ f = fpS) {v : Nat} (h : nanEnc f v) : f.read v = (.nan (decide (snanEnc f v)), false) := by
  obtain ⟨q, hq⟩ := FpVal.eq_nan ((isNan_read f v).2 h)
  have hs : q = decide (snanEnc f v) := by
    have hr := isSnan_read f v
    rw [hq] at hr
    rw [Bool.eq_iff_iff, decide_eq_true_iff]
    exact hr
  exact Prod.ext (by rw [hq, hs]) (sub_read_of_nan hf h)

theorem conv_nan (f : FpFmt) (rm : Nat) (q : Bool) : f.conv rm (.nan q) = { FpOut.plain f.nan with nv := q } := by
  cases q <;> rfl

theorem integral_nan (f : FpFmt) (rm : Nat) (q : Bool) : f.integral rm (.nan q) = { FpOut.plain f.nan with nv := q } := conv_nan f rm q

theorem fcvtOp_narrow (rm t : Nat) : fcvtOp 0 rm t = { fpS.conv rm (fpD.read t).1 with dn := (fpD.read t).2 } := rfl
theorem fcvtOp_widen (rm t : Nat) : fcvtOp 1 rm t = { fpD.conv rm (fpS.read (t % 2 ^ 32)).1 with dn := (fpS.read (t % 2 ^ 32)).2 } := rfl
theorem fcvtOp_integral (rm t : Nat) : fcvtOp 9 rm t = { fpD.integral rm (fpD.read t).1 with dn := (fpD.read t).2 } := rfl

/-- The conversions to an integer, from binary64 and from binary32. -/
theorem fcvtOp_toInt (rm t : Nat) {k : Nat} (hk : k = 2 ∨ k = 3 ∨ k = 4) :
    ∃ rm' lo hi neg nanV, fcvtOp k rm t = { toIntOut rm' (fpD.read t).1 lo hi neg nanV with dn := (fpD.read t).2 } := by
  rcases hk with rfl | rfl | rfl <;> exact ⟨_, _, _, _, _, rfl⟩

theorem fcvtOp_toInt32 (rm t : Nat) : ∃ lo hi neg nanV,
    fcvtOp 7 rm t = { toIntOut rm (fpS.read (t % 2 ^ 32)).1 lo hi neg nanV with dn := (fpS.read (t % 2 ^ 32)).2 } := ⟨_, _, _, _, rfl⟩

/-- The conversions of a binary64 NaN (R220, R225). -/
theorem fcvt_of_nanD (rm : Nat) {t : Nat} (h : nanEnc fpD t) :
    fcvtOp 0 rm t = { FpOut.plain fpS.nan with nv := decide (snanEnc fpD t) } ∧ fcvtOp 9 rm t = { FpOut.plain fpD.nan with nv := decide (snanEnc fpD t) } ∧
      ∀ k, k = 2 ∨ k = 3 ∨ k = 4 → ∃ w, fcvtOp k rm t = .invalid w := by
  have hr := read_of_nan (.inl rfl) h
  refine ⟨?_, ?_, fun k hk => ?_⟩
  · rw [fcvtOp_narrow, hr, conv_nan]; rfl
  · rw [fcvtOp_integral, hr, integral_nan]; rfl
  · obtain ⟨rm', lo, hi, neg, nanV, hint⟩ := fcvtOp_toInt rm t hk
    rw [hint, hr]
    exact ⟨_, rfl⟩

/-- The conversions of a binary32 NaN (R220, R225). -/
theorem fcvt_of_nanS (rm : Nat) {t : Nat} (h : nanEnc fpS (t % 2 ^ 32)) :
    fcvtOp 1 rm t = { FpOut.plain fpD.nan with nv := decide (snanEnc fpS (t % 2 ^ 32)) } ∧ ∃ w, fcvtOp 7 rm t = .invalid w := by
  have hr := read_of_nan (.inr rfl) h
  constructor
  · rw [fcvtOp_widen, hr, conv_nan]; rfl
  · obtain ⟨lo, hi, neg, nanV, hint⟩ := fcvtOp_toInt32 rm t
    rw [hint, hr]
    exact ⟨_, rfl⟩

/-- A conversion replaced by a value for an operand it cannot represent sets NV alone (R225). -/
theorem invalid_quiet {o : FpOut} (h : ∃ w, o = .invalid w) :
    o.nv = true ∧ (o.dz = false ∧ o.ovf = false ∧ o.tiny = false ∧ o.nx = false) ∧ o.dn = false := by
  obtain ⟨w, rfl⟩ := h
  exact ⟨rfl, ⟨rfl, rfl, rfl, rfl⟩, rfl⟩

/-- Settles O9: no result but the canonical NaN is a NaN (`canonical_op`, `canonical_conv`, `canonical_integral`), and a NaN operand gives it (`op_nan_rule`, `fcvt_of_nanD`, `fcvt_of_nanS`). -/
theorem fpNanRule : Obligations.FpNanRule := by
  have hD : fpD = fpD ∨ fpD = fpS := .inl rfl
  have hS : fpS = fpD ∨ fpS = fpS := .inr rfl
  refine ⟨fun f k rm a b hf hk _ _ => ⟨?_, fun h => ?_, cmpOp_nv f a b, rfl, rfl, rfl, rfl⟩, fun rm t _ => ⟨?_, ?_, ?_, fun h => ?_, fun h => ?_⟩⟩
  · exact fun h => (canonical_op hf rm a b hk h).trans (nan_canon hf)
  · obtain ⟨hval, hrest⟩ := op_nan_rule hf rm a b hk h
    exact ⟨hval.trans (nan_canon hf), hrest⟩
  · exact canonical_conv hS rm (read_small hD t)
  · exact canonical_conv hD rm (read_small hS (t % 2 ^ 32))
  · exact canonical_integral hD rm (read_small hD t)
  · obtain ⟨h0, h9, hint⟩ := fcvt_of_nanD rm h
    exact ⟨h0, h9, fun k hk => invalid_quiet (hint k hk)⟩
  · obtain ⟨h1, h7⟩ := fcvt_of_nanS rm h
    exact ⟨h1, invalid_quiet h7⟩

end Sys2Proof.Cert
end

section
/-! PROOFS. FAULT_NOTICE (R402): what a report does to the functions' event bits, step by step of `State.report`. -/

open Sys2Proof Sys2Proof.Machine

namespace Sys2Proof.Machine

/-- To set a bit that is set already changes nothing. -/
theorem or_bit_of_getLsbD {n : Nat} {v : BitVec n} {b : Nat} (h : v.getLsbD b = true) : v ||| BitVec.ofNat n (1 <<< b) = v := by
  refine BitVec.eq_of_getLsbD_eq fun i hi => ?_
  rw [BitVec.getLsbD_or, BitVec.getLsbD_ofNat, Nat.one_shiftLeft, Nat.testBit_two_pow]
  by_cases hb : b = i
  · subst hb; simp [h]
  · simp [hb]

/-! ## What leaves every function's registers alone -/

/-- A change that leaves the queue manager alone leaves every function's registers alone. -/
theorem State.fn_of_qm_eq {s t : State} (h : t.qm = s.qm) (f : Nat) : t.fn f = s.fn f := by
  rw [State.fn, h, State.fn]

@[simp] theorem State.graveStop_fn (s : State) (src : W16) (f : Nat) : (s.graveStop src).fn f = s.fn f :=
  State.fn_of_qm_eq (((Stays.refl 0x2d003a s).graveStop src rfl).qm rfl) f

@[simp] theorem State.finish_fn (s : State) (c : Cmd) (status tid r0 r1 f : Nat) : (s.finish c status tid r0 r1).fn f = s.fn f := rfl

@[simp] theorem State.finishH_fn (s : State) (h status r0 r1 f : Nat) : (s.finishH h status r0 r1).fn f = s.fn f := by
  unfold State.finishH
  split
  · exact State.finish_fn ..
  · rfl

/-- The end of an injection completes the INJECT that asked for it, or is kept for FLT_INJ_RESULT. -/
@[simp] theorem State.injEnd_fn (s : State) (unit : W16) (status val f : Nat) : (s.injEnd unit status val).fn f = s.fn f := by
  unfold State.injEnd
  split
  · rfl
  · dsimp only
    split
    · rw [State.finishH_fn, State.setFlt_fn]
    · rw [State.setFlt_fn, State.setFlt_fn]

@[simp] theorem State.injRecorded_fn (s : State) (unit : W16) (index : W32) (f : Nat) : (s.injRecorded unit index).fn f = s.fn f := by
  unfold State.injRecorded
  split
  · exact State.setFlt_fn ..
  · exact State.injEnd_fn ..

/-! ## What sets an event bit -/

/-- Bit b of QM_VF_EVENT of f is set, whether or not it was set before and the vector is sent (R53). -/
theorem State.setEvent_event (s : State) (f b g : Nat) :
    ((s.setEvent f b).fn g).event = if g = f then (s.fn f).event ||| BitVec.ofNat 4 (1 <<< b) else (s.fn g).event := by
  unfold State.setEvent
  split
  case isTrue hset =>
    rw [or_bit_of_getLsbD hset]
    split
    · subst g; rfl
    · rfl
  case isFalse =>
    have hsent := Stays.foldl (l := upTo 2) (fun t p ht => Stays.ite (c := t.reach p f) (ht.sendMsix p f (eventVec f) rfl) ht)
      (Stays.refl 0x200002 (s.updFn f (fun x => { x with event := x.event ||| BitVec.ofNat 4 (1 <<< b) })))
    dsimp only
    rw [State.fn_of_qm_eq (hsent.qm rfl)]
    split
    · subst g; rw [State.updFn_fn]
    · rw [State.updFn_fn_ne _ _ _ _ ‹_›]

/-- A part done on a condition that leaves function f alone leaves it alone whether or not it is done. -/
theorem State.ite_fn_of_left {c : Prop} [Decidable c] {a b : State} {f : Nat} (h : a.fn f = b.fn f) : (if c then a else b).fn f = b.fn f := by
  split
  · exact h
  · rfl

/-- A report changes the event bits of a function only by FAULT_NOTICE, when its class is F2 or above and it names that function. -/
theorem State.report_event {s : State} (hon : s.on = true) (r : Report) (f : Nat) :
    ((s.report r).fn f).event =
      if (2 ≤ kindClass r.kind ∧ r.func.toNat ≤ 0x101) ∧ f = r.func.toNat then (s.fn f).event ||| 8 else (s.fn f).event := by
  unfold State.report
  rw [if_neg (by simp [hon])]
  dsimp only
  rw [State.ite_fn_of_left (State.graveStop_fn ..)]
  by_cases hnotice : 2 ≤ kindClass r.kind ∧ r.func.toNat ≤ 0x101
  · rw [if_pos (by simpa using hnotice), State.setEvent_event, State.ite_fn_of_left (State.injRecorded_fn ..),
      State.ite_fn_of_left (State.injRecorded_fn ..), State.setFlt_fn, State.setFlt_fn]
    by_cases hf : f = r.func.toNat
    · subst hf; simp [hnotice]
    · simp [hf]
  · rw [if_neg (by simpa using hnotice), State.ite_fn_of_left (State.injRecorded_fn ..), State.setFlt_fn, if_neg (fun h => hnotice h.1)]

end Sys2Proof.Machine

namespace Sys2Proof.Cert

/-- Settles O54: the report sets FAULT_NOTICE by `State.setEvent` alone, and nothing else of it (the log, an injection's end, the grave stop) reaches an event bit (`State.report_event`). -/
theorem faultNotices : Obligations.FaultNotices := by
  intro s r hon
  refine ⟨fun hclass hfunc f => ?_, fun hclass hfunc f => ?_, fun hclass f => ?_⟩ <;> rw [State.report_event hon]
  · simp only [show 2 ≤ kindClass r.kind from hclass, hfunc, and_self, true_and]
  · exact if_neg fun ⟨⟨_, hle⟩, _⟩ => by omega
  · exact if_neg fun ⟨⟨h2, _⟩, _⟩ => Nat.not_le.2 hclass h2

end Sys2Proof.Cert
end
